-- ==== Sys2Proof/Word.lean ====
section
/-!
DEFINITION. The word types of the DK6256 model and nothing else: a register word is 32 bits wide
(R142), a memory byte 8, and a sample word has the layout of R21. Everything computed from them
stands under Machine/.
-/
namespace Sys2Proof

/-- A register word (R142: every register is 32 bits wide). -/
abbrev Word := BitVec 32

/-- A byte of the DRAM, of the boot flash or of a frame. -/
abbrev Byte := BitVec 8

end Sys2Proof
end

