-- ==== Sys2Proof/Operand.lean ====
section
/-!
DEFINITION. The types of the operands of the commands: what a command brings from outside the hub,
such as the fields of a frame or the readings of an analog input.
-/
namespace Sys2Proof

/-- The two host ports (R126). -/
inductive HostPort where
  | A | B
deriving DecidableEq, Repr, Inhabited

/-- The four network ports, in the order of every port mask (R303). -/
inductive NetPort where
  | N | S | T | M
deriving DecidableEq, Repr, Inhabited

/-- A time of the counter, in units of 2⁻¹⁶ ns (R265). -/
abbrev Tm := Nat

/-- The supply rails with a supervisor (R78 Table 1). -/
inductive Rail where
  | AVDD5 | AVDD18 | DVDD | VDD2 | VDDQ | VDDIO (k : Fin 4)
deriving DecidableEq, Repr, Inhabited

/-- Why a power-on reset comes (R89 Table 4): first power, or a rail that stands at `mv` millivolts. -/
inductive PowerCause where
  | firstPower
  | railLow (r : Rail) (mv : Nat)
deriving DecidableEq, Repr, Inhabited

/-- The reset sources of R89 Table 4 that a later command ends (R91). -/
inductive ResetSource where
  | rail (r : Rail) | pin | clock | thermal (t8 : Int)
deriving DecidableEq, Repr, Inhabited

/-- The strap balls as sampled at the release of reset (R70 Table 6). -/
structure Straps where
  role : Bool
  pair : Bool
  twin : Bool
  boot : BitVec 2
  hpa : Bool
  hpb : Bool
deriving DecidableEq, Repr, Inhabited

/-- How DRAM training ends (R521, R522): the rate code of MEM.STATUS (1, 2, 3) and the density code,
or no rate that passes. -/
inductive TrainResult where
  | pass (rate : Fin 4) (density : Fin 4)
  | fail
deriving DecidableEq, Repr, Inhabited

/-- The two flash images (R95 Table 6). -/
inductive ImageSel where
  | imageA | imageB
deriving DecidableEq, Repr, Inhabited

/-- What the boot flash gives at one try of an image (R98, R255): whether the image's reads succeed, and a bit for each of
the two slots of the calibration journal that it fails to give. -/
structure ImageReads where
  ok : Bool
  slots : BitVec 2
deriving DecidableEq, Repr, Inhabited

/-- A network port at the expiry of its sync interval, with the fraction that the fine phase detector adds to the time of
departure (R268, R272). -/
structure SyncDue where
  port : NetPort
  fine : Fin 640
deriving DecidableEq, Repr, Inhabited

/-- A queue that a block is pushed into, with the bits that change in the memory, by the number of the word (R28, R511). -/
structure QueuePut where
  queue : Fin 16
  flips : List (Nat × BitVec 33)
deriving DecidableEq, Repr, Inhabited

/-- A control loop at the start of a period, and whether its state fails its parity then (R631, R645). -/
structure LoopStart where
  loop : Fin 16
  parity : Bool
deriving DecidableEq, Repr, Inhabited

/-- What every hub frame carries in its header (R552, R553): the source MAC, and Table 2. -/
structure Hdr where
  smac : BitVec 48
  dstv : Bool
  dst : BitVec 16
  srcv : Bool
  src : BitVec 16
  bcast : Bool
  turned : Bool
  hops : BitVec 8
  seq : Word
deriving DecidableEq, Repr, Inhabited

/-- ANNOUNCE (R555 Table 3). -/
structure AnnounceMsg where
  uid : BitVec 64
  straps : Word
  digest : Word
deriving DecidableEq, Repr, Inhabited

/-- GRANT (R555 Table 3, R563). -/
structure GrantMsg where
  uid : BitVec 64
  addr : BitVec 16
  epoch : BitVec 64
  digest : Word
  mgrUid : BitVec 64
deriving DecidableEq, Repr, Inhabited

/-- HEARTBEAT (R555 Table 3). -/
structure HeartbeatMsg where
  uid : BitVec 64
  timeState : BitVec 8
  active : Bool
  standby : Bool
  hopsN : BitVec 8
  hopsS : BitVec 8
  digest : Word
  session : Word
  t1 : BitVec 64
deriving DecidableEq, Repr, Inhabited

/-- HB_REPLY (R555 Table 3). -/
structure HbReplyMsg where
  mgrUid : BitVec 64
  timeState : BitVec 8
  t1 : BitVec 64
  t2 : BitVec 64
  t3 : BitVec 64
deriving DecidableEq, Repr, Inhabited

/-- A BLOCK fragment (R555): its header and its bytes. -/
structure BlockMsg where
  source : BitVec 16
  stream : Fin 64
  /-- PCP of the frame's tag, which the block keeps on its way up (R572). -/
  pcp : Fin 8
  first : Bool
  last : Bool
  bseq : Word
  offset : Word
  total : Word
  bytes : List Byte
deriving DecidableEq, Repr, Inhabited

/-- An ACK entry (R555); KIND 0 acknowledgement, 1 replay request, 2 floor. -/
structure AckEntry where
  source : BitVec 16
  stream : Fin 64
  gen : BitVec 8
  session : Word
  a : BitVec 48
  kind : Fin 3
deriving DecidableEq, Repr, Inhabited

/-- REG_REQ (R555 Table 3). -/
structure RegReqMsg where
  tag : BitVec 16
  portB : Bool
  write : Bool
  count : Fin 16
  addr : BitVec 24
  data : List Word
deriving DecidableEq, Repr, Inhabited

/-- REG_RESP (R555 Table 3). -/
structure RegRespMsg where
  tag : BitVec 16
  result : BitVec 16
  data : List Word
deriving DecidableEq, Repr, Inhabited

/-- TRIGGER (R555 Table 3). -/
structure TriggerMsg where
  id : BitVec 8
  origin : BitVec 16
  time : Word
deriving DecidableEq, Repr, Inhabited

/-- Where CS_L rises in a serial transaction (R135). -/
inductive SerialPhase where
  | idle | wait | ready | partialWord
deriving DecidableEq, Repr, Inhabited

/-- How the flash answers a command (R173, R174). -/
inductive FlashOutcome where
  | ok | spi
deriving DecidableEq, Repr, Inhabited

/-- One modulator decision (R225): its value in 1/256 LSB and its overload flag. -/
structure Dec where
  val : Int
  ovl : Bool
deriving DecidableEq, Repr, Inhabited

/-- A read of a filter group that fails its parity (R373): of a tap or coefficient of a bank, or of a stage history; and
the positions whose word is computed from it. -/
structure ParityFault where
  group : Fin 16
  history : Bool
  bank : Fin 4
  tap : BitVec 9
  positions : BitVec 16
deriving DecidableEq, Repr, Inhabited

/-- What the wire-break detector of a channel sees at one decision (R183, R193): the quantiser at its top or bottom level,
and the levels of the two pins in µV against AGND. -/
structure PinDec where
  atEnd : Bool
  vp : Int
  vn : Int
deriving DecidableEq, Repr, Inhabited

/-- What a bank's controller reads (R202): V(SP) − V(SN) in mV and V(ISP) − V(ISN) in µV. -/
structure ExcRead where
  volt : Int
  isense : Int
deriving DecidableEq, Repr, Inhabited

/-- What a base-rate instant k brings from outside, as sample k leaves its hold (R196): the decisions 96k + 1 to 96k + 96 of
each converter that is not at zero (index 17b + q, R224), what the wire-break detectors have seen of them since they were
last told, by channel, common modes in µV by channel, excitation readings by bank, and parity failures. -/
structure BaseEnv where
  dec : List (Nat × List Dec)
  pins : List (Nat × List PinDec)
  cm : List (Nat × Int)
  exc : List (Nat × ExcRead)
  /-- Phase residual of the 96th modulator edge in 2⁻⁸ ns (R301). -/
  phase : Int
  parity : List ParityFault
deriving DecidableEq, Repr, Inhabited

/-- The fields of a PTP message that the hub uses (R268, R273, R280). -/
structure PtpMsg where
  /-- sourcePortIdentity. -/
  sender : BitVec 80
  seq : BitVec 16
  /-- Domain, version and type admitted by R268 Table 1. -/
  domain : BitVec 8
  version : Nat
  /-- correctionField, in units of 2⁻¹⁶ ns. -/
  correction : Int
  /-- preciseOriginTimestamp (Follow_Up), originTimestamp (one-step Sync) or receiveTimestamp (Delay_Resp). -/
  stamp : Tm
  oneStep : Bool
  /-- The rate TLV of R273 Table 2: (R − 1) × 2⁴¹ and the flags. -/
  tlvRate : Int
  tlvFlags : BitVec 16
  /-- The port identity that a Delay_Resp answers is the hub's. -/
  forUs : Bool
  /-- What the fine phase detector adds to the arrival's core cycle, in 2⁻⁸ ns (R272). -/
  fine : Fin 640
deriving DecidableEq, Repr, Inhabited

/-- The fields of a PTP Announce (R268, R304): what the default BMCA compares, and UTC. -/
structure PtpAnnounceMsg where
  /-- sourcePortIdentity. -/
  sender : BitVec 80
  domain : BitVec 8
  version : Nat
  prio1 : BitVec 8
  prio2 : BitVec 8
  steps : BitVec 16
  gmId : BitVec 64
  clockClass : BitVec 8
  accuracy : BitVec 8
  variance : BitVec 16
  utcOffset : BitVec 16
  utcValid : Bool
deriving DecidableEq, Repr, Inhabited

/-- What the phase detectors have measured since the last evaluation (R272): per port the ratio of the recovered clock to
the hub's own, less 1, in 2⁻⁴¹. -/
structure TimeEnv where
  rho : List (Nat × Int)
deriving DecidableEq, Repr, Inhabited

/-- A rod update (R320): identity, 48-bit position, velocity in 2⁻⁸ units/s, low 32 bits of its time. -/
structure RodMsg where
  netId : BitVec 7
  pos : BitVec 48
  vel : Word
  time : Word
deriving DecidableEq, Repr, Inhabited

/-- Sums of the MEAS readings of a calibration's points, in 1/256 LSB (R230 Table 2). -/
structure CalReadings where
  z : Int
  p : Int
  n : Int
  e : Int
deriving DecidableEq, Repr, Inhabited

/-- How a journal store ends (R257). -/
inductive StoreEnd where
  | ok | timeout | verify | spi
deriving DecidableEq, Repr, Inhabited

/-- Why a frame is not admitted (R554): its FCS, what it is, or a PTP message of R269. -/
inductive BadFrame where
  | fcs | other | ptp
deriving DecidableEq, Repr, Inhabited

/-- Why a port goes down (R568). -/
inductive DownCause where
  | los | pcsFault
deriving DecidableEq, Repr, Inhabited

/-- A rod as TW_SAMPLE forwards it (R590 Table 3). -/
structure TwRod where
  rod : Fin 8
  pos : BitVec 48
  vel : Word
  qual : BitVec 3
  backward : Bool
  last : Word
deriving DecidableEq, Repr, Inhabited

/-- TW_SAMPLE (R590 Table 3). A channel or a bank that is not listed is at 0 with no tag. -/
structure TwSampleMsg where
  k : Int
  vals : List (Nat × Int × BitVec 4)
  exc : List (Nat × Nat × BitVec 3)
  rods : List TwRod
  levels : BitVec 22
  prov : Bool
  hold : Bool
  lost : Bool
deriving DecidableEq, Repr, Inhabited

/-- An entry of TW_EVENT (R590 Table 4). -/
inductive TwEntry where
  | write (p : HostPort) (addr : BitVec 24) (data : Word)
  | commit (page : BitVec 12)
  | edge (input : Fin 22) (level : Bool) (ns : Nat)
  | nettrig (m : TriggerMsg)
  | ackpos (stream : Fin 64) (a : BitVec 48)
  | level (stream : Fin 64) (lvl : Fin 5) (bseq : Word)
  | log (words : List Word)
deriving DecidableEq, Repr, Inhabited

/-- An entry of TW_CHECK, or of TW_VERDICT without its verdict (R590 Table 3). -/
structure TwCheckMsg where
  control : Bool
  stream : Fin 64
  n : Word
  crc : Word
deriving DecidableEq, Repr, Inhabited

/-- TW_ROLE (R590 Table 3). `channel` is the channel of an analog SELFCHECK (R600). -/
structure TwRoleMsg where
  uid : BitVec 64
  role : Fin 6
  joined : Bool
  twin : Bool
  request : Fin 6
  result : Fin 3
  kH : Int
  imageVer : Word
  usable : Word
  channel : Option (Fin 256)
deriving DecidableEq, Repr, Inhabited

/-- What a board returns at a latch (R653): the control word and the channel words of its register. -/
structure BoardRet where
  board : Fin 64
  /-- Its control word as returned (R653 Table 1). -/
  ctl : BitVec 32
  /-- Its 16 channel words. -/
  echo : List Nat
deriving DecidableEq, Repr, Inhabited

/-- A test of SELF-CHECK Table 5 that fails; `none` when every test passes (R601, R602). -/
abbrev SelfResult := Option (Fin 5)

/-- How a self-test ends (R688 to R691). -/
inductive BistEnd where
  | pass
  | fail (addr : Word)
deriving DecidableEq, Repr, Inhabited

/-- What befalls a job in the engine that the coder itself cannot know (R474 Table 7): nothing, input words
read with an uncorrectable error, or a coded frame whose check finds a difference (R478). -/
inductive JobFault where
  | none
  | memErr (words : List Nat)
  | check (frame : Nat)
deriving DecidableEq, Repr, Inhabited

end Sys2Proof
end

