-- ==== Sys2Proof/Machine/Blocks.lean ====
section
/-!
DEFINITION. What the blocks of the hub keep between two commands, beside their registers: one
structure for each block, and the structures those hold. They are plain data. Machine/State.lean puts
them together; RESYNC_PHASE_END carries the lockstep ones from the twin (R618).
-/
namespace Sys2Proof.Machine

/-- A sparse map in ascending key order. -/
abbrev SMap (α : Type) := List (Nat × α)

/-- Where the boot sequence stands (R99 Table 9). -/
inductive BootPhase where
  | reset | training | tryA | tryB | backoff | waitHost | booted
deriving DecidableEq, Repr, Inhabited

/-- SYS, the reset controller and the boot sequencer. -/
structure SysState where
  /-- Whole-hub reset in force (R89). -/
  inReset : Bool
  /-- Reset sources whose condition still holds (R91). -/
  sources : List ResetSource
  /-- VDDIO banks that have chosen their mode, `true` for 3.3 V (R79). -/
  vddio : SMap Bool
  straps : Straps
  phase : BootPhase
  /-- Next backoff delay in seconds (R100). -/
  delay : Nat
  /-- A LOAD waits for the pass to end (R103, R106). -/
  loadPending : Bool
  /-- The staged host image, by offset in the staging window (R102). -/
  staging : SMap Byte
  /-- DRAM training has passed since the last reset (R522). -/
  trained : Bool
  /-- The junction has reached 105 °C and not yet fallen below 100 °C (R125). -/
  warned : Bool
  /-- Announce interval in ms; 0 while the hub does not announce (R112). -/
  announceMs : Nat
  /-- The 3-byte identity flash answered at the last try (R95). -/
  jedec : Nat
  /-- Journal slots that the flash fails to give at boot step 6, as a mask (R255). -/
  slotFails : Nat
deriving DecidableEq, Repr, Inhabited

/-- One entry of the event log (R168 Table 7). -/
structure LogEntry where
  time : Word
  event : Nat
  forced : Bool
  prov : Bool
  seq : Nat
  lo : Word
  hi : Word
deriving DecidableEq, Repr, Inhabited

/-- A log entry of the core cycle in progress (R168), without its number yet: whether it enters the hub's own event-log
streams, and whether the twin is to be told (R593, R594). -/
structure Raised where
  entry : LogEntry
  fed : Bool
  told : Bool
deriving DecidableEq, Repr, Inhabited

/-- EVT: the log ring and what delivery remembers. -/
structure EvtState where
  /-- The ring of 1,024 entries, by slot (R168). -/
  log : SMap LogEntry
  /-- The entries of the core cycle in progress, as they are to be written. -/
  raised : List Raised
  /-- Vectors of each port that were pending and unmasked when delivery last looked (R166). -/
  liveA : Word
  liveB : Word
  /-- Log entries that the command has written and the twin is to be told (R593). -/
  toTwin : List (List Word)
deriving DecidableEq, Repr, Inhabited

/-- A serial transaction in progress on a host port (R132). -/
inductive Serial where
  | none | ignored | read (next : Nat) | write (next : Nat)
deriving DecidableEq, Repr, Inhabited

/-- What a host port keeps besides its page (R128, R140, R166, R172). -/
structure HpState where
  msixEnable : Bool
  msixFunctionMask : Bool
  perstLow : Bool
  /-- The link is in L0 (PCIe mode). -/
  inL0 : Bool
  serial : Serial
  /-- The words the last read returned, oldest first. -/
  lastRead : List Word
  /-- The completion of the last aperture read carried EP (R540). -/
  lastPoisoned : Bool
  /-- The flash operation in progress, as its OP code, 0 none, with the address and the buffer it began with (R173). -/
  flashOp : Nat
  flashAddr : Nat
  flashBuf : List Word
deriving DecidableEq, Repr, Inhabited

/-- A commit being checked, or accepted and waiting for its base-rate instant (R148 to R151). `whole` says that it
is a global one. -/
structure CommitState where
  whole : Bool
  /-- Bases of the pages of the commit. -/
  pages : List Nat
  /-- The snapshot of the shadows. -/
  snap : SMap Word
  /-- Pages whose shadow was written after the snapshot (R151). -/
  dirty : List Nat
deriving DecidableEq, Repr, Inhabited

/-- Levels on the input balls the hub watches. -/
structure Pins where
  driveMon : Bool
  testen : Bool
deriving DecidableEq, Repr, Inhabited

/-- What an excitation controller is doing (R206 to R211, R718). -/
inductive ExcPhase where
  | idle      -- regulating at the target, or off
  | ramp      -- level or enable ramp
  | disable   -- ramp to 0 of a disable
  | revRamp   -- reversal step 1
  | revOff    -- reversal step 2
  | revTurn   -- reversal step 3
  | revUp     -- reversal step 4
  | bbm       -- EXCb_REV set, waiting BBM before the ramp
  | turnLate  -- a recorded toggle follows BBM after a disable ramp
  | fault     -- latched
deriving DecidableEq, Repr, Inhabited

/-- The excitation controller of one bank. -/
structure ExcState where
  phase : ExcPhase
  /-- Ramp ends, in 2⁻¹⁶ of the LEVEL unit. -/
  fromQ : Int
  toQ : Int
  /-- When the phase began. -/
  t0 : Tm
  /-- Reversal step 3 toggles EXCb_REV (false for a change between modes 1 and 2, R208). -/
  toggles : Bool
  /-- A toggle recorded during a disable ramp (R718). -/
  late : Bool
  /-- A fault clear waits for the next base-rate instant (R206). -/
  clearReq : Bool
  /-- End of the last excitation change interval (R210). -/
  changeEnd : Option Tm
  /-- What the sense lines last read (R202). -/
  volt : Int
  isense : Int
  /-- EXCb_DRV in mV (R203), since when it has stood at 4.5 V out of regulation (R205), and since when the controller has
  been limiting (R204). -/
  drv : Int
  satAt : Option Tm
  limAt : Option Tm
deriving DecidableEq, Repr, Inhabited

/-- A run of presence measurements (R187): inside or outside, and how many in a row. -/
structure PresRun where
  inside : Bool
  n : Nat
deriving DecidableEq, Repr, Inhabited

/-- A break interval in modulator decisions (R195). -/
structure BreakSpan where
  first : Int
  last : Option Int
deriving DecidableEq, Repr, Inhabited

/-- AFE: what a bank's front end keeps besides its page. Lists are by position 0 to 15. -/
structure AfeState where
  exc : ExcState
  runs : SMap PresRun
  /-- Channels without presence by the window (R187) and by the excitation (R188), as masks. -/
  lostWin : Nat
  lostExc : Nat
  breaks : SMap (List BreakSpan)
  /-- Consecutive decisions out of range of a whole channel, and in range of a broken one (R193, R194), and how many of
  the 96 decisions to come the detectors have been told already. -/
  brk : SMap Nat
  told : Nat
  /-- Common mode of each channel in µV, as last measured. -/
  cm : SMap Int
  /-- Filtered level of each of the four guards, in 2⁻¹⁶ µV (R199). -/
  guards : SMap Int
  /-- A TEDS scan is running, or a memory read of the device with this identity (R214, R217). -/
  tedsScanning : Bool
  tedsReading : Option Nat
  /-- EXCb_DRV as the active member last sent it (R212). -/
  drvFromTwin : Int
deriving DecidableEq, Repr, Inhabited

/-- A coefficient set or a point of a table (R228 Table 1). An empty point is no entry. -/
structure CalPoint where
  offset : Int
  gain : Nat
  sq : Int
  temp : Int
deriving DecidableEq, Repr, Inhabited

/-- The round of one bank (R242 to R250). `step` is the step of R244 Table 3, 0 between cycles. -/
structure RoundState where
  step : Nat
  pos : Nat
  /-- Position of the cycle before, when there was one (R243). -/
  prev : Option Nat
  /-- Grid index of the last step instant of the cycle. -/
  sRef : Int
  /-- The points of the running calibration have been measured. -/
  measured : Bool
  /-- Results met in the cycle, by number (R248 Table 4). -/
  met : List Nat
  /-- Grid index from which the next cycle may start. -/
  nextAt : Int
  /-- Blend in progress: samples blended, sum of (spare − own), void. -/
  blendN : Nat
  blendSum : Int
  blendVoid : Bool
  /-- Values the running cycle started with (R242): L, M, SPACING. -/
  cycL : Nat
  cycM : Nat
  cycSpacing : Nat
  /-- The own converter's new point of this cycle (R248 result 5). -/
  ownPoint : Option CalPoint
  /-- The spare feeds the position (steps 5 to 7, and parked). -/
  spareFeeds : Bool
  /-- The bank waits to be parked, an UNPARK waits for its step instant, or runs (R248, R250). -/
  parkWait : Bool
  unparkReq : Bool
  unparking : Bool
deriving DecidableEq, Repr, Inhabited

/-- CNV: the converters of one bank. -/
structure CnvState where
  /-- Decisions of each converter's front, newest first, at most 476 (R226). -/
  fronts : SMap (List Dec)
  /-- Bank temperature readings of the last second, newest first (R235). -/
  temps : List Int
  /-- Corrected value of each converter at the last base-rate instant, in 1/256 LSB, and its O flag. -/
  last : SMap (Int × Bool)
  /-- Gain code of the spare's last calibration (R239). -/
  spareGain : Nat
  /-- Grid index at which the fronts were last cleared (R227). -/
  cleared : Option Int
  /-- The words of the last base sample that the loops take (R378), and the positions whose S comes from lost
  presence or a break (R640). -/
  base : List Word
  lost : Nat
  round : RoundState
deriving DecidableEq, Repr, Inhabited

/-- CAL: the point tables and the journal store. Table key: 8 × converter index + gain code. -/
structure CalState where
  tables : SMap (List CalPoint)
  /-- A store waits for its base-rate instant, and the tables as the running store took them (R256 step 1). -/
  storeReq : Bool
  storing : Option (SMap (List CalPoint))
  storeHeld : Bool
  /-- EV_CAL_STORE_FAIL with SEM_WAIT has been raised for the store that waits (R257). -/
  semTold : Bool
deriving DecidableEq, Repr, Inhabited

/-- One path of IEEE 1588 (R276). Means and lists are in 2⁻¹⁶ ns, newest first. -/
structure PathState where
  /-- mpd and o of the last 16 exchanges (R281). -/
  recent : List (Int × Int)
  /-- o of the last exchanges, at most 255 (R284 condition 4). -/
  offsets : List Int
  /-- The Sync awaiting its Follow_Up: sequence, t2, correction. -/
  sync : Option (BitVec 16 × Tm × Int)
  /-- t1, t2 and C_s of the last Sync, complete. -/
  t12 : Option (Tm × Tm × Int)
  /-- Sequence number and departure (t3) of the last Delay_Req. -/
  t3 : Option (BitVec 16 × Tm)
  /-- When the last Sync was complete (R275), and when the last full exchange was (R276). -/
  syncAt : Option Tm
  doneAt : Option Tm
  /-- Readmission time of R293, in sync-interval counts of 2⁻⁷ s. -/
  readmit : Nat
  /-- o_hold of R292. -/
  oHold : Int
  /-- d(p) at the start of the holdover (R295). -/
  dHold : Int
  /-- R_TLV of the last Follow_Up of a syntonized sender, and when (R274). -/
  tlv : Option (Int × Tm)
  /-- The last Follow_Up reported holdover (R303). -/
  upHold : Bool
  /-- Ratios ρ − 1 measured over the last second, newest first, with their times (R272). -/
  rhos : List (Tm × Int)
  /-- Origin times and counter values of the last 16 Syncs on port M (R274). -/
  origins : List (Tm × Tm)
  available : Bool
deriving DecidableEq, Repr, Inhabited

/-- TIM. -/
structure TimState where
  /-- The counter: 64 bits of ns and 16 of fraction (R265). -/
  counter : BitVec 80
  /-- What one tick leaves below the fraction, in 2⁻⁴¹ of a unit. -/
  sub : Nat
  /-- The counter runs (from the end of boot, R99 step 8). -/
  running : Bool
  /-- The sum of the steps of R285 so far, in units of the counter. -/
  steps : Int
  /-- Anchor of the grid in force and index of the last base-rate instant (R299). -/
  anchor : Int
  k : Int
  /-- The grid in force is anchored to the sync epoch. -/
  onEpoch : Bool
  /-- Anchor of a re-anchoring that waits for its instant (R36). -/
  reanchor : Option Int
  /-- The sync epoch in force (R297). -/
  epoch : BitVec 64
  /-- Time has been declared lost since the last base-rate instant (R289, R590). -/
  lostNow : Bool
  paths : SMap PathState
  /-- Counter rate R of the syntonization source and servo correction c, as (value − 1) × 2⁴¹ and c × 2⁴¹. -/
  rate : Int
  servo : Int
  /-- The integral of the servo: the sum of o, in 2⁻¹⁶ ns, times its interval in 2⁻⁷ s (R287). -/
  integ : Int
  /-- The modulator word W in force, with its 32-bit fraction, and the phase steering in it in 10⁻⁹ (R86, R282, R301). -/
  word : Int
  steer : Int
  /-- The last Announce accepted on port M, and when (R268, R304). -/
  gm : Option (PtpAnnounceMsg × Tm)
  /-- Holdover: R_h and D of R290 and when syntonization was lost. -/
  holdRate : Int
  holdDrift : Int
  lostSyn : Option Tm
  /-- (time, R) at the evaluations of the last hour, newest first (R290). -/
  rates : List (Tm × Int)
  /-- Qualification time in 2⁻⁷ s (R292). -/
  qual : Nat
  /-- Path accepted by the host (R294) or under R295. -/
  acceptPath : Option Nat
  acceptNow : Bool
  singleQual : Nat
  holdSince : Option Tm
  /-- Sequence number of the messages the hub originates. -/
  seq : BitVec 16
  /-- Squares of the phase residuals of the last second (count, sum), for GRID_PHASE.RMS. -/
  phaseN : Nat
  phaseSq : Nat
  probes : SMap (List Int)
  /-- Condition 5 of R284 has been reported. -/
  asymTold : Bool
deriving DecidableEq, Repr, Inhabited

/-- A piece of a rod's trajectory since the last evaluation (R335): a movement along the line through
`p0` at `t0` with velocity `vn / vd`, a jump of a source event, or a restart by a load. -/
inductive RodSeg where
  | slide (ta : Tm) (pa pb p0 : Int) (t0 : Tm) (vn : Int) (vd : Nat)
  | jump (t : Tm) (pa pb : Int)
  | load (t : Tm) (p : Int) (dir : Int)
deriving DecidableEq, Repr, Inhabited

/-- A rod (R311 to R325). Positions are in 2⁻¹⁶ units; the velocity is `vn / vd` position units per time
unit, from position `pos` at time `te` on. -/
structure RodState where
  pos : Int
  te : Tm
  vn : Int
  vd : Nat
  /-- Position set by the last edge or load of a COUNT or QUAD rod (R324). -/
  edgePos : Int
  /-- The rod may not move behind this position in its direction of travel (R313). -/
  held : Option Int
  stopped : Bool
  /-- Stopped at an end of the range: only a load moves the rod again (R308). -/
  sat : Bool
  doubt : Bool
  /-- Direction of travel: 1 forward, -1 backward, 0 none yet. -/
  dir : Int
  /-- Last edge intervals or mains periods since the rod last stopped, newest first. -/
  ivals : List Nat
  /-- How many of the intervals of a QUAD rod were timed since it last reversed (R314). -/
  run : Nat
  /-- Time of the last source event, since the rod was last reset. -/
  lastEvent : Option Tm
  /-- The last transition of a QUAD rod, not yet moved on: its time, whether on INA, and its direction. -/
  qwait : Option (Tm × Bool × Int)
  /-- Direction of the last transition of a QUAD rod, 0 none. -/
  qdir : Int
  /-- Open passage of a GATE rod, `true` forward, and the unpaired leading edges, oldest first (R317). -/
  passage : Option Bool
  waiting : List Tm
  /-- Freshness grade of R323 Table 2. -/
  grade : Nat
  /-- Host load requested for the next instant (R316). -/
  loadReq : Bool
  /-- On a member that follows: the index edge that has loaded the rod since the last instant (R316, R330). -/
  loadAt : Option Tm
  /-- The load at `evalPos` has counted as its backward crossing (R336). -/
  past : Bool
  segs : List RodSeg
  /-- Position and time that the trajectory has reached. -/
  evalPos : Int
  evalT : Tm
deriving DecidableEq, Repr, Inhabited

/-- A conditioned digital input (R327 to R329). -/
structure InputState where
  level : Bool
  /-- Accepted edges, newest first: time and level (R423). -/
  hist : List (Tm × Bool)
  lastEdge : Option Tm
  activeSince : Option Tm
deriving DecidableEq, Repr, Inhabited

/-- ABC. -/
structure AbcState where
  rods : SMap RodState
  inputs : SMap InputState
  /-- Exposure windows open now, by camera, and the last closed ones: camera, opened, closed (R342). -/
  exposures : SMap (Tm × Option Tm)
  /-- The beads enabled since the last instant while their rod stood exactly at their position, and when (R334). -/
  exact_ : SMap Tm
  /-- The trigger occurrences since the last evaluation: source, selection and time (R423, R437). -/
  trigs : List (Nat × Nat × Tm)
deriving DecidableEq, Repr, Inhabited

/-- A value in 1/256 LSB and its tag byte (R352, R371). -/
structure Sample where
  v : Int
  tags : BitVec 8
deriving DecidableEq, Repr, Inhabited

/-- State of one biquad section (R352): two inputs and two outputs back. -/
structure BqState where
  x1 : Int
  x2 : Int
  w1 : Int
  w2 : Int
deriving DecidableEq, Repr, Inhabited

/-- A cross-fade in progress (R362), from bank `src` to `dst` from slot `start` on; `len` is 0 until the
fade starts and takes XFADE_LEN. -/
structure Fade where
  src : Nat
  dst : Nat
  start : Int
  len : Nat
deriving DecidableEq, Repr, Inhabited

/-- A threshold run (R374): toward entry or exit, its length and the instant of its first word. -/
structure ThrRun where
  n : Nat
  k0 : Int
deriving DecidableEq, Repr, Inhabited

/-- FLT: one filter group. -/
structure FltState where
  /-- Base samples newest first, 16 channels each; beyond the list the history is 0 with W (R369). -/
  hist : List (List Sample)
  fade : Option Fade
  /-- Sync reset due at the next instant, or at the first instant at or after each time (R367). -/
  syncNow : Bool
  syncAt : List Tm
  /-- Grid index of the last sync reset, and whether the fronts were cleared at it. -/
  resetAt : Option Int
  /-- Biquad sections, key 32 × bank + 2 × position + section. -/
  bq : SMap BqState
  /-- Tag bytes of the biquads' inputs, newest first, 16 each, since the last sync reset and at most 65,535; older ones
  are W alone (R369, R371). -/
  bqTags : List (List (BitVec 8))
  /-- Sync resets whose last slot with W is still to come: that slot without the tail of the biquads, the source,
  whether the fronts were cleared, and G(k_r) in ns (R370, R382). -/
  warm : List (Int × Nat × Bool × Nat)
  /-- Threshold runs, key 2 × position + level. -/
  runs : SMap ThrRun
  /-- THR_STATE as each word that changed it left it, newest first: grid index of the word and state (R423). -/
  levels : List (Int × Nat)
  /-- Base index of the last sample that entered with T. -/
  lastT : Option Int
  /-- The last word was affected by a saturated stage, and EV_FLT_FAULT told so (R382). -/
  satTold : Bool
deriving DecidableEq, Repr, Inhabited

/-- Accumulators of one channel in one window (R392 to R395). -/
structure TalAcc where
  n : Nat
  x : Nat
  mn : Int
  mx : Int
  sum : Int
  sumSq : Nat
  orTags : BitVec 8
  full : Bool
  restart : Bool
  cross1 : Nat
  cross2 : Nat
  hist : SMap Nat
  /-- The counters of `hist` that were read with an uncorrectable error (R491 Table 3). -/
  histBad : List Nat
  /-- Grid index from which the channel's words count (R388, R390). -/
  since : Int
  /-- EXCL, HIST_EN, H_LO and H_SHIFT as they hold for these words: a change of one restarts the accumulators (R390). -/
  excl : Nat
  histOn : Bool
  hLo : Int
  hShift : Nat
  /-- The channel has emitted its first word at or after the close (R389). -/
  done : Bool
deriving DecidableEq, Repr, Inhabited

/-- One window of a set (R388). -/
structure TalWindow where
  kOpen : Int
  kClose : Option Int
  openNs : Nat
  closeNs : Nat
  prov : Bool
  hold : Bool
  disc : Bool
  accs : SMap TalAcc
deriving DecidableEq, Repr, Inhabited

/-- Something that reaches a channel's rainflow state at a grid instant (R400, R401, R402). -/
inductive RfOp where
  | snap (id : Nat) | clear | setup (en : Bool) (lo : Int) (shift hyst : Nat)
  /-- EXCL changes (R384). -/
  | exclude (mask : Nat)
deriving DecidableEq, Repr, Inhabited

/-- Rainflow state of one channel (R396, R397). -/
structure RfState where
  /-- RF_EN, RF_LO, RF_SHIFT, RF_HYST and EXCL as they hold for the words that arrive now (R384, R402). -/
  en : Bool
  lo : Int
  shift : Nat
  hyst : Nat
  excl : Nat
  cls : Option Nat
  cur : Nat
  dir : Int
  /-- Residue, newest first. -/
  stack : List Nat
  cycles : Nat
  periodNs : Nat
  poison : Bool
  ops : List (Int × RfOp)
deriving DecidableEq, Repr, Inhabited

/-- A rainflow export being taken (R400, R403). -/
structure RfExport where
  id : Nat
  k : Int
  ns : Nat
  set : Nat
  host : Bool
  clr : Bool
  prov : Bool
  openNs : Nat
  chans : List Nat
  /-- The entries of the channels so far, with the words that were read with an uncorrectable error. -/
  done : SMap (List Word × List Nat)
deriving DecidableEq, Repr, Inhabited

/-- TAL. -/
structure TalState where
  windows : SMap (List TalWindow)
  rf : SMap RfState
  exports : List RfExport
  nextId : Nat
  winSeq : SMap Nat
  rfSeq : Nat
  pmSeq : SMap Nat
  pmOpenNs : SMap Nat
  /-- Persistence exports and clears due at the next instant: unit masks. -/
  pmSnap : Nat
  rfSnapDue : Bool
  rfClearDue : Bool
deriving DecidableEq, Repr, Inhabited

/-- An occurrence for a capture unit (R423 to R426): time, source, and the qualifier its term had. -/
structure Occ where
  t : Tm
  src : Nat
  qual : Nat
  qsel : Nat
deriving DecidableEq, Repr, Inhabited

/-- The capture in progress of a unit. -/
structure CapRun where
  seq : Nat
  jt : Int
  a : Nat
  b : Nat
  stream : Bool
  t : Tm
  src : Nat
  merged : List Nat
  /-- Write number of slot j_t − A. -/
  w0 : Nat
  /-- Slots of the body written so far. -/
  slots : Nat
  /-- Words of the persistence map's channel that a stream-through capture has passed (R406). -/
  mapWords : List Word
  hold : Bool
  disc : Bool
  poison : Bool
  prov : Bool
deriving DecidableEq, Repr, Inhabited

/-- CAP: one capture unit. -/
structure CapState where
  occs : List Occ
  tArm : Tm
  armReq : Bool
  trigReq : Bool
  startReq : Bool
  /-- Grid index from which a run is to start once the slots of the run before it are written. -/
  startAt : Option Int
  /-- Last slot of a run that has been stopped, while slots up to it are still to be written. -/
  runEnd : Option Int
  /-- The last request was DISARM while CAPTURING or in REARM (R429). -/
  disarm : Bool
  cap : Option CapRun
  /-- The slot whose writing ends REARM, less one, and the t_arm that follows (R433). -/
  rearmSlot : Int
  rearmArm : Tm
  /-- Ignored occurrences since the last record: count, first 16 (time, reason, source), event raised. -/
  nIgn : Nat
  ign : List (Nat × Nat × Nat)
  ignTold : Bool
  pausedSince : Bool
  seq : Nat
  /-- Closed captures held by KEEP: write numbers, first and one past the last. -/
  keep : List (Nat × Nat)
  /-- The mark, which a write to MARK_LO sets (R441). -/
  mark : Nat
deriving DecidableEq, Repr, Inhabited

/-- The fields of a profile as a segment took them when it opened (R473). -/
structure Prof where
  method : Nat
  verify : Bool
  mapOn : Bool
  fslots : Nat
  fkib : Nat
  segKib : Nat
  /-- The first 256 map bytes of the profile. -/
  map : List Nat
deriving DecidableEq, Repr, Inhabited

/-- A compression job (R466): what is coded or decoded, and for whom. -/
structure Job where
  host : Bool
  decode : Bool
  prof : Prof
  nch : Nat
  /-- Carry: stream, block, number of the segment in the block and offset of its input in words. -/
  stream : Nat
  bseq : Nat
  seg : Nat
  start : Nat
  flushed : Bool
  input : List Word
  /-- Times run after MEMERR (R494). -/
  tries : Nat
  /-- Host: the job registers as GO took them (R481). -/
  src : Nat
  len : Nat
  dst : Nat
  space : Nat
  limit : Nat
deriving DecidableEq, Repr, Inhabited

/-- CMP: one engine. -/
structure CmpState where
  ready : List Job
  running : Option Job
  /-- Carry jobs held after a failure, oldest first (R469). -/
  held : List Job
deriving DecidableEq, Repr, Inhabited

/-- Where a kept block stands in the spill region (R500). -/
inductive SpillPart where
  | reserve | pool | gap | forward
deriving DecidableEq, Repr, Inhabited

/-- A block that Carry keeps (R491, R507). The payload is in words: the input while it waits for an engine. -/
structure Block where
  stream : Nat
  srcCode : Nat
  method : Nat
  gen : Nat
  source : Nat
  bseq : Nat
  span : Nat
  first : Nat
  /-- TIME in 64 bits. -/
  firstNs : Nat
  /-- The same instant, and the closing of the block, in ns without the steps of R285 (R50); `closedNs` of a block kept of a
  source is its number in the order of acceptance (R572 Table 6). -/
  firstLife : Nat
  closedNs : Nat
  count : Nat
  mask : Nat
  flags : Nat
  payload : List Word
  d : Nat
  tagOr : Nat
  session : Word
  part : SpillPart
  /-- Segments still to be coded, and those coded, by number. -/
  segsLeft : Nat
  coded : SMap (List Word)
  /-- Bytes of spill that the block takes. -/
  size : Nat
  /-- A gap block that may still be extended (R507). -/
  growing : Bool
  /-- The whole block as it was received, for a block of a source; empty for the hub's own. -/
  raw : List Word
deriving DecidableEq, Repr, Inhabited

/-- An output slot that a filter stream has taken (R486, R491, R506): the time of the slot in ns, the same
without the steps of R285, the time flags, and the threshold entries, as position and level. -/
structure SlotIn where
  ns : Nat
  life : Nat
  prov : Bool
  hold : Bool
  cross : List (Nat × Nat)
deriving DecidableEq, Repr, Inhabited

/-- A run of summary blocks or a gap block as its gap record tells it (R508 Table 6). -/
structure LossRun where
  bseq : Nat
  span : Nat
  first : Nat
  count : Nat
  ns : Nat
deriving DecidableEq, Repr, Inhabited

/-- CRY: one stream. -/
structure StreamState where
  /-- Input of the open block and of what follows it, oldest first, with the slots of a filter stream. -/
  buf : List Word
  slots : List SlotIn
  /-- Early ends: slots or words of `buf` at which a block ends, and whether the next carries DISC (R490). -/
  ends : List (Nat × Bool)
  /-- When the open block of a record stream opened, in ns, and its flags. -/
  openNs : Nat
  openLife : Nat
  prov : Bool
  hold : Bool
  disc : Bool
  /-- Words of `buf` that carry P in a sample word, or were read with an uncorrectable error (R491 Table 3). -/
  bads : List Nat
  /-- SHED has held while the open block was open (R505). -/
  shed : Bool
  /-- Words of `buf` at which a flush cut a segment (R472), and the profiles that a commit has replaced,
  each with the words taken by then (R473). -/
  cuts : List Nat
  profs : List (Nat × Nat × Prof)
  /-- Number of the next block to be built and index of its first slot or word. -/
  nextBseq : Nat
  nextFirst : Nat
  /-- Unacknowledged blocks, oldest first. -/
  blocks : List Block
  /-- Number from which blocks are sent again, while a replay is in progress (R497). -/
  replayAt : Option Nat
  /-- Counter when A last advanced, a block was first sent, or a replay began (R497). -/
  ackT : Tm
  /-- Grid index of the commit that enabled the stream (R486). -/
  startK : Int
  /-- Levels that the active has announced, with the block they begin at (R590 Table 4). -/
  levelDue : List (Nat × Nat)
  /-- Instant from which the outage is measured until the first acknowledgement after a takeover (R616). -/
  outageFrom : Option Nat
  /-- The input of the second that ends now: when, and how many words (R503). -/
  fed : List (Tm × Nat)
  sumRun : Option LossRun
deriving DecidableEq, Repr, Inhabited

/-- A word of queue memory (R510): what its cells hold, the length of the block at a block's first word and 0 at the
others, and whether its parity bit does not fit the cells. -/
structure QWord where
  w : Word
  len : Nat
  bad : Bool
deriving DecidableEq, Repr, Inhabited

/-- What goes on when a pop that waits has its word (R133, R513, R575): nothing; a serial burst, with its next address
and the words still to be read; or a manager's request, with its TAG and the words read so far besides. -/
inductive ReadRest where
  | single
  | serial (next left : Nat)
  | far (mgr tag next left : Nat) (got : List Word)
deriving DecidableEq, Repr, Inhabited

/-- A pop that waits: its port, and what follows it. -/
structure PopWait where
  port : HostPort
  rest : ReadRest
deriving DecidableEq, Repr, Inhabited

/-- A queue (R510 to R515). -/
structure QueueState where
  /-- Words, oldest first. -/
  words : List QWord
  /-- Words still to be popped of the block begun. -/
  left : Nat
  /-- Pops that wait, in their order. -/
  waiting : List PopWait
deriving DecidableEq, Repr, Inhabited

/-- What a manager expects of a source's stream, and what it keeps of it (R498, R499). -/
structure SourceState where
  source : Nat
  stream : Nat
  session : Word
  gen : Nat
  next : Nat
  nextFirst : Nat
  lastTime : Word
  pcp : Nat
  /-- The last block was a gap block whose header cannot tell its span (R508): any later number follows it. -/
  loose : Bool
  /-- Lowest number not acknowledged upward or by the host, next to send on, and a replay in progress. -/
  acked : Nat
  sent : Nat
  replayAt : Option Nat
  blocks : List Block
  /-- When `acked` last advanced, a block was first sent on, or a replay began (R497). -/
  ackT : Tm
deriving DecidableEq, Repr, Inhabited

/-- A block that arrives in fragments (R560): its bytes so far. -/
structure Partial where
  source : Nat
  stream : Nat
  bseq : Nat
  total : Nat
  bytes : List Byte
deriving DecidableEq, Repr, Inhabited

/-- CRY. -/
structure CryState where
  streams : SMap StreamState
  queues : SMap QueueState
  sources : List SourceState
  partials : List Partial
  /-- CLOSE_ALL waits for the next grid instant (R490). -/
  closeAll : Bool
  gapFullTold : Bool
  backpressTold : Bool
  /-- Blocks of sources accepted so far (R572 Table 6). -/
  accepts : Nat
  hostAckLo : Word
  hostReplayLo : Word
deriving DecidableEq, Repr, Inhabited


/-- MEM. -/
structure MemState where
  /-- Wrong symbols of the devices, key 36 × codeword + symbol: the bits that differ from what was
  written (R526, R528). -/
  errs : SMap Byte
  /-- K_c, K_0, K_1 and K_2, once drawn (R532). -/
  masks : List Nat
  /-- Codeword that the scrub reads next, and whether the pass is an immediate one (R530). -/
  pos : Nat
  immediate : Bool
  ceInPass : Nat
  /-- When EV_MEM_CE was last raised (R546). -/
  lastCe : Option Tm
deriving DecidableEq, Repr, Inhabited

/-- A port of NET. -/
structure PortState where
  los : Bool
  fault : Bool
  /-- When the port went down, while frames are not yet turned (R568). -/
  downAt : Option Tm
  /-- Since when every probe has been answered, while the port is not yet usable (R570). -/
  restoring : Option Tm
  probeOut : Option Tm
  missed : Nat
  /-- When the last BEACON with TURNED = 0 arrived, and its HOPS + 1 (R558). -/
  beacon : Option (Tm × Nat)
  invalidated : Bool
  /-- The port has been down since it was last usable: it must be restored (R570). -/
  fell : Bool
deriving DecidableEq, Repr, Inhabited

/-- A join table entry (R562, R581). -/
structure JtEntry where
  uid : BitVec 64
  digest : Word
  valid : Bool
deriving DecidableEq, Repr, Inhabited

/-- A joined member as its manager sees it (R565, R566). -/
structure Member where
  uid : BitVec 64
  lastHb : Tm
  active : Bool
  standby : Bool
  port : NetPort
  /-- Port of the last HEARTBEAT with TURNED = 0 (R558). -/
  via : NetPort
  session : Word
deriving DecidableEq, Repr, Inhabited

/-- The mailbox request outstanding (R574, R576). -/
structure RaReq where
  dst : Nat
  tag : Nat
  sends : Nat
  sentAt : Tm
  portB : Bool
  write : Bool
  count : Nat
  addr : Nat
  data : List Word
deriving DecidableEq, Repr, Inhabited

/-- NET. -/
structure NetState where
  ports : SMap PortState
  jt : SMap JtEntry
  /-- Members joined now, by join table entry. -/
  members : SMap Member
  /-- Last TAG for each address. -/
  tags : SMap Nat
  ra : Option RaReq
  /-- TAG, RESULT and read data of the last request executed from each manager (R575). -/
  done : SMap (Nat × Nat × List Word)
  /-- SRC, TYPE and SEQ of the last 64 broadcasts taken (R556), newest first. -/
  taken : List (Nat × Nat × Nat)
  /-- ORIGIN and TIME of the last 64 triggers acted on (R572), newest first. -/
  trigs : List (Nat × Nat)
  /-- Next SEQ of each TYPE (R554 Table 2). -/
  seqs : SMap Nat
  /-- Source MAC last received from each address on M (R553). -/
  macs : SMap Nat
  lastReply : Option Tm
  /-- UIDs announced without an entry, and when each was last told (R563). -/
  unknown : List (BitVec 64 × Tm)
  /-- The hub has joined before: the next grant is a rejoin (R567). -/
  joinedBefore : Bool
  /-- A commit has been taken into force since reset (R561). -/
  committed : Bool
deriving DecidableEq, Repr, Inhabited

/-- A check value of the active or of the standby that waits for its counterpart (R596, R597). -/
structure TwCheckRec where
  control : Bool
  stream : Nat
  n : Nat
  crc : Word
  at_ : Tm
deriving DecidableEq, Repr, Inhabited

/-- A self-check in progress (R601 to R604). -/
structure SelfRun where
  analog : Bool
  chan : Nat
  /-- The analog check (R602): it has begun, the readings it has taken, the sum of (spare − own) over those that count,
  whether it is void, and whether it is over. -/
  on : Bool
  taken : Nat
  sum : Int
  void : Bool
  ended : Bool
  /-- D exceeds ROUND_TOL (R602). -/
  fails : Bool
  /-- Own result, 1 pass and 2 fail, when it came, and the twin's. -/
  own : Nat
  ownAt : Tm
  twin : Nat
  test : Nat
  /-- The run came from CTRL.SELFCHECK (R620). -/
  host : Bool
deriving DecidableEq, Repr, Inhabited

/-- A handover (R611). -/
structure Handover where
  kH : Int
  /-- This member yields. -/
  yields : Bool
  acked : Bool
  /-- The yielding member goes on to FAILED (R604). -/
  toFailed : Bool
  cause : Nat
  /-- G(K_H) has come: the taking member feeds, the yielding one follows. -/
  past : Bool
  /-- The member yields without a handover: at instant K_H it lets the shared drive go (R610). -/
  alone : Bool
deriving DecidableEq, Repr, Inhabited

/-- An analog cross-check of one channel (R600). -/
structure XWin where
  sum : Int
  n : Nat
  bad : Bool
  fails : Nat
deriving DecidableEq, Repr, Inhabited

/-- TWN. -/
structure TwnState where
  /-- DRIVE_EN is high: the shared drive is on. -/
  drive : Bool
  twinJoined : Bool
  twinImage : Word
  twinUsable : Word
  /-- Last TWHB_IN edge, and the level of TWHB_OUT. -/
  twhbEdge : Option Tm
  twhbOut : Bool
  /-- When the last twin frame arrived. -/
  lastFrame : Option Tm
  /-- The next base instant to be processed from TW_SAMPLE. -/
  nextK : Int
  /-- Blocks with a verdict OK: stream and BSEQ (R598). -/
  okd : List (Nat × Nat)
  /-- Sending is held back after a mismatch (R599). -/
  heldBack : Bool
  /-- The member's own values, and the entries received, that wait for their counterpart. -/
  own : List TwCheckRec
  got : List TwCheckRec
  /-- Bytes of the control interval in progress (R596). -/
  ctlBytes : SMap (List Byte)
  selfRun : Option SelfRun
  handover : Option Handover
  /-- X blend samples still to come (R611 step 5, R614). -/
  blendLeft : Nat
  cross : SMap XWin
  /-- The member's own samples of the last instants while it follows, newest first: grid index, the banks in an
  excitation change interval, and the samples by bank (R600, R614). -/
  ownVals : List (Int × Nat × List (List Sample))
  /-- Forwarded samples that wait for the member's own of the same instant (R600, R611 step 5). -/
  fwdVals : List (Int × List (List Sample))
  /-- The time flags that the twin forwarded last (R593). -/
  prov : Bool
  hold : Bool
  /-- Copy data by phase and offset (R618): key 2⁴⁰ × PHASE + OFFSET. -/
  store : SMap Byte
  /-- TW_SAMPLE and TW_EVENT frames stored from K_S + 1 on. -/
  kept : List TwSampleMsg
  keptEvents : List (Int × List TwEntry)
  /-- TW_EVENT entries that wait for their instant. -/
  events : List (Int × TwEntry)
  /-- Bytes copied. -/
  copied : Nat
  /-- Since when the manager has been departed with the twin in STANDBY (R610). -/
  netLost : Option Tm
  /-- When the shared drive was last enabled (R68). -/
  driveAt : Tm
  /-- The member is to become active at the next base instant, with the cause of Table 13 (R606). -/
  activeDue : Option Nat
  /-- Loop updates are held from this instant until the first period that begins at or after it (R612). -/
  holdLoops : Option Int
  lags : List (Tm × Nat)
deriving DecidableEq, Repr, Inhabited

/-- What a loop's control law carries from period to period (R631, R641, R642). Terms are in 2⁻¹⁶. -/
structure CtlLaw where
  i : Int
  d : Int
  m : Int
  yPrev : Int
  ffLast : Int
  /-- Consecutive skips, and consecutive periods with an implausible residual. -/
  skips : Nat
  implRun : Nat
  /-- Feedback and code in force of the last automatic periods that were not skipped, newest first, at most 255 (R642). -/
  seen : List (Int × Nat)
  /-- The next automatic period presets the integrator (R635, R638). -/
  preset : Bool
deriving DecidableEq, Repr, Inhabited

/-- A request for automatic or manual (R635, R637): its source as R650 Table 7 codes it, and the bead. -/
structure CtlReq where
  auto : Bool
  src : Nat
  bead : Nat
deriving DecidableEq, Repr, Inhabited

/-- One loop of CTL. -/
structure CtlState where
  law : CtlLaw
  /-- Code and mode that take effect at the next update instant; `none` holds. -/
  next : Option (Nat × Bool)
  /-- Requests in their order (R345). -/
  reqs : List CtlReq
  /-- Consecutive overruns (R644). -/
  overruns : Nat
  /-- The law before the period in progress, to discard its changes, and that the period was computed. -/
  saved : CtlLaw
  computed : Bool
  /-- Grid index at which the last period began. -/
  lastK : Option Int
  /-- Grid index of the re-anchoring instant, at which a period begins (R630). -/
  restart : Option Int
deriving DecidableEq, Repr, Inhabited

/-- A width fade (R662). -/
structure WFade where
  w0 : Nat
  w1 : Nat
  t0 : Tm
  /-- FADE.MS at the flip. -/
  ms : Nat
deriving DecidableEq, Repr, Inhabited

/-- MRK. -/
structure MrkState where
  /-- A refresh of the chain is in progress, and it is a diagnostic one. -/
  running : Bool
  diag : Bool
  /-- The refresh before it was a diagnostic one: its OPEN flags return now (R667). -/
  wasDiag : Bool
  /-- Width in force of each entry, as the last refresh sent it. -/
  widths : SMap Nat
  fades : SMap WFade
  /-- Source of the pending flip (R675 Table 7). -/
  flipSrc : Nat
  /-- When the due diagnostic refresh became due, and that DEFERRED was told. -/
  dueAt : Tm
  told : Bool
  /-- Consecutive refreshes with a failure. -/
  failRun : Nat
  /-- Duty of BSTG in 2⁻¹⁶, and that V_SET starts at the next V_MEAS (R670). -/
  duty : Nat
  vsetDue : Bool
  /-- Accepted level of MKSYNC: that of its last edge (R590, R660). -/
  syncLevel : Bool
  /-- A register has been sent that the next latch returns. -/
  sentOnce : Bool
  /-- The channel words of each board that the refresh in progress sends, and those that the one before it sent (R658). -/
  sending : List (List Nat)
  sent : List (List Nat)
  /-- When the refresh in progress began, and the period of the diagnosis (R657, R667). -/
  startAt : Tm
  diagFrom : Tm
  /-- Since when V_meas has stood more than 5 % above V_MAX (R666). -/
  overAt : Option Tm
deriving DecidableEq, Repr, Inhabited

/-- DBG: the boundary cells as last loaded, and the test in progress with its target and group. -/
structure DbgState where
  cells : List Bool
  target : Nat
  group : Nat
  /-- Banks whose spare the reference test has measured (R690), as a mask. -/
  measured : Nat
  /-- DRIVE_EN is driven high for EXTEST or CLAMP (R683), and when it was last so. -/
  testDrive : Bool
  testAt : Tm
deriving DecidableEq, Repr, Inhabited

/-- A hub frame as sent or forwarded (R552, R553); `vid` and `etherType` are those in force as it leaves. -/
structure Frame where
  type : Nat
  pcp : Nat
  dmac : BitVec 48
  hdr : Hdr
  body : List Byte
  vid : Nat := 0
  etherType : Nat := 0
deriving DecidableEq, Repr, Inhabited

/-- The rate TLV of a Follow_Up (R273 Table 2). -/
structure RateTlv where
  tlvType : Nat
  length : Nat
  oui : BitVec 24
  subType : Nat
  /-- (R − 1) × 2⁴¹. -/
  rate : Int
  flags : BitVec 16
deriving DecidableEq, Repr, Inhabited

/-- A PTP message on the wire (R268 Table 1, R552). -/
structure PtpFrame where
  dmac : BitVec 48
  tpid : Nat
  pcp : Nat
  vid : Nat
  etherType : Nat
  version : Nat
  minor : Nat
  domain : Nat
  type : Nat
  seq : BitVec 16
  correction : Int
  stamp : Tm
  tlv : Option RateTlv
  gm : Option PtpAnnounceMsg
deriving DecidableEq, Repr, Inhabited

/-- The on-chip lockstep state that a resynchronisation copies (R618 phase 2). -/
structure LockState where
  flt : SMap FltState
  abc : AbcState
  tal : TalState
  cap : SMap CapState
  ctl : SMap CtlState
  cry : CryState
deriving DecidableEq, Repr, Inhabited

/-- What a resynchronisation phase has copied (R618): the words of the configuration by address,
SESSION, the snapshot instant K_S and the on-chip state as it stands after it. -/
structure ResyncCopy where
  kS : Int
  words : List (BitVec 24 × Word)
  session : Word
  state : Option LockState
deriving DecidableEq, Repr, Inhabited

/-- What the hub has put out, oldest first: the model's own record, not a register of the spec. -/
inductive Out where
  | msix (p : HostPort) (vector : Nat)
  | frame (p : NetPort) (f : Frame)
  | ptp (p : NetPort) (f : PtpFrame)
  | serial (p : HostPort) (bytes : List Byte)
  | flash (op : Nat) (addr : Nat)
  | pulse (output : Nat) (width : Nat)
  | chain (registers : List (List Nat)) (oneshot : Bool)
  /-- The active's share of a resynchronisation phase (R618), whose layout on the wire is not given. -/
  | copy (phase : Nat) (c : ResyncCopy)
deriving DecidableEq, Repr, Inhabited

end Sys2Proof.Machine
end

