-- ==== Sys2Proof/Syntax.lean ====
section
/-!
DEFINITION. The commands of the DK6256: one constructor per row of spec/opcode_table.json, in the
order of the table, with the row's operands. A register access names its port and its word; a frame
names its port, its header and its body; an event inside the hub names the channel, bank or unit it
happens to, and what the outside world brings to it (a reading, a level, a time). Indices are `Fin`,
so that no command names a channel, a bank or a stream the hub does not have.
-/
namespace Sys2Proof

/-- The commands. The comment of each constructor names the rule of its row. -/
inductive Instr where
  /-- R89: POWER_ON_RESET. -/
  | powerOnReset (c : PowerCause)
  /-- R79: VDDIO_MODE_CHOICE. -/
  | vddioModeChoice (bank : Fin 4) (mv : Nat)
  /-- R90: PIN_RESET. -/
  | pinReset (ns : Nat)
  /-- R88: REFCLK_LOSS. -/
  | refclkLoss (ns : Nat)
  /-- R89: THERMAL_RESET. -/
  | thermalReset (t8 : Int)
  /-- R125: THERM_WARN. -/
  | thermWarn (t8 : Int)
  /-- R120: SOFTWARE_RESET. -/
  | softwareReset (p : HostPort) (w : Word)
  /-- R89: WATCHDOG_RESET. -/
  | watchdogReset (ms : Nat)
  /-- R91: RESET_RELEASE. -/
  | resetRelease (straps : Straps)
  /-- R522: DRAM_TRAINING. -/
  | dramTraining (r : TrainResult)
  /-- R98: IMAGE_TRY. -/
  | imageTry (img : ImageSel) (jedec : BitVec 24) (reads : ImageReads)
  /-- R100: BACKOFF_WAIT_END. -/
  | backoffWaitEnd
  /-- R104: CLAIM. -/
  | claim (p : HostPort)
  /-- R105: CLAIM_RELEASE. -/
  | claimRelease (p : HostPort)
  /-- R106: LOAD. -/
  | load (p : HostPort)
  /-- R124: SYS_ADDR_WRITE. -/
  | sysAddrWrite (p : HostPort) (w : Word)
  /-- R112: ANNOUNCE_TIMER. -/
  | announceTimer
  /-- R113: GRANT. -/
  | grant (np : NetPort) (h : Hdr) (g : GrantMsg)
  /-- R146: REGISTER_WRITE. -/
  | registerWrite (p : HostPort) (a : BitVec 24) (w : Word) (be : BitVec 4)
  /-- R148: PAGE_COMMIT. -/
  | pageCommit (p : HostPort) (page : BitVec 12)
  /-- R148: GLOBAL_COMMIT. -/
  | globalCommit (p : HostPort)
  /-- R152: COMMIT_CHECKS_END. -/
  | commitChecksEnd
  /-- R144: DISCARD. -/
  | discard (p : HostPort) (page : BitVec 12)
  /-- R167: EVENT_FORCE. -/
  | eventForce (p : HostPort) (page : BitVec 12) (w : Word)
  /-- R157: EVENT_CLEAR. -/
  | eventClear (p : HostPort) (page : BitVec 12) (w : Word)
  /-- R139: EVENT_NOTICE_REPEAT. -/
  | eventNoticeRepeat (p : HostPort)
  /-- R158: SEM_CLAIM. -/
  | semClaim (p : HostPort) (n : Fin 64) (tag : BitVec 8)
  /-- R159: SEM_RELEASE. -/
  | semRelease (p : HostPort) (n : Fin 64)
  /-- R159: SEM_TAG_WRITE. -/
  | semTagWrite (p : HostPort) (n : Fin 64) (tag : BitVec 8)
  /-- R162: SEM_FORCE. -/
  | semForce (p : HostPort) (w : Word)
  /-- R137: NETBIND. -/
  | netbind (p : HostPort) (bind : Bool)
  /-- R140: PORT_RESET. -/
  | portReset (p : HostPort)
  /-- R140: PCIE_LINK_TRAINED. -/
  | pcieLinkTrained (p : HostPort) (speed : Fin 4) (width : Fin 3) (msixEnable : Bool) (functionMask : Bool)
  /-- R132: SERIAL_READ. -/
  | serialRead (p : HostPort) (a : BitVec 24) (n : Nat)
  /-- R134: SERIAL_WRITE. -/
  | serialWrite (p : HostPort) (a : BitVec 24) (ws : List Word)
  /-- R132: SERIAL_BAD_COMMAND. -/
  | serialBadCommand (p : HostPort) (cmd : Byte)
  /-- R135: SERIAL_CS_RISE. -/
  | serialCsRise (p : HostPort) (ph : SerialPhase)
  /-- R540: APERTURE_READ. -/
  | apertureRead (p : HostPort) (a : BitVec 34) (n : Nat) (errs : List (Nat × Byte))
  /-- R540: APERTURE_WRITE. -/
  | apertureWrite (p : HostPort) (a : BitVec 34) (bs : List Byte) (errs : List (Nat × Byte))
  /-- R173: FLASH_READ. -/
  | flashRead (p : HostPort)
  /-- R173: FLASH_PROGRAM. -/
  | flashProgram (p : HostPort)
  /-- R173: FLASH_ERASE4K. -/
  | flashErase4k (p : HostPort)
  /-- R173: FLASH_ERASE64K. -/
  | flashErase64k (p : HostPort)
  /-- R172: FLASH_OPERATION_DONE. -/
  | flashOperationDone (p : HostPort) (o : FlashOutcome)
  /-- R174: FLASH_TIMEOUT. -/
  | flashTimeout (p : HostPort)
  /-- R299: BASE_RATE_INSTANT. -/
  | baseRateInstant (e : BaseEnv)
  /-- R186: PRESENCE_MEASUREMENT. -/
  | presenceMeasurement (bank : Fin 16) (uv : List Int)
  /-- R187: PRESENCE_LOSS. -/
  | presenceLoss (bank : Fin 16)
  /-- R187: PRESENCE_REGAIN. -/
  | presenceRegain (bank : Fin 16)
  /-- R193: BREAK_DECLARED. -/
  | breakDeclared (bank : Fin 16) (pins : List (Nat × List PinDec))
  /-- R194: WHOLE_DECLARED. -/
  | wholeDeclared (bank : Fin 16) (pins : List (Nat × List PinDec))
  /-- R204: EXC_LIMIT_START. -/
  | excLimitStart (bank : Fin 16)
  /-- R204: EXC_FAULT_LIMIT. -/
  | excFaultLimit (bank : Fin 16)
  /-- R205: EXC_FAULT_SAT. -/
  | excFaultSat (bank : Fin 16)
  /-- R206: EXC_CLR_FAULT. -/
  | excClrFault (p : HostPort) (bank : Fin 16)
  /-- R208: EXC_RAMP_END. -/
  | excRampEnd (bank : Fin 16)
  /-- R209: EXC_BBM_END. -/
  | excBbmEnd (bank : Fin 16)
  /-- R214: TEDS_SCAN. -/
  | tedsScan (p : HostPort) (bank : Fin 16)
  /-- R214: TEDS_SCAN_PERIOD. -/
  | tedsScanPeriod (bank : Fin 16)
  /-- R214: TEDS_SCAN_DONE. -/
  | tedsScanDone (bank : Fin 16) (ids : List (BitVec 56)) (crcs : List Byte)
  /-- R216: TEDS_SHORT. -/
  | tedsShort (bank : Fin 16)
  /-- R217: TEDS_READ. -/
  | tedsRead (p : HostPort) (bank : Fin 16)
  /-- R217: TEDS_READ_DONE. -/
  | tedsReadDone (bank : Fin 16) (ws : List Word) (crc : Word)
  /-- R235: BANK_TEMPERATURE_READ. -/
  | bankTemperatureRead (ts : List Int)
  /-- R232: CALIBRATION_POINT. -/
  | calibrationPoint (bank : Fin 16) (r : CalReadings)
  /-- R246: ROUND_BLEND_START. -/
  | roundBlendStart (bank : Fin 16)
  /-- R247: ROUND_BLEND_END. -/
  | roundBlendEnd (bank : Fin 16)
  /-- R250: UNPARK. -/
  | unpark (p : HostPort) (bank : Fin 16)
  /-- R256: STORE. -/
  | store (p : HostPort)
  /-- R256: JOURNAL_PERIOD_EXPIRY. -/
  | journalPeriodExpiry
  /-- R257: JOURNAL_STORE_END. -/
  | journalStoreEnd (e : StoreEnd)
  /-- R257: JOURNAL_SEM_WAIT. -/
  | journalSemWait
  /-- R262: PT_WRITE. -/
  | ptWrite (p : HostPort)
  /-- R262: PT_READ. -/
  | ptRead (p : HostPort)
  /-- R267: SNAP. -/
  | snap (p : HostPort)
  /-- R280: PTP_SYNC. -/
  | ptpSync (np : NetPort) (m : PtpMsg) (residence : Int)
  /-- R273: PTP_FOLLOW_UP. -/
  | ptpFollowUp (np : NetPort) (m : PtpMsg)
  /-- R279: PTP_DELAY_REQ. -/
  | ptpDelayReq (np : NetPort) (m : PtpMsg) (residence : Int)
  /-- R280: PTP_DELAY_RESP. -/
  | ptpDelayResp (np : NetPort) (m : PtpMsg)
  /-- R268: PTP_ANNOUNCE. -/
  | ptpAnnounce (np : NetPort) (m : PtpAnnounceMsg)
  /-- R268: SYNC_INTERVAL_TIMER. -/
  | syncIntervalTimer (d : SyncDue)
  /-- R292: TIME_EVALUATION. -/
  | timeEvaluation (e : TimeEnv)
  /-- R294: ACCEPT_N. -/
  | acceptN (p : HostPort)
  /-- R294: ACCEPT_S. -/
  | acceptS (p : HostPort)
  /-- R294: ACCEPT_M. -/
  | acceptM (p : HostPort)
  /-- R327: INPUT_EDGE. -/
  | inputEdge (i : Fin 20) (level : Bool) (t : Tm)
  /-- R329: INPUT_STUCK. -/
  | inputStuck (i : Fin 20)
  /-- R319: MAINS_CROSSING. -/
  | mainsCrossing (t : Tm)
  /-- R320: ROD_UPDATE. -/
  | rodUpdate (np : NetPort) (h : Hdr) (m : RodMsg)
  /-- R321: ROD_BROADCAST_TIMER. -/
  | rodBroadcastTimer
  /-- R323: ROD_FRESHNESS_CHANGE. -/
  | rodFreshnessChange (rod : Fin 8)
  /-- R316: ROD_LOAD. -/
  | rodLoad (p : HostPort) (w : Word)
  /-- R333: BEAD_ENABLE. -/
  | beadEnable (p : HostPort) (bead : Fin 1024) (w : Word)
  /-- R332: BEAD_DISABLE. -/
  | beadDisable (p : HostPort) (bead : Fin 1024) (w : Word)
  /-- R332: BEAD_WORD_WRITE. -/
  | beadWordWrite (p : HostPort) (bead : Fin 1024) (word : Fin 4) (w : Word)
  /-- R367: SYNC_NOW. -/
  | syncNow (p : HostPort) (g : Fin 16)
  /-- R368: SYNC_EDGE. -/
  | syncEdge (t : Tm)
  /-- R365: XF_CANCEL. -/
  | xfCancel (p : HostPort) (g : Fin 16)
  /-- R359: LOAD_DEFAULT. -/
  | loadDefault (p : HostPort) (g : Fin 16) (w : Word)
  /-- R358: COEF_RAM_WRITE. -/
  | coefRamWrite (p : HostPort) (g : Fin 16) (i : BitVec 14) (w : Word)
  /-- R358: BANK_SHAPE_WRITE. -/
  | bankShapeWrite (p : HostPort) (g : Fin 16) (bank : Fin 3) (w : Word)
  /-- R362: FADE_END. -/
  | fadeEnd (g : Fin 16)
  /-- R389: WINDOW_RECORD. -/
  | windowRecord (set : Fin 16)
  /-- R400: RF_SNAP. -/
  | rfSnap (p : HostPort)
  /-- R401: RF_CLEAR. -/
  | rfClear (p : HostPort)
  /-- R407: PM_SNAP. -/
  | pmSnap (p : HostPort) (mask : BitVec 16)
  /-- R407: PM_CLEAR. -/
  | pmClear (p : HostPort) (mask : BitVec 16)
  /-- R435: RING_RESUME. -/
  | ringResume (u : Fin 16)
  /-- R429: ARM. -/
  | arm (p : HostPort) (u : Fin 16)
  /-- R429: DISARM. -/
  | disarm (p : HostPort) (u : Fin 16)
  /-- R424: TRIG. -/
  | trig (p : HostPort) (u : Fin 16)
  /-- R434: RELEASE. -/
  | release (p : HostPort) (u : Fin 16)
  /-- R419: START. -/
  | start (p : HostPort) (u : Fin 16)
  /-- R419: STOP. -/
  | stop (p : HostPort) (u : Fin 16)
  /-- R441: REWIND. -/
  | rewind (p : HostPort) (u : Fin 16)
  /-- R441: MARK_HERE. -/
  | markHere (p : HostPort) (u : Fin 16)
  /-- R441: MARK_WRITE. -/
  | markWrite (p : HostPort) (u : Fin 16) (w : Word)
  /-- R440: RD_DATA_READ. -/
  | rdDataRead (p : HostPort) (u : Fin 16)
  /-- R427: TRIGGER. -/
  | trigger (np : NetPort) (h : Hdr) (m : TriggerMsg)
  /-- R481: GO. -/
  | go (p : HostPort) (e : Fin 4)
  /-- R474: CANCEL. -/
  | cancel (p : HostPort) (e : Fin 4)
  /-- R472: FLUSH. -/
  | flush (p : HostPort) (e : Fin 4)
  /-- R467: JOB_START. -/
  | jobStart (e : Fin 4)
  /-- R475: JOB_END. -/
  | jobEnd (e : Fin 4) (f : JobFault)
  /-- R469: HELD_JOB_RETRY. -/
  | heldJobRetry (e : Fin 4)
  /-- R488: BLOCK_CLOSE. -/
  | blockClose (st : Fin 64)
  /-- R489: BLOCK_AGE_EXPIRY. -/
  | blockAgeExpiry (st : Fin 64)
  /-- R490: CLOSE_ALL. -/
  | closeAll (p : HostPort)
  /-- R504: OUTAGE_OVER. -/
  | outageOver (st : Fin 64)
  /-- R495: BLOCK_SEND. -/
  | blockSend (st : Fin 64)
  /-- R495: ACK. -/
  | ack (np : NetPort) (h : Hdr) (es : List AckEntry)
  /-- R497: ACK_TIMEOUT. -/
  | ackTimeout (st : Fin 64)
  /-- R496: HOST_ACK. -/
  | hostAck (p : HostPort) (w : Word)
  /-- R497: HOST_REPLAY. -/
  | hostReplay (p : HostPort) (w : Word)
  /-- R498: BLOCK. -/
  | block (np : NetPort) (h : Hdr) (m : BlockMsg)
  /-- R511: QUEUE_PUSH. -/
  | queuePush (x : QueuePut)
  /-- R513: QPOP. -/
  | qpop (p : HostPort) (q : Fin 16) (flips : BitVec 33)
  /-- R513: QUEUE_POP_STALL. -/
  | queuePopStall (q : Fin 16)
  /-- R530: SCRUB_NOW. -/
  | scrubNow (p : HostPort)
  /-- R531: SCRUB_READ. -/
  | scrubRead (errs : List (Nat × Byte))
  /-- R523: MR4_POLL. -/
  | mr4Poll (m0 : BitVec 3) (m1 : BitVec 3)
  /-- R523: DQS_TRACKING. -/
  | dqsTracking
  /-- R568: LINK_DOWN. -/
  | linkDown (np : NetPort) (c : DownCause)
  /-- R568: PROBE_LOSS. -/
  | probeLoss (np : NetPort)
  /-- R568: RING_TURN_START. -/
  | ringTurnStart (np : NetPort)
  /-- R550: LINK_UP. -/
  | linkUp (np : NetPort) (modId : Option Byte)
  /-- R570: RESTORE_EXPIRY. -/
  | restoreExpiry (np : NetPort)
  /-- R563: ANNOUNCE. -/
  | announce (np : NetPort) (h : Hdr) (m : AnnounceMsg)
  /-- R565: HEARTBEAT. -/
  | heartbeat (np : NetPort) (h : Hdr) (m : HeartbeatMsg)
  /-- R566: HB_REPLY. -/
  | hbReply (np : NetPort) (h : Hdr) (m : HbReplyMsg)
  /-- R565: HEARTBEAT_TIMER. -/
  | heartbeatTimer
  /-- R565: PROBE_TIMER. -/
  | probeTimer
  /-- R565: PROBE. -/
  | probe (np : NetPort) (t1 : BitVec 64)
  /-- R565: PROBE_REPLY. -/
  | probeReply (np : NetPort) (t1 : BitVec 64) (t2 : BitVec 64) (t3 : BitVec 64)
  /-- R559: BEACON_TIMER. -/
  | beaconTimer
  /-- R559: BEACON. -/
  | beacon (np : NetPort) (h : Hdr) (mgr : BitVec 64)
  /-- R569: RING_STATE. -/
  | ringState (np : NetPort) (h : Hdr) (restored : Bool) (failedS : Bool)
  /-- R566: MEMBER_DEPARTED. -/
  | memberDeparted (entry : Fin 512)
  /-- R566: MANAGER_DEPARTED. -/
  | managerDeparted
  /-- R574: RA_GO. -/
  | raGo (p : HostPort)
  /-- R576: RA_TIMEOUT. -/
  | raTimeout
  /-- R575: REG_REQ. -/
  | regReq (np : NetPort) (h : Hdr) (m : RegReqMsg)
  /-- R576: REG_RESP. -/
  | regResp (np : NetPort) (h : Hdr) (m : RegRespMsg)
  /-- R577: EVENT_NOTICE. -/
  | eventNotice (np : NetPort) (h : Hdr) (portB : Bool) (pend : Word)
  /-- R582: JT_WRITE. -/
  | jtWrite (p : HostPort)
  /-- R580: JT_READ. -/
  | jtRead (p : HostPort)
  /-- R580: CLR. -/
  | clr (p : HostPort) (np : NetPort)
  /-- R593: TW_SAMPLE. -/
  | twSample (m : TwSampleMsg)
  /-- R592: TW_EVENT. -/
  | twEvent (k : Int) (es : List TwEntry)
  /-- R597: TW_CHECK. -/
  | twCheck (es : List TwCheckMsg)
  /-- R598: TW_VERDICT. -/
  | twVerdict (es : List (TwCheckMsg × Fin 3))
  /-- R603: TW_ROLE. -/
  | twRole (m : TwRoleMsg)
  /-- R618: TW_COPY. -/
  | twCopy (phase : Fin 6) (off : Nat) (bs : List Byte)
  /-- R597: VERDICT_MISSING. -/
  | verdictMissing
  /-- R600: XCHK_WINDOW_END. -/
  | xchkWindowEnd (ch : Fin 256)
  /-- R604: SELFCHECK_DONE. -/
  | selfcheckDone (r : SelfResult)
  /-- R603: SELFCHECK_RESULT_TIMEOUT. -/
  | selfcheckResultTimeout
  /-- R589: TWHB_TOGGLE. -/
  | twhbToggle
  /-- R589: TWHB_SILENT. -/
  | twhbSilent (silent : Bool)
  /-- R68: DRIVE_MON_CHANGE. -/
  | driveMonChange (level : Bool)
  /-- R610: YIELD. -/
  | yield (p : HostPort)
  /-- R585: REJOIN_TWIN. -/
  | rejoinTwin (p : HostPort)
  /-- R620: SELFCHECK. -/
  | selfcheck (p : HostPort)
  /-- R607: MGR_CMD_GRANT. -/
  | mgrCmdGrant (p : HostPort) (addr : BitVec 16)
  /-- R607: MGR_CMD_CONFIRM. -/
  | mgrCmdConfirm (p : HostPort) (addr : BitVec 16)
  /-- R607: MGR_CMD_YIELD. -/
  | mgrCmdYield (p : HostPort) (addr : BitVec 16)
  /-- R606: BECOME_ACTIVE_AT_START. -/
  | becomeActiveAtStart
  /-- R610: NETYIELD_EXPIRY. -/
  | netyieldExpiry
  /-- R611: HANDOVER_INSTANT. -/
  | handoverInstant
  /-- R611: HANDOVER_BLEND_END. -/
  | handoverBlendEnd
  /-- R614: TW_SAMPLE_LOSS. -/
  | twSampleLoss (c : Fin 3)
  /-- R615: UNCOMPARED_BLOCK_RELEASE. -/
  | uncomparedBlockRelease (st : Fin 64)
  /-- R618: RESYNC_PHASE_END. -/
  | resyncPhaseEnd (c : Machine.ResyncCopy)
  /-- R631: LOOP_PERIOD_START. -/
  | loopPeriodStart (x : LoopStart)
  /-- R644: LOOP_DEADLINE. -/
  | loopDeadline (n : Fin 16)
  /-- R635: AUTO. -/
  | auto (p : HostPort) (n : Fin 16)
  /-- R637: MANUAL. -/
  | manual (p : HostPort) (n : Fin 16)
  /-- R643: CTL_CLR_FAULT. -/
  | ctlClrFault (p : HostPort) (n : Fin 16)
  /-- R634: SP_WRITE. -/
  | spWrite (p : HostPort) (n : Fin 16) (w : Word)
  /-- R634: MAN_OUT_WRITE. -/
  | manOutWrite (p : HostPort) (n : Fin 16) (w : Word)
  /-- R657: REFRESH_START. -/
  | refreshStart
  /-- R658: LATCH. -/
  | latch (bs : List BoardRet)
  /-- R660: FLIP. -/
  | flip (p : HostPort)
  /-- R660: MKSYNC_EDGE. -/
  | mksyncEdge (level : Bool) (t : Tm)
  /-- R672: DIAG_NOW. -/
  | diagNow (p : HostPort)
  /-- R667: DIAG_PERIOD_EXPIRY. -/
  | diagPeriodExpiry
  /-- R668: DIAG_DEFERRED. -/
  | diagDeferred
  /-- R662: MARKER_FADE_END. -/
  | markerFadeEnd
  /-- R659: FRAME_MEMORY_WRITE. -/
  | frameMemoryWrite (p : HostPort) (i : Fin 2048) (w : Word)
  /-- R664: BOOST_CYCLE. -/
  | boostCycle (mv : Nat)
  /-- R666: BOOST_TRIP. -/
  | boostTrip (mv : Nat)
  /-- R666: MRK_CLR_FAULT. -/
  | mrkClrFault (p : HostPort)
  /-- R676: TESTEN_CHANGE. -/
  | testenChange (level : Bool)
  /-- R678: TEST_LOGIC_RESET. -/
  | testLogicReset
  /-- R680: IDCODE. -/
  | idcode
  /-- R679: SAMPLE_PRELOAD. -/
  | samplePreload (cells : List Bool)
  /-- R683: EXTEST. -/
  | extest (cells : List Bool)
  /-- R679: CLAMP. -/
  | clamp
  /-- R679: HIGHZ. -/
  | highz
  /-- R679: BYPASS. -/
  | bypass (code : Byte)
  /-- R688: BIST_QUEUE_SRAM. -/
  | bistQueueSram (p : HostPort)
  /-- R688: BIST_COEFFICIENT_RAM. -/
  | bistCoefficientRam (p : HostPort) (g : Fin 16)
  /-- R688: BIST_BEAD_TABLE. -/
  | bistBeadTable (p : HostPort)
  /-- R688: BIST_FRAME_MEMORY. -/
  | bistFrameMemory (p : HostPort)
  /-- R690: BIST_CONVERTER_REFERENCES. -/
  | bistConverterReferences (p : HostPort)
  /-- R691: BIST_END. -/
  | bistEnd (e : BistEnd) (devs : List (Int × Int))
  /-- R91: RESET_SOURCE_END. -/
  | resetSourceEnd (src : ResetSource)
  /-- R140: PERST_RELEASE. -/
  | perstRelease (p : HostPort)
  /-- R558: HOP_COUNT_EXPIRY. -/
  | hopCountExpiry (np : NetPort)
  /-- R590: TW_ROLE_TIMER. -/
  | twRoleTimer
  /-- R268: PTP_ANNOUNCE_TIMER. -/
  | ptpAnnounceTimer (np : NetPort)
  /-- R554: UNADMITTED_FRAME. -/
  | unadmittedFrame (np : NetPort) (b : BadFrame)
deriving DecidableEq, Repr

end Sys2Proof
end

