-- ==== Sys2Proof/Config.lean ====
section
/-!
DEFINITION. What one hub fixes for itself and what the spec leaves open. A constant with a body is a
figure of the spec. An `opaque` constant has no body: nothing can prove a value of it, so a statement
that holds here holds for every value the hub may give (each is named in the assumption log). The
free values that are drawn anew take a number from `State.free`, which the machine advances.
-/
namespace Sys2Proof.Config

/-- SYS.UID: the 64-bit die identity, unique per part (R117). Not fixed by the spec. -/
opaque uid : BitVec 64

/-- Vilnal's JEDEC manufacturer identity in DBG.IDCODE (R680). Not given by the spec. -/
opaque jedecId : Nat

/-- What the boundary cells hold for the celled ball at a row and a column: a level, or nothing driven. Vilnal supplies the order
of the cells (R681); the spec does not give it. -/
opaque cellLevel : Nat → Nat → List Bool → Option Bool

/-- Vilnal's PCIe vendor identity (R128). Not given by the spec. -/
opaque pcieVendor : BitVec 16

/-- The PCIe endpoint of a host port: Device ID and class code (R128 Table 1). -/
def pcieDevice : BitVec 16 := 0x6256
/-- Class code. -/
def pcieClass : BitVec 24 := 0x118000
/-- Largest payload of a packet, in bytes. -/
def pcieMaxPayload : Nat := 256
/-- Largest read request, in bytes. -/
def pcieMaxRead : Nat := 512
/-- Lanes of the link, and the transfers a second that it trains to, fastest first, in millions. -/
def pcieLanes : Nat := 2
/-- Link speeds. -/
def pcieSpeeds : List Nat := [8000, 5000, 2500]

/-- Free value `n`: a word the spec does not fix. -/
opaque freeWord : Nat → Word

/-- Free value `n`: a bit the spec does not fix (R90: a pulse of 100 ns to 1 µs may or may not reset the hub). -/
opaque freeBit : Nat → Bool

/-- The proportional gain of the servo of R287 for a code of LOOP_BW, in 2⁻³² of 2⁻⁴¹ per 2⁻¹⁶ ns. The spec gives the
loop's kind, bandwidth and limits, not its gains. -/
opaque servoP : Nat → Int

/-- The integral gain of the servo of R287 for a code of LOOP_BW, likewise, per 2⁻⁷ s. -/
opaque servoI : Nat → Int

/-- Vilnal's IEEE OUI (R273 Table 2). Not given by the spec. -/
opaque oui : BitVec 24

/-- The hub's own PTP clock identity and quality, which a manager announces before it has a grandmaster (R268). -/
opaque ownClock : PtpAnnounceMsg

/-- The nominal word of the modulator PLL (R85), 125.829 12, with its 32-bit fraction. -/
def modNominal : Int := 540431955284

/-- The coefficient of the guard filter of R199, in 2⁻³²: 1 − e^(−2π × 1 kHz ÷ 256 kHz), a single pole with its corner at
1 kHz at the base rate (DEDUCED, log 17). -/
def guardPole : Int := 104131247

/-- The excitation loop of R203 over one base sample: EXCb_DRV in mV for the value before, the target and the quantity it
regulates. The spec gives its rate and crossover, not its law. -/
opaque excLoop : Int → Int → Int → Int

/-- The CRC of a TEDS memory page as the hub checks it (R213). The spec does not give it. -/
opaque tedsPageCrc : List Word → Word

/-- Tap `i` of the default FIR for decimation D (R359): the part's own design, not listed by the spec. -/
opaque firTap : Nat → Nat → Word

/-- The dictionary parse of R465, a fixed function of a frame's words that the spec does not give: for a frame
and a position, the distance and the length of the match taken there, if one is. A match that the frame does
not bear out is not taken. -/
opaque dictChoice : List Word → Nat → Option (Nat × Nat)

/-- Time units per nanosecond: the counter keeps a 16-bit fraction (R265). -/
def unitsPerNs : Nat := 0x10000

/-- One base-rate sample, 3,906.25 ns (R299), in units of 2⁻¹⁶ ns. -/
def baseUnits : Nat := 256000000

/-- One core cycle, 2.5 ns at rate 1 (R265), in units of 2⁻¹⁶ ns. -/
def coreUnits : Nat := 163840

/-- The address space of the boot flash, 16 MiB (R95). -/
def flashBytes : Nat := 0x1000000

/-- What a byte of the boot flash that nothing has written reads as: erased NOR (DESIGN CHOICE, log 6). -/
def flashBlank : Byte := 0xFF

/-- What a byte of the DRAM that nothing has written reads as (DESIGN CHOICE, log 5). -/
def dramBlank : Byte := 0

end Sys2Proof.Config
end

