-- ==== Sys2Proof/Machine/RegMap.lean ====
section
/-!
DEFINITION. The register map: every field of every register table of the spec (R117 to R124, R144,
R175 to R177, R219, R220, R260 to R262, R303, R304, R331, R346, R347, R379, R380, R413, R414, R444,
R445, R479, R480, R516 to R518, R543, R544, R580, R581, R620, R621, R647, R648, R672, R673, R692,
R693), one definition per field, and the fields of each page as a list. A field definition is both a
row of the table and the accessor's key: where it stands, its access type (Table 4 of R11), its
reset value and the range its table states (R146).
-/
namespace Sys2Proof.Machine

/-- The kinds of page of R141 Table 3; `COMMON` stands for the layout every page begins with (R143). -/
inductive PageKind where
  | COMMON | SYS | SEM | EVT | HP | TIM | ABC | AFE | CNV | FLT | TAL | CAP | CMP | CRY | MEM | NET
  | TWN | CTL | MRK | CAL | DBG
deriving DecidableEq, Repr

/-- The access types of R11 Table 4. -/
inductive Access where
  | rw | ro | w1c | wo | rws
deriving DecidableEq, Repr

/-- The range a register table states for a field (R146). -/
inductive FieldRange where
  | any
  | between (lo hi : Nat)
  | zeroOr (lo hi : Nat)
  | signed (lo hi : Int)
  | multiple (m : Nat)
deriving DecidableEq, Repr

/-- One field of a register table. Register `i` of an array stands at `off + stride * i` of its page;
the field occupies `width` bits from bit `lsb`. -/
structure Field where
  page : PageKind
  off : Nat
  stride : Nat
  count : Nat
  lsb : Nat
  width : Nat
  access : Access
  reset : Nat
  range : FieldRange
deriving DecidableEq, Repr


/-! Fields of the COMMON page. -/

def Reg.COMMON_ID_TYPE : Field := ⟨.COMMON, 0x0, 0, 1, 0, 8, .ro, 0x0, .any⟩
def Reg.COMMON_ID_INSTANCE : Field := ⟨.COMMON, 0x0, 0, 1, 8, 8, .ro, 0x0, .any⟩
def Reg.COMMON_ID_REV : Field := ⟨.COMMON, 0x0, 0, 1, 16, 8, .ro, 0x1, .any⟩
def Reg.COMMON_CTRL_COMMIT : Field := ⟨.COMMON, 0x4, 0, 1, 0, 1, .wo, 0x0, .any⟩
def Reg.COMMON_CTRL_DISCARD : Field := ⟨.COMMON, 0x4, 0, 1, 1, 1, .wo, 0x0, .any⟩
def Reg.COMMON_EVENT : Field := ⟨.COMMON, 0xC, 0, 1, 0, 32, .w1c, 0x0, .any⟩
def Reg.COMMON_EVENT_EN_EN : Field := ⟨.COMMON, 0x10, 0, 1, 0, 32, .rw, 0x0, .any⟩
def Reg.COMMON_EVENT_FORCE_FORCE : Field := ⟨.COMMON, 0x14, 0, 1, 0, 32, .wo, 0x0, .any⟩
def Reg.COMMON_ERRCODE_CAUSE : Field := ⟨.COMMON, 0x18, 0, 1, 0, 8, .ro, 0x0, .any⟩
def Reg.COMMON_ERRCODE_BLOCK : Field := ⟨.COMMON, 0x18, 0, 1, 8, 8, .ro, 0x0, .any⟩
def Reg.COMMON_ERRCODE_COUNT : Field := ⟨.COMMON, 0x18, 0, 1, 16, 8, .ro, 0x0, .any⟩
def Reg.COMMON_SHADOW_STATE_PENDING : Field := ⟨.COMMON, 0x1C, 0, 1, 0, 1, .ro, 0x0, .any⟩
def Reg.COMMON_SHADOW_STATE_CHECKING : Field := ⟨.COMMON, 0x1C, 0, 1, 1, 1, .ro, 0x0, .any⟩
def Reg.COMMON_SHADOW_STATE_REFUSED : Field := ⟨.COMMON, 0x1C, 0, 1, 2, 1, .ro, 0x0, .any⟩
def Reg.COMMON_SHADOW_STATE_LOCKED : Field := ⟨.COMMON, 0x1C, 0, 1, 3, 1, .ro, 0x0, .any⟩
def Reg.COMMON_SHADOW_STATE_COMMITS : Field := ⟨.COMMON, 0x1C, 0, 1, 16, 16, .ro, 0x0, .any⟩

/-- The fields of this page. -/
def fieldsCOMMON : List Field :=
  [Reg.COMMON_ID_TYPE, Reg.COMMON_ID_INSTANCE, Reg.COMMON_ID_REV, Reg.COMMON_CTRL_COMMIT,
   Reg.COMMON_CTRL_DISCARD, Reg.COMMON_EVENT, Reg.COMMON_EVENT_EN_EN,
   Reg.COMMON_EVENT_FORCE_FORCE, Reg.COMMON_ERRCODE_CAUSE, Reg.COMMON_ERRCODE_BLOCK,
   Reg.COMMON_ERRCODE_COUNT, Reg.COMMON_SHADOW_STATE_PENDING, Reg.COMMON_SHADOW_STATE_CHECKING,
   Reg.COMMON_SHADOW_STATE_REFUSED, Reg.COMMON_SHADOW_STATE_LOCKED,
   Reg.COMMON_SHADOW_STATE_COMMITS]

/-! Fields of the SYS page. -/

def Reg.SYS_UID_LO_UID : Field := ⟨.SYS, 0x100, 0, 1, 0, 32, .ro, 0x0, .any⟩
def Reg.SYS_UID_HI_UID : Field := ⟨.SYS, 0x104, 0, 1, 0, 32, .ro, 0x0, .any⟩
def Reg.SYS_STRAPS_ROLE : Field := ⟨.SYS, 0x108, 0, 1, 0, 1, .ro, 0x0, .any⟩
def Reg.SYS_STRAPS_PAIR : Field := ⟨.SYS, 0x108, 0, 1, 1, 1, .ro, 0x0, .any⟩
def Reg.SYS_STRAPS_TWIN : Field := ⟨.SYS, 0x108, 0, 1, 2, 1, .ro, 0x0, .any⟩
def Reg.SYS_STRAPS_BOOT : Field := ⟨.SYS, 0x108, 0, 1, 3, 2, .ro, 0x0, .any⟩
def Reg.SYS_STRAPS_HPA : Field := ⟨.SYS, 0x108, 0, 1, 5, 1, .ro, 0x0, .any⟩
def Reg.SYS_STRAPS_HPB : Field := ⟨.SYS, 0x108, 0, 1, 6, 1, .ro, 0x0, .any⟩
def Reg.SYS_STRAPS_VDDIO3V3 : Field := ⟨.SYS, 0x108, 0, 1, 8, 4, .ro, 0x0, .any⟩
def Reg.SYS_RST_CAUSE_POR : Field := ⟨.SYS, 0x10C, 0, 1, 0, 1, .w1c, 0x1, .any⟩
def Reg.SYS_RST_CAUSE_PIN : Field := ⟨.SYS, 0x10C, 0, 1, 1, 1, .w1c, 0x0, .any⟩
def Reg.SYS_RST_CAUSE_CLK : Field := ⟨.SYS, 0x10C, 0, 1, 2, 1, .w1c, 0x0, .any⟩
def Reg.SYS_RST_CAUSE_THERM : Field := ⟨.SYS, 0x10C, 0, 1, 3, 1, .w1c, 0x0, .any⟩
def Reg.SYS_RST_CAUSE_SW : Field := ⟨.SYS, 0x10C, 0, 1, 4, 1, .w1c, 0x0, .any⟩
def Reg.SYS_RST_CAUSE_WDT : Field := ⟨.SYS, 0x10C, 0, 1, 5, 1, .w1c, 0x0, .any⟩
def Reg.SYS_RESET_HUB : Field := ⟨.SYS, 0x110, 0, 1, 0, 1, .wo, 0x0, .any⟩
def Reg.SYS_RESET_KEY : Field := ⟨.SYS, 0x110, 0, 1, 16, 16, .wo, 0x0, .any⟩
def Reg.SYS_BOOT_STATUS_BOOTED : Field := ⟨.SYS, 0x114, 0, 1, 0, 1, .ro, 0x0, .any⟩
def Reg.SYS_BOOT_STATUS_SRC : Field := ⟨.SYS, 0x114, 0, 1, 1, 2, .ro, 0x0, .any⟩
def Reg.SYS_BOOT_STATUS_HOSTDISC : Field := ⟨.SYS, 0x114, 0, 1, 3, 1, .ro, 0x0, .any⟩
def Reg.SYS_BOOT_STATUS_OWNER : Field := ⟨.SYS, 0x114, 0, 1, 4, 2, .ro, 0x0, .any⟩
def Reg.SYS_BOOT_STATUS_STATE : Field := ⟨.SYS, 0x114, 0, 1, 6, 2, .ro, 0x0, .any⟩
def Reg.SYS_BOOT_STATUS_ERR_A : Field := ⟨.SYS, 0x114, 0, 1, 8, 4, .ro, 0x0, .any⟩
def Reg.SYS_BOOT_STATUS_ERR_B : Field := ⟨.SYS, 0x114, 0, 1, 12, 4, .ro, 0x0, .any⟩
def Reg.SYS_BOOT_STATUS_ERR_HOST : Field := ⟨.SYS, 0x114, 0, 1, 16, 4, .ro, 0x0, .any⟩
def Reg.SYS_BOOT_STATUS_PASSES : Field := ⟨.SYS, 0x114, 0, 1, 20, 12, .ro, 0x0, .any⟩
def Reg.SYS_BOOT_CTRL_CLAIM : Field := ⟨.SYS, 0x118, 0, 1, 0, 1, .rw, 0x0, .any⟩
def Reg.SYS_BOOT_CTRL_LOAD : Field := ⟨.SYS, 0x118, 0, 1, 1, 1, .wo, 0x0, .any⟩
def Reg.SYS_BOOT_LEN_LEN : Field := ⟨.SYS, 0x11C, 0, 1, 0, 23, .rw, 0x0, .between 0 0x400000⟩
def Reg.SYS_IMAGE_VER_VERSION : Field := ⟨.SYS, 0x120, 0, 1, 0, 32, .ro, 0x0, .any⟩
def Reg.SYS_CLK_STATUS_CORE_LOCK : Field := ⟨.SYS, 0x124, 0, 1, 0, 1, .ro, 0x0, .any⟩
def Reg.SYS_CLK_STATUS_MEM_LOCK : Field := ⟨.SYS, 0x124, 0, 1, 1, 1, .ro, 0x0, .any⟩
def Reg.SYS_CLK_STATUS_MOD_LOCK : Field := ⟨.SYS, 0x124, 0, 1, 2, 1, .ro, 0x0, .any⟩
def Reg.SYS_CLK_STATUS_MOD_DISC : Field := ⟨.SYS, 0x124, 0, 1, 3, 1, .ro, 0x0, .any⟩
def Reg.SYS_CLK_STATUS_SDS_LOCK : Field := ⟨.SYS, 0x124, 0, 1, 4, 4, .ro, 0x0, .any⟩
def Reg.SYS_CLK_STATUS_REF_PPM : Field := ⟨.SYS, 0x124, 0, 1, 16, 16, .ro, 0x0, .any⟩
def Reg.SYS_DIE_TEMP_TJ : Field := ⟨.SYS, 0x128, 0, 1, 0, 16, .ro, 0x0, .any⟩
def Reg.SYS_ADDR : Field := ⟨.SYS, 0x12C, 0, 1, 0, 16, .rw, 0x0, .any⟩
def Reg.SYS_ADDR_VALID : Field := ⟨.SYS, 0x12C, 0, 1, 16, 1, .ro, 0x0, .any⟩
def Reg.SYS_ADDR_TOP : Field := ⟨.SYS, 0x12C, 0, 1, 17, 1, .ro, 0x0, .any⟩
def Reg.SYS_JOIN_STATUS_JOINED : Field := ⟨.SYS, 0x130, 0, 1, 0, 1, .ro, 0x0, .any⟩
def Reg.SYS_JOIN_STATUS_DIGEST_MM : Field := ⟨.SYS, 0x130, 0, 1, 1, 1, .ro, 0x0, .any⟩
def Reg.SYS_JOIN_STATUS_PORT : Field := ⟨.SYS, 0x130, 0, 1, 2, 4, .ro, 0x0, .any⟩
def Reg.SYS_JOIN_STATUS_CONFLICTS : Field := ⟨.SYS, 0x130, 0, 1, 8, 8, .ro, 0x0, .any⟩
def Reg.SYS_JOIN_STATUS_ANNOUNCES : Field := ⟨.SYS, 0x130, 0, 1, 16, 16, .ro, 0x0, .any⟩

/-- The fields of this page. -/
def fieldsSYS : List Field :=
  [Reg.SYS_UID_LO_UID, Reg.SYS_UID_HI_UID, Reg.SYS_STRAPS_ROLE, Reg.SYS_STRAPS_PAIR,
   Reg.SYS_STRAPS_TWIN, Reg.SYS_STRAPS_BOOT, Reg.SYS_STRAPS_HPA, Reg.SYS_STRAPS_HPB,
   Reg.SYS_STRAPS_VDDIO3V3, Reg.SYS_RST_CAUSE_POR, Reg.SYS_RST_CAUSE_PIN, Reg.SYS_RST_CAUSE_CLK,
   Reg.SYS_RST_CAUSE_THERM, Reg.SYS_RST_CAUSE_SW, Reg.SYS_RST_CAUSE_WDT, Reg.SYS_RESET_HUB,
   Reg.SYS_RESET_KEY, Reg.SYS_BOOT_STATUS_BOOTED, Reg.SYS_BOOT_STATUS_SRC,
   Reg.SYS_BOOT_STATUS_HOSTDISC, Reg.SYS_BOOT_STATUS_OWNER, Reg.SYS_BOOT_STATUS_STATE,
   Reg.SYS_BOOT_STATUS_ERR_A, Reg.SYS_BOOT_STATUS_ERR_B, Reg.SYS_BOOT_STATUS_ERR_HOST,
   Reg.SYS_BOOT_STATUS_PASSES, Reg.SYS_BOOT_CTRL_CLAIM, Reg.SYS_BOOT_CTRL_LOAD,
   Reg.SYS_BOOT_LEN_LEN, Reg.SYS_IMAGE_VER_VERSION, Reg.SYS_CLK_STATUS_CORE_LOCK,
   Reg.SYS_CLK_STATUS_MEM_LOCK, Reg.SYS_CLK_STATUS_MOD_LOCK, Reg.SYS_CLK_STATUS_MOD_DISC,
   Reg.SYS_CLK_STATUS_SDS_LOCK, Reg.SYS_CLK_STATUS_REF_PPM, Reg.SYS_DIE_TEMP_TJ, Reg.SYS_ADDR,
   Reg.SYS_ADDR_VALID, Reg.SYS_ADDR_TOP]
  ++ [Reg.SYS_JOIN_STATUS_JOINED, Reg.SYS_JOIN_STATUS_DIGEST_MM, Reg.SYS_JOIN_STATUS_PORT,
   Reg.SYS_JOIN_STATUS_CONFLICTS, Reg.SYS_JOIN_STATUS_ANNOUNCES]

/-! Fields of the SEM page. -/

def Reg.SEM_NOTIFY_LO_NOTIFY : Field := ⟨.SEM, 0x200, 0, 1, 0, 32, .rw, 0x0, .any⟩
def Reg.SEM_NOTIFY_HI_NOTIFY : Field := ⟨.SEM, 0x204, 0, 1, 0, 32, .rw, 0x0, .any⟩
def Reg.SEM_FREED_LO_FREED : Field := ⟨.SEM, 0x208, 0, 1, 0, 32, .w1c, 0x0, .any⟩
def Reg.SEM_FREED_HI_FREED : Field := ⟨.SEM, 0x20C, 0, 1, 0, 32, .w1c, 0x0, .any⟩
def Reg.SEM_FORCE_INDEX : Field := ⟨.SEM, 0x210, 0, 1, 0, 6, .wo, 0x0, .any⟩
def Reg.SEM_FORCE_ALL : Field := ⟨.SEM, 0x210, 0, 1, 6, 1, .wo, 0x0, .any⟩
def Reg.SEM_FORCE_KEY : Field := ⟨.SEM, 0x210, 0, 1, 16, 16, .wo, 0x0, .any⟩
def Reg.SEM_LOCK_OWNER : Field := ⟨.SEM, 0x100, 4, 64, 0, 2, .ro, 0x0, .any⟩
def Reg.SEM_LOCK_CLAIM : Field := ⟨.SEM, 0x100, 4, 64, 2, 1, .wo, 0x0, .any⟩
def Reg.SEM_LOCK_RELEASE : Field := ⟨.SEM, 0x100, 4, 64, 3, 1, .wo, 0x0, .any⟩
def Reg.SEM_LOCK_TAG : Field := ⟨.SEM, 0x100, 4, 64, 8, 8, .rw, 0x0, .any⟩

/-- The fields of this page. -/
def fieldsSEM : List Field :=
  [Reg.SEM_NOTIFY_LO_NOTIFY, Reg.SEM_NOTIFY_HI_NOTIFY, Reg.SEM_FREED_LO_FREED,
   Reg.SEM_FREED_HI_FREED, Reg.SEM_FORCE_INDEX, Reg.SEM_FORCE_ALL, Reg.SEM_FORCE_KEY,
   Reg.SEM_LOCK_OWNER, Reg.SEM_LOCK_CLAIM, Reg.SEM_LOCK_RELEASE, Reg.SEM_LOCK_TAG]

/-! Fields of the EVT page. -/

def Reg.EVT_LOG_HEAD_HEAD : Field := ⟨.EVT, 0x100, 0, 1, 0, 32, .ro, 0x0, .any⟩
def Reg.EVT_LOG_IDX_A_IDX : Field := ⟨.EVT, 0x104, 0, 1, 0, 10, .rw, 0x0, .any⟩
def Reg.EVT_LOG_IDX_B_IDX : Field := ⟨.EVT, 0x108, 0, 1, 0, 10, .rw, 0x0, .any⟩
def Reg.EVT_PEND_A_PEND : Field := ⟨.EVT, 0x130, 0, 1, 0, 32, .ro, 0x0, .any⟩
def Reg.EVT_PEND_B_PEND : Field := ⟨.EVT, 0x134, 0, 1, 0, 32, .ro, 0x0, .any⟩
def Reg.EVT_MASK_A_MASK : Field := ⟨.EVT, 0x138, 0, 1, 0, 32, .rw, 0xFFFFFFFF, .any⟩
def Reg.EVT_MASK_B_MASK : Field := ⟨.EVT, 0x13C, 0, 1, 0, 32, .rw, 0xFFFFFFFF, .any⟩
def Reg.EVT_ACTIVE : Field := ⟨.EVT, 0x180, 4, 16, 0, 32, .ro, 0x0, .any⟩
def Reg.EVT_ROUTE_VEC_A : Field := ⟨.EVT, 0x800, 4, 512, 0, 5, .rw, 0x0, .any⟩
def Reg.EVT_ROUTE_EN_A : Field := ⟨.EVT, 0x800, 4, 512, 5, 1, .rw, 0x0, .any⟩
def Reg.EVT_ROUTE_VEC_B : Field := ⟨.EVT, 0x800, 4, 512, 8, 5, .rw, 0x0, .any⟩
def Reg.EVT_ROUTE_EN_B : Field := ⟨.EVT, 0x800, 4, 512, 13, 1, .rw, 0x0, .any⟩
def Reg.EVT_ROUTE_LOG : Field := ⟨.EVT, 0x800, 4, 512, 16, 1, .rw, 0x1, .any⟩
def Reg.EVT_LOG_ENT_A_ENTRY : Field := ⟨.EVT, 0x110, 4, 4, 0, 32, .ro, 0x0, .any⟩
def Reg.EVT_LOG_ENT_B_ENTRY : Field := ⟨.EVT, 0x120, 4, 4, 0, 32, .ro, 0x0, .any⟩

/-- The fields of this page. -/
def fieldsEVT : List Field :=
  [Reg.EVT_LOG_HEAD_HEAD, Reg.EVT_LOG_IDX_A_IDX, Reg.EVT_LOG_IDX_B_IDX, Reg.EVT_PEND_A_PEND,
   Reg.EVT_PEND_B_PEND, Reg.EVT_MASK_A_MASK, Reg.EVT_MASK_B_MASK, Reg.EVT_ACTIVE,
   Reg.EVT_ROUTE_VEC_A, Reg.EVT_ROUTE_EN_A, Reg.EVT_ROUTE_VEC_B, Reg.EVT_ROUTE_EN_B,
   Reg.EVT_ROUTE_LOG, Reg.EVT_LOG_ENT_A_ENTRY, Reg.EVT_LOG_ENT_B_ENTRY]

/-! Fields of the HP pages. -/

def Reg.HP_CTRL_NETBIND : Field := ⟨.HP, 0x4, 0, 1, 8, 1, .rw, 0x0, .any⟩
def Reg.HP_STATUS_MODE : Field := ⟨.HP, 0x8, 0, 1, 0, 1, .ro, 0x0, .any⟩
def Reg.HP_STATUS_LINK_UP : Field := ⟨.HP, 0x8, 0, 1, 1, 1, .ro, 0x0, .any⟩
def Reg.HP_STATUS_SPEED : Field := ⟨.HP, 0x8, 0, 1, 2, 2, .ro, 0x0, .any⟩
def Reg.HP_STATUS_WIDTH : Field := ⟨.HP, 0x8, 0, 1, 4, 2, .ro, 0x0, .any⟩
def Reg.HP_STATUS_BOUND : Field := ⟨.HP, 0x8, 0, 1, 6, 1, .ro, 0x0, .any⟩
def Reg.HP_STATUS_PERST : Field := ⟨.HP, 0x8, 0, 1, 7, 1, .ro, 0x0, .any⟩
def Reg.HP_COUNTS_BADADDR : Field := ⟨.HP, 0x100, 0, 1, 0, 16, .ro, 0x0, .any⟩
def Reg.HP_COUNTS_ABORTED_RD : Field := ⟨.HP, 0x100, 0, 1, 16, 16, .ro, 0x0, .any⟩
def Reg.HP_FLASH_ADDR_ADDR : Field := ⟨.HP, 0x104, 0, 1, 0, 24, .rw, 0x0, .any⟩
def Reg.HP_FLASH_CMD_OP : Field := ⟨.HP, 0x108, 0, 1, 0, 3, .wo, 0x0, .between 1 4⟩
def Reg.HP_FLASH_STATUS_BUSY : Field := ⟨.HP, 0x10C, 0, 1, 0, 1, .ro, 0x0, .any⟩
def Reg.HP_FLASH_STATUS_DONE : Field := ⟨.HP, 0x10C, 0, 1, 1, 1, .w1c, 0x0, .any⟩
def Reg.HP_FLASH_STATUS_ERR : Field := ⟨.HP, 0x10C, 0, 1, 4, 4, .ro, 0x0, .any⟩
def Reg.HP_FLASH_BUF_DATA : Field := ⟨.HP, 0x400, 4, 64, 0, 32, .rw, 0x0, .any⟩

/-- The fields of this page. -/
def fieldsHP : List Field :=
  [Reg.HP_CTRL_NETBIND, Reg.HP_STATUS_MODE, Reg.HP_STATUS_LINK_UP, Reg.HP_STATUS_SPEED,
   Reg.HP_STATUS_WIDTH, Reg.HP_STATUS_BOUND, Reg.HP_STATUS_PERST, Reg.HP_COUNTS_BADADDR,
   Reg.HP_COUNTS_ABORTED_RD, Reg.HP_FLASH_ADDR_ADDR, Reg.HP_FLASH_CMD_OP,
   Reg.HP_FLASH_STATUS_BUSY, Reg.HP_FLASH_STATUS_DONE, Reg.HP_FLASH_STATUS_ERR,
   Reg.HP_FLASH_BUF_DATA]

/-! Fields of the TIM page. -/

def Reg.TIM_CTRL_SNAP : Field := ⟨.TIM, 0x4, 0, 1, 8, 1, .wo, 0x0, .any⟩
def Reg.TIM_CTRL_ACCEPT_N : Field := ⟨.TIM, 0x4, 0, 1, 9, 1, .wo, 0x0, .any⟩
def Reg.TIM_CTRL_ACCEPT_S : Field := ⟨.TIM, 0x4, 0, 1, 10, 1, .wo, 0x0, .any⟩
def Reg.TIM_CTRL_ACCEPT_M : Field := ⟨.TIM, 0x4, 0, 1, 11, 1, .wo, 0x0, .any⟩
def Reg.TIM_STATUS_STATE : Field := ⟨.TIM, 0x8, 0, 1, 0, 3, .ro, 0x0, .any⟩
def Reg.TIM_STATUS_SYNTON : Field := ⟨.TIM, 0x8, 0, 1, 3, 1, .ro, 0x0, .any⟩
def Reg.TIM_STATUS_TRUST : Field := ⟨.TIM, 0x8, 0, 1, 4, 4, .ro, 0x0, .any⟩
def Reg.TIM_STATUS_SUSPECT : Field := ⟨.TIM, 0x8, 0, 1, 8, 4, .ro, 0x0, .any⟩
def Reg.TIM_STATUS_AVAIL : Field := ⟨.TIM, 0x8, 0, 1, 12, 4, .ro, 0x0, .any⟩
def Reg.TIM_STATUS_EPOCH_VALID : Field := ⟨.TIM, 0x8, 0, 1, 16, 1, .ro, 0x0, .any⟩
def Reg.TIM_STATUS_EVER_LOCKED : Field := ⟨.TIM, 0x8, 0, 1, 17, 1, .ro, 0x0, .any⟩
def Reg.TIM_STATUS_SLEW : Field := ⟨.TIM, 0x8, 0, 1, 18, 1, .ro, 0x0, .any⟩
def Reg.TIM_STATUS_UP_HOLD : Field := ⟨.TIM, 0x8, 0, 1, 19, 1, .ro, 0x0, .any⟩
def Reg.TIM_STATUS_SYN_SRC : Field := ⟨.TIM, 0x8, 0, 1, 20, 2, .ro, 0x0, .any⟩
def Reg.TIM_NOW_LO_NS : Field := ⟨.TIM, 0x100, 0, 1, 0, 32, .ro, 0x0, .any⟩
def Reg.TIM_SNAP_LO_NS : Field := ⟨.TIM, 0x104, 0, 1, 0, 32, .ro, 0x0, .any⟩
def Reg.TIM_SNAP_HI_NS : Field := ⟨.TIM, 0x108, 0, 1, 0, 32, .ro, 0x0, .any⟩
def Reg.TIM_SNAP_FRAC_FRAC : Field := ⟨.TIM, 0x10C, 0, 1, 0, 16, .ro, 0x0, .any⟩
def Reg.TIM_EPOCH_LO_EPOCH : Field := ⟨.TIM, 0x110, 0, 1, 0, 32, .rws, 0x0, .any⟩
def Reg.TIM_EPOCH_HI_EPOCH : Field := ⟨.TIM, 0x114, 0, 1, 0, 32, .rws, 0x0, .any⟩
def Reg.TIM_DOMAIN : Field := ⟨.TIM, 0x118, 0, 1, 0, 8, .rws, 0x0, .any⟩
def Reg.TIM_DOMAIN_L1_M : Field := ⟨.TIM, 0x118, 0, 1, 8, 1, .rws, 0x0, .any⟩
def Reg.TIM_DOMAIN_SINGLE_AUTO : Field := ⟨.TIM, 0x118, 0, 1, 9, 1, .rws, 0x1, .any⟩
def Reg.TIM_INTERVALS_LOG_SYNC : Field := ⟨.TIM, 0x11C, 0, 1, 0, 4, .rws, 0xC, .any⟩
def Reg.TIM_INTERVALS_LOG_DELAY : Field := ⟨.TIM, 0x11C, 0, 1, 4, 4, .rws, 0xC, .any⟩
def Reg.TIM_INTERVALS_LOG_ANNOUNCE : Field := ⟨.TIM, 0x11C, 0, 1, 8, 4, .rws, 0x0, .any⟩
def Reg.TIM_INTERVALS_LOOP_BW : Field := ⟨.TIM, 0x11C, 0, 1, 12, 4, .rws, 0x2, .any⟩
def Reg.TIM_LOCK_CFG_WIN : Field := ⟨.TIM, 0x120, 0, 1, 0, 16, .rws, 0x64, .between 10 65535⟩
def Reg.TIM_LOCK_CFG_COUNT : Field := ⟨.TIM, 0x120, 0, 1, 16, 8, .rws, 0x10, .between 4 255⟩
def Reg.TIM_ASYM_THR_THR : Field := ⟨.TIM, 0x124, 0, 1, 0, 16, .rws, 0x200, .between 0x40 0xFFFF⟩
def Reg.TIM_ASYM_THR_DTHR : Field := ⟨.TIM, 0x124, 0, 1, 16, 16, .rws, 0x200, .between 0x40 0xFFFF⟩
def Reg.TIM_ASYM_QUAL_QUAL : Field := ⟨.TIM, 0x128, 0, 1, 0, 16, .rws, 0xA, .between 1 3600⟩
def Reg.TIM_LINK_ASYM_ALPHA : Field := ⟨.TIM, 0x130, 4, 4, 0, 32, .rws, 0x0, .any⟩
def Reg.TIM_LINK_DELAY_D : Field := ⟨.TIM, 0x140, 4, 4, 0, 32, .ro, 0x0, .any⟩
def Reg.TIM_PATH_DELAY_D : Field := ⟨.TIM, 0x150, 4, 4, 0, 32, .ro, 0x0, .any⟩
def Reg.TIM_PATH_OFFSET_O : Field := ⟨.TIM, 0x160, 4, 4, 0, 32, .ro, 0x0, .any⟩
def Reg.TIM_PATH_REF_D : Field := ⟨.TIM, 0x170, 4, 4, 0, 32, .ro, 0x0, .any⟩
def Reg.TIM_RATE_SYN_R : Field := ⟨.TIM, 0x180, 0, 1, 0, 32, .ro, 0x0, .any⟩
def Reg.TIM_RATE_SERVO_C : Field := ⟨.TIM, 0x184, 0, 1, 0, 32, .ro, 0x0, .any⟩
def Reg.TIM_DRIFT_D : Field := ⟨.TIM, 0x188, 0, 1, 0, 32, .ro, 0x0, .any⟩
def Reg.TIM_GRID_PHASE_LAST : Field := ⟨.TIM, 0x18C, 0, 1, 0, 16, .ro, 0x0, .any⟩
def Reg.TIM_GRID_PHASE_RMS : Field := ⟨.TIM, 0x18C, 0, 1, 16, 16, .ro, 0x0, .any⟩
def Reg.TIM_HOLD_TIME_S : Field := ⟨.TIM, 0x190, 0, 1, 0, 32, .ro, 0x0, .any⟩
def Reg.TIM_STEP_LO_STEP : Field := ⟨.TIM, 0x194, 0, 1, 0, 32, .ro, 0x0, .any⟩
def Reg.TIM_STEP_HI_STEP : Field := ⟨.TIM, 0x198, 0, 1, 0, 32, .ro, 0x0, .any⟩
def Reg.TIM_COUNTS_HOLDOVERS : Field := ⟨.TIM, 0x19C, 0, 1, 0, 16, .ro, 0x0, .any⟩
def Reg.TIM_COUNTS_LOSTS : Field := ⟨.TIM, 0x19C, 0, 1, 16, 16, .ro, 0x0, .any⟩
def Reg.TIM_PTP_DROP_DROPS : Field := ⟨.TIM, 0x1A0, 0, 1, 0, 32, .ro, 0x0, .any⟩
def Reg.TIM_GM_ID_LO_ID : Field := ⟨.TIM, 0x1A4, 0, 1, 0, 32, .ro, 0x0, .any⟩
def Reg.TIM_GM_ID_HI_ID : Field := ⟨.TIM, 0x1A8, 0, 1, 0, 32, .ro, 0x0, .any⟩
def Reg.TIM_GM_QUAL_CLASS : Field := ⟨.TIM, 0x1AC, 0, 1, 0, 8, .ro, 0x0, .any⟩
def Reg.TIM_GM_QUAL_ACCURACY : Field := ⟨.TIM, 0x1AC, 0, 1, 8, 8, .ro, 0x0, .any⟩
def Reg.TIM_GM_QUAL_VARIANCE : Field := ⟨.TIM, 0x1AC, 0, 1, 16, 16, .ro, 0x0, .any⟩
def Reg.TIM_UTC_OFFSET : Field := ⟨.TIM, 0x1B0, 0, 1, 0, 16, .ro, 0x0, .any⟩
def Reg.TIM_UTC_VALID : Field := ⟨.TIM, 0x1B0, 0, 1, 16, 1, .ro, 0x0, .any⟩

/-- The fields of this page. -/
def fieldsTIM : List Field :=
  [Reg.TIM_CTRL_SNAP, Reg.TIM_CTRL_ACCEPT_N, Reg.TIM_CTRL_ACCEPT_S, Reg.TIM_CTRL_ACCEPT_M,
   Reg.TIM_STATUS_STATE, Reg.TIM_STATUS_SYNTON, Reg.TIM_STATUS_TRUST, Reg.TIM_STATUS_SUSPECT,
   Reg.TIM_STATUS_AVAIL, Reg.TIM_STATUS_EPOCH_VALID, Reg.TIM_STATUS_EVER_LOCKED,
   Reg.TIM_STATUS_SLEW, Reg.TIM_STATUS_UP_HOLD, Reg.TIM_STATUS_SYN_SRC, Reg.TIM_NOW_LO_NS,
   Reg.TIM_SNAP_LO_NS, Reg.TIM_SNAP_HI_NS, Reg.TIM_SNAP_FRAC_FRAC, Reg.TIM_EPOCH_LO_EPOCH,
   Reg.TIM_EPOCH_HI_EPOCH, Reg.TIM_DOMAIN, Reg.TIM_DOMAIN_L1_M, Reg.TIM_DOMAIN_SINGLE_AUTO,
   Reg.TIM_INTERVALS_LOG_SYNC, Reg.TIM_INTERVALS_LOG_DELAY, Reg.TIM_INTERVALS_LOG_ANNOUNCE,
   Reg.TIM_INTERVALS_LOOP_BW, Reg.TIM_LOCK_CFG_WIN, Reg.TIM_LOCK_CFG_COUNT,
   Reg.TIM_ASYM_THR_THR, Reg.TIM_ASYM_THR_DTHR, Reg.TIM_ASYM_QUAL_QUAL, Reg.TIM_LINK_ASYM_ALPHA,
   Reg.TIM_LINK_DELAY_D, Reg.TIM_PATH_DELAY_D, Reg.TIM_PATH_OFFSET_O, Reg.TIM_PATH_REF_D,
   Reg.TIM_RATE_SYN_R, Reg.TIM_RATE_SERVO_C, Reg.TIM_DRIFT_D]
  ++ [Reg.TIM_GRID_PHASE_LAST, Reg.TIM_GRID_PHASE_RMS, Reg.TIM_HOLD_TIME_S, Reg.TIM_STEP_LO_STEP,
   Reg.TIM_STEP_HI_STEP, Reg.TIM_COUNTS_HOLDOVERS, Reg.TIM_COUNTS_LOSTS, Reg.TIM_PTP_DROP_DROPS,
   Reg.TIM_GM_ID_LO_ID, Reg.TIM_GM_ID_HI_ID, Reg.TIM_GM_QUAL_CLASS, Reg.TIM_GM_QUAL_ACCURACY,
   Reg.TIM_GM_QUAL_VARIANCE, Reg.TIM_UTC_OFFSET, Reg.TIM_UTC_VALID]

/-! Fields of the ABC page. -/

def Reg.ABC_BEAD0_POS_LO : Field := ⟨.ABC, 0x7000, 16, 1024, 0, 32, .rw, 0x0, .any⟩
def Reg.ABC_BEAD1_POS_HI : Field := ⟨.ABC, 0x7004, 16, 1024, 0, 16, .rw, 0x0, .any⟩
def Reg.ABC_BEAD1_ROD : Field := ⟨.ABC, 0x7004, 16, 1024, 16, 3, .rw, 0x0, .any⟩
def Reg.ABC_BEAD1_DIR : Field := ⟨.ABC, 0x7004, 16, 1024, 19, 2, .rw, 0x0, .any⟩
def Reg.ABC_BEAD1_MODE : Field := ⟨.ABC, 0x7004, 16, 1024, 21, 2, .rw, 0x0, .any⟩
def Reg.ABC_BEAD1_MINQ : Field := ⟨.ABC, 0x7004, 16, 1024, 23, 2, .rw, 0x0, .any⟩
def Reg.ABC_BEAD1_ACTION : Field := ⟨.ABC, 0x7004, 16, 1024, 25, 5, .rw, 0x0, .any⟩
def Reg.ABC_BEAD1_EN : Field := ⟨.ABC, 0x7004, 16, 1024, 31, 1, .rw, 0x0, .any⟩
def Reg.ABC_BEAD2_ARG : Field := ⟨.ABC, 0x7008, 16, 1024, 0, 32, .rw, 0x0, .any⟩
def Reg.ABC_BEAD3_REPEAT : Field := ⟨.ABC, 0x700C, 16, 1024, 0, 32, .rw, 0x0, .any⟩
def Reg.ABC_CTRL_LOAD : Field := ⟨.ABC, 0x4, 0, 1, 9, 7, .wo, 0x0, .any⟩
def Reg.ABC_STATUS_QUAL : Field := ⟨.ABC, 0x8, 0, 1, 0, 16, .ro, 0x0, .any⟩
def Reg.ABC_STATUS_ROD0_HOLD : Field := ⟨.ABC, 0x8, 0, 1, 16, 1, .ro, 0x1, .any⟩
def Reg.ABC_ROD_CFG_KIND : Field := ⟨.ABC, 0x100, 64, 8, 0, 3, .rws, 0x0, .between 0 6⟩
def Reg.ABC_ROD_CFG_IDX_EN : Field := ⟨.ABC, 0x100, 64, 8, 3, 1, .rws, 0x0, .any⟩
def Reg.ABC_ROD_CFG_UNIT : Field := ⟨.ABC, 0x100, 64, 8, 4, 4, .rws, 0x0, .between 0 7⟩
def Reg.ABC_ROD_CFG_INA : Field := ⟨.ABC, 0x100, 64, 8, 8, 5, .rws, 0x0, .between 0 19⟩
def Reg.ABC_ROD_CFG_INB : Field := ⟨.ABC, 0x100, 64, 8, 13, 5, .rws, 0x0, .between 0 19⟩
def Reg.ABC_ROD_CFG_INZ : Field := ⟨.ABC, 0x100, 64, 8, 18, 5, .rws, 0x0, .between 0 19⟩
def Reg.ABC_ROD_CFG_VAVG : Field := ⟨.ABC, 0x100, 64, 8, 23, 2, .rws, 0x0, .between 0 3⟩
def Reg.ABC_ROD_CFG_NET_ID : Field := ⟨.ABC, 0x100, 64, 8, 25, 7, .rws, 0x0, .between 0 127⟩
def Reg.ABC_PITCH : Field := ⟨.ABC, 0x104, 64, 8, 0, 32, .rws, 0x10000, .any⟩
def Reg.ABC_LOAD_LO_LOAD : Field := ⟨.ABC, 0x108, 64, 8, 0, 32, .rws, 0x0, .any⟩
def Reg.ABC_LOAD_HI_LOAD : Field := ⟨.ABC, 0x10C, 64, 8, 0, 16, .rws, 0x0, .any⟩
def Reg.ABC_TIMING_TIMEOUT : Field := ⟨.ABC, 0x110, 64, 8, 0, 16, .rws, 0x3E8, .between 1 65535⟩
def Reg.ABC_TIMING_GATE : Field := ⟨.ABC, 0x110, 64, 8, 16, 16, .rws, 0x3E8, .between 1 65535⟩
def Reg.ABC_POS_LO_POS : Field := ⟨.ABC, 0x114, 64, 8, 0, 32, .ro, 0x0, .any⟩
def Reg.ABC_POS_HI_POS : Field := ⟨.ABC, 0x118, 64, 8, 0, 16, .ro, 0x0, .any⟩
def Reg.ABC_POS_HI_QUAL : Field := ⟨.ABC, 0x118, 64, 8, 16, 2, .ro, 0x0, .any⟩
def Reg.ABC_POS_HI_DIR : Field := ⟨.ABC, 0x118, 64, 8, 18, 1, .ro, 0x0, .any⟩
def Reg.ABC_POS_HI_DOUBT : Field := ⟨.ABC, 0x118, 64, 8, 19, 1, .ro, 0x0, .any⟩
def Reg.ABC_VEL_V : Field := ⟨.ABC, 0x11C, 64, 8, 0, 32, .ro, 0x0, .any⟩
def Reg.ABC_LAST_T : Field := ⟨.ABC, 0x120, 64, 8, 0, 32, .ro, 0x0, .any⟩
def Reg.ABC_COUNTS_LOADS : Field := ⟨.ABC, 0x124, 64, 8, 0, 16, .ro, 0x0, .any⟩
def Reg.ABC_COUNTS_LOST : Field := ⟨.ABC, 0x124, 64, 8, 16, 16, .ro, 0x0, .any⟩
def Reg.ABC_MAINS_CFG_HYST : Field := ⟨.ABC, 0x300, 0, 1, 0, 12, .rws, 0x32, .between 1 1000⟩
def Reg.ABC_PHASE_OFS_OFS : Field := ⟨.ABC, 0x304, 0, 1, 0, 32, .rws, 0x0, .between 0 23592959⟩
def Reg.ABC_MAINS_FREQ_MHZ : Field := ⟨.ABC, 0x308, 0, 1, 0, 32, .ro, 0x0, .any⟩
def Reg.ABC_BCAST_MASK : Field := ⟨.ABC, 0x30C, 0, 1, 0, 8, .rws, 0x0, .any⟩
def Reg.ABC_BCAST_PERIOD : Field := ⟨.ABC, 0x30C, 0, 1, 8, 16, .rws, 0xA, .between 1 1000⟩
def Reg.ABC_IN_CFG_POL : Field := ⟨.ABC, 0x340, 4, 20, 0, 1, .rws, 0x0, .any⟩
def Reg.ABC_IN_CFG_GLITCH : Field := ⟨.ABC, 0x340, 4, 20, 1, 8, .rws, 0x0, .between 0 255⟩
def Reg.ABC_IN_CFG_MIN_INT : Field := ⟨.ABC, 0x340, 4, 20, 9, 15, .rws, 0x5, .between 5 32767⟩
def Reg.ABC_IN_CFG_STUCK : Field := ⟨.ABC, 0x340, 4, 20, 24, 8, .rws, 0x0, .any⟩
def Reg.ABC_IN_STAT_LEVEL : Field := ⟨.ABC, 0x3A0, 4, 20, 0, 1, .ro, 0x0, .any⟩
def Reg.ABC_IN_STAT_STUCK : Field := ⟨.ABC, 0x3A0, 4, 20, 1, 1, .ro, 0x0, .any⟩
def Reg.ABC_IN_STAT_OVR : Field := ⟨.ABC, 0x3A0, 4, 20, 16, 16, .ro, 0x0, .any⟩
def Reg.ABC_IN_STUCK_STUCK : Field := ⟨.ABC, 0x3F0, 0, 1, 0, 20, .w1c, 0x0, .any⟩
def Reg.ABC_IN_OVR_OVR : Field := ⟨.ABC, 0x3F4, 0, 1, 0, 20, .w1c, 0x0, .any⟩
def Reg.ABC_FIRED : Field := ⟨.ABC, 0x400, 0, 1, 0, 32, .ro, 0x0, .any⟩
def Reg.ABC_BEAD_COUNTS_SKIPS : Field := ⟨.ABC, 0x404, 0, 1, 0, 16, .ro, 0x0, .any⟩
def Reg.ABC_BEAD_COUNTS_SUPPRESSED : Field := ⟨.ABC, 0x404, 0, 1, 16, 16, .ro, 0x0, .any⟩
def Reg.ABC_LAST_BEAD_BEAD : Field := ⟨.ABC, 0x408, 0, 1, 0, 10, .ro, 0x0, .any⟩
def Reg.ABC_LAST_TC_TC : Field := ⟨.ABC, 0x40C, 0, 1, 0, 32, .ro, 0x0, .any⟩

/-- The fields of this page. -/
def fieldsABC : List Field :=
  [Reg.ABC_BEAD0_POS_LO, Reg.ABC_BEAD1_POS_HI, Reg.ABC_BEAD1_ROD, Reg.ABC_BEAD1_DIR,
   Reg.ABC_BEAD1_MODE, Reg.ABC_BEAD1_MINQ, Reg.ABC_BEAD1_ACTION, Reg.ABC_BEAD1_EN,
   Reg.ABC_BEAD2_ARG, Reg.ABC_BEAD3_REPEAT, Reg.ABC_CTRL_LOAD, Reg.ABC_STATUS_QUAL,
   Reg.ABC_STATUS_ROD0_HOLD, Reg.ABC_ROD_CFG_KIND, Reg.ABC_ROD_CFG_IDX_EN, Reg.ABC_ROD_CFG_UNIT,
   Reg.ABC_ROD_CFG_INA, Reg.ABC_ROD_CFG_INB, Reg.ABC_ROD_CFG_INZ, Reg.ABC_ROD_CFG_VAVG,
   Reg.ABC_ROD_CFG_NET_ID, Reg.ABC_PITCH, Reg.ABC_LOAD_LO_LOAD, Reg.ABC_LOAD_HI_LOAD,
   Reg.ABC_TIMING_TIMEOUT, Reg.ABC_TIMING_GATE, Reg.ABC_POS_LO_POS, Reg.ABC_POS_HI_POS,
   Reg.ABC_POS_HI_QUAL, Reg.ABC_POS_HI_DIR, Reg.ABC_POS_HI_DOUBT, Reg.ABC_VEL_V, Reg.ABC_LAST_T,
   Reg.ABC_COUNTS_LOADS, Reg.ABC_COUNTS_LOST, Reg.ABC_MAINS_CFG_HYST, Reg.ABC_PHASE_OFS_OFS,
   Reg.ABC_MAINS_FREQ_MHZ, Reg.ABC_BCAST_MASK, Reg.ABC_BCAST_PERIOD]
  ++ [Reg.ABC_IN_CFG_POL, Reg.ABC_IN_CFG_GLITCH, Reg.ABC_IN_CFG_MIN_INT, Reg.ABC_IN_CFG_STUCK,
   Reg.ABC_IN_STAT_LEVEL, Reg.ABC_IN_STAT_STUCK, Reg.ABC_IN_STAT_OVR, Reg.ABC_IN_STUCK_STUCK,
   Reg.ABC_IN_OVR_OVR, Reg.ABC_FIRED, Reg.ABC_BEAD_COUNTS_SKIPS, Reg.ABC_BEAD_COUNTS_SUPPRESSED,
   Reg.ABC_LAST_BEAD_BEAD, Reg.ABC_LAST_TC_TC]

/-! Fields of the AFE pages. -/

def Reg.AFE_CTRL_EXC_CLR_FAULT : Field := ⟨.AFE, 0x4, 0, 1, 8, 1, .wo, 0x0, .any⟩
def Reg.AFE_CTRL_TEDS_SCAN : Field := ⟨.AFE, 0x4, 0, 1, 9, 1, .wo, 0x0, .any⟩
def Reg.AFE_CTRL_TEDS_READ : Field := ⟨.AFE, 0x4, 0, 1, 10, 1, .wo, 0x0, .any⟩
def Reg.AFE_STATUS_EXC_ON : Field := ⟨.AFE, 0x8, 0, 1, 0, 1, .ro, 0x0, .any⟩
def Reg.AFE_STATUS_EXC_REG : Field := ⟨.AFE, 0x8, 0, 1, 1, 1, .ro, 0x0, .any⟩
def Reg.AFE_STATUS_EXC_LIMIT : Field := ⟨.AFE, 0x8, 0, 1, 2, 1, .ro, 0x0, .any⟩
def Reg.AFE_STATUS_EXC_FAULT : Field := ⟨.AFE, 0x8, 0, 1, 3, 1, .ro, 0x0, .any⟩
def Reg.AFE_STATUS_FAULT_CAUSE : Field := ⟨.AFE, 0x8, 0, 1, 4, 2, .ro, 0x0, .any⟩
def Reg.AFE_STATUS_TEDS_BUSY : Field := ⟨.AFE, 0x8, 0, 1, 6, 1, .ro, 0x0, .any⟩
def Reg.AFE_STATUS_DRIVING : Field := ⟨.AFE, 0x8, 0, 1, 7, 1, .ro, 0x0, .any⟩
def Reg.AFE_CH_GAIN : Field := ⟨.AFE, 0x100, 4, 16, 0, 3, .rws, 0x0, .any⟩
def Reg.AFE_CH_BRK_I : Field := ⟨.AFE, 0x100, 4, 16, 3, 2, .rws, 0x0, .any⟩
def Reg.AFE_CH_PRES_EN : Field := ⟨.AFE, 0x100, 4, 16, 5, 1, .rws, 0x0, .any⟩
def Reg.AFE_CH_PRES_EXC : Field := ⟨.AFE, 0x100, 4, 16, 6, 1, .rws, 0x0, .any⟩
def Reg.AFE_CH_GRD_SRC : Field := ⟨.AFE, 0x100, 4, 16, 7, 1, .rws, 0x0, .any⟩
def Reg.AFE_CH_TEDS_EN : Field := ⟨.AFE, 0x100, 4, 16, 8, 1, .rws, 0x0, .any⟩
def Reg.AFE_PRES_WIN_CM_LO : Field := ⟨.AFE, 0x140, 0, 1, 0, 16, .rws, 0xC8, .between 0 5000⟩
def Reg.AFE_PRES_WIN_CM_HI : Field := ⟨.AFE, 0x140, 0, 1, 16, 16, .rws, 0x12C0, .between 0 5000⟩
def Reg.AFE_PRES_TIME_MS : Field := ⟨.AFE, 0x144, 0, 1, 0, 16, .rws, 0xA, .between 1 65535⟩
def Reg.AFE_GRD_CTRL_EN : Field := ⟨.AFE, 0x148, 0, 1, 0, 4, .rws, 0x0, .any⟩
def Reg.AFE_GRD_CTRL_DEFAULT : Field := ⟨.AFE, 0x148, 0, 1, 16, 13, .rws, 0x9C4, .between 200 4800⟩
def Reg.AFE_EXC_MODE_MODE : Field := ⟨.AFE, 0x150, 0, 1, 0, 2, .rws, 0x0, .between 0 2⟩
def Reg.AFE_EXC_MODE_REV : Field := ⟨.AFE, 0x150, 0, 1, 2, 1, .rws, 0x0, .any⟩
def Reg.AFE_EXC_SET_LEVEL : Field := ⟨.AFE, 0x154, 0, 1, 0, 16, .rws, 0x0, .any⟩
def Reg.AFE_EXC_LIM_ILIM : Field := ⟨.AFE, 0x158, 0, 1, 0, 16, .rws, 0x61A8, .between 1000 25000⟩
def Reg.AFE_EXC_LIM_VLIM : Field := ⟨.AFE, 0x158, 0, 1, 16, 16, .rws, 0x2904, .between 500 10500⟩
def Reg.AFE_EXC_TIME_RAMP : Field := ⟨.AFE, 0x15C, 0, 1, 0, 16, .rws, 0x3E8, .between 10 65535⟩
def Reg.AFE_EXC_TIME_FAULT_MS : Field := ⟨.AFE, 0x15C, 0, 1, 16, 8, .rws, 0xA, .between 1 255⟩
def Reg.AFE_EXC_TIME_BBM : Field := ⟨.AFE, 0x15C, 0, 1, 24, 8, .rws, 0x14, .between 1 255⟩
def Reg.AFE_ISENSE_R_MOHM : Field := ⟨.AFE, 0x160, 0, 1, 0, 20, .rws, 0xC350, .between 1000 1000000⟩
def Reg.AFE_EXC_NOW_TARGET : Field := ⟨.AFE, 0x16C, 0, 1, 0, 16, .ro, 0x0, .any⟩
def Reg.AFE_EXC_NOW_REV : Field := ⟨.AFE, 0x16C, 0, 1, 16, 1, .ro, 0x0, .any⟩
def Reg.AFE_EXC_NOW_CHANGING : Field := ⟨.AFE, 0x16C, 0, 1, 17, 1, .ro, 0x0, .any⟩
def Reg.AFE_EXC_MEAS_VOLT : Field := ⟨.AFE, 0x170, 0, 1, 0, 16, .ro, 0x0, .any⟩
def Reg.AFE_EXC_MEAS_CURR : Field := ⟨.AFE, 0x170, 0, 1, 16, 16, .ro, 0x0, .any⟩
def Reg.AFE_BRK_STATUS_BREAK : Field := ⟨.AFE, 0x174, 0, 1, 0, 16, .ro, 0x0, .any⟩
def Reg.AFE_PRES_STATUS_PRESENT : Field := ⟨.AFE, 0x178, 0, 1, 0, 16, .ro, 0xFFFF, .any⟩
def Reg.AFE_PRES_STATUS_TEDS : Field := ⟨.AFE, 0x178, 0, 1, 16, 16, .ro, 0x0, .any⟩
def Reg.AFE_STICKY_BROKE : Field := ⟨.AFE, 0x17C, 0, 1, 0, 16, .w1c, 0x0, .any⟩
def Reg.AFE_STICKY_LOST : Field := ⟨.AFE, 0x17C, 0, 1, 16, 16, .w1c, 0x0, .any⟩
def Reg.AFE_TEDS_CTRL_PERIOD : Field := ⟨.AFE, 0x280, 0, 1, 0, 16, .rws, 0x0, .any⟩
def Reg.AFE_TEDS_STAT_FOUND : Field := ⟨.AFE, 0x284, 0, 1, 0, 5, .ro, 0x0, .any⟩
def Reg.AFE_TEDS_STAT_OVERFLOW : Field := ⟨.AFE, 0x284, 0, 1, 5, 1, .ro, 0x0, .any⟩
def Reg.AFE_TEDS_STAT_SHORT : Field := ⟨.AFE, 0x284, 0, 1, 6, 1, .ro, 0x0, .any⟩
def Reg.AFE_TEDS_STAT_CRCERR : Field := ⟨.AFE, 0x284, 0, 1, 7, 1, .ro, 0x0, .any⟩
def Reg.AFE_TEDS_STAT_SCANS : Field := ⟨.AFE, 0x284, 0, 1, 8, 24, .ro, 0x0, .any⟩
def Reg.AFE_TEDS_RDADDR_ADDR : Field := ⟨.AFE, 0x288, 0, 1, 0, 16, .rw, 0x0, .multiple 32⟩
def Reg.AFE_TEDS_RDADDR_DEV : Field := ⟨.AFE, 0x288, 0, 1, 16, 4, .rw, 0x0, .any⟩
def Reg.AFE_TEDS_BUF_DATA : Field := ⟨.AFE, 0x2C0, 4, 8, 0, 32, .ro, 0x0, .any⟩
def Reg.AFE_TEDS_EXP_ID_LO : Field := ⟨.AFE, 0x180, 8, 16, 0, 32, .rws, 0x0, .any⟩
def Reg.AFE_TEDS_EXP_ID_HI : Field := ⟨.AFE, 0x184, 8, 16, 0, 32, .rws, 0x0, .any⟩
def Reg.AFE_TEDS_FOUND_ID_LO : Field := ⟨.AFE, 0x200, 8, 16, 0, 32, .ro, 0x0, .any⟩
def Reg.AFE_TEDS_FOUND_ID_HI : Field := ⟨.AFE, 0x204, 8, 16, 0, 32, .ro, 0x0, .any⟩

/-- The fields of this page. -/
def fieldsAFE : List Field :=
  [Reg.AFE_CTRL_EXC_CLR_FAULT, Reg.AFE_CTRL_TEDS_SCAN, Reg.AFE_CTRL_TEDS_READ,
   Reg.AFE_STATUS_EXC_ON, Reg.AFE_STATUS_EXC_REG, Reg.AFE_STATUS_EXC_LIMIT,
   Reg.AFE_STATUS_EXC_FAULT, Reg.AFE_STATUS_FAULT_CAUSE, Reg.AFE_STATUS_TEDS_BUSY,
   Reg.AFE_STATUS_DRIVING, Reg.AFE_CH_GAIN, Reg.AFE_CH_BRK_I, Reg.AFE_CH_PRES_EN,
   Reg.AFE_CH_PRES_EXC, Reg.AFE_CH_GRD_SRC, Reg.AFE_CH_TEDS_EN, Reg.AFE_PRES_WIN_CM_LO,
   Reg.AFE_PRES_WIN_CM_HI, Reg.AFE_PRES_TIME_MS, Reg.AFE_GRD_CTRL_EN, Reg.AFE_GRD_CTRL_DEFAULT,
   Reg.AFE_EXC_MODE_MODE, Reg.AFE_EXC_MODE_REV, Reg.AFE_EXC_SET_LEVEL, Reg.AFE_EXC_LIM_ILIM,
   Reg.AFE_EXC_LIM_VLIM, Reg.AFE_EXC_TIME_RAMP, Reg.AFE_EXC_TIME_FAULT_MS, Reg.AFE_EXC_TIME_BBM,
   Reg.AFE_ISENSE_R_MOHM, Reg.AFE_EXC_NOW_TARGET, Reg.AFE_EXC_NOW_REV, Reg.AFE_EXC_NOW_CHANGING,
   Reg.AFE_EXC_MEAS_VOLT, Reg.AFE_EXC_MEAS_CURR, Reg.AFE_BRK_STATUS_BREAK,
   Reg.AFE_PRES_STATUS_PRESENT, Reg.AFE_PRES_STATUS_TEDS, Reg.AFE_STICKY_BROKE,
   Reg.AFE_STICKY_LOST]
  ++ [Reg.AFE_TEDS_CTRL_PERIOD, Reg.AFE_TEDS_STAT_FOUND, Reg.AFE_TEDS_STAT_OVERFLOW,
   Reg.AFE_TEDS_STAT_SHORT, Reg.AFE_TEDS_STAT_CRCERR, Reg.AFE_TEDS_STAT_SCANS,
   Reg.AFE_TEDS_RDADDR_ADDR, Reg.AFE_TEDS_RDADDR_DEV, Reg.AFE_TEDS_BUF_DATA,
   Reg.AFE_TEDS_EXP_ID_LO, Reg.AFE_TEDS_EXP_ID_HI, Reg.AFE_TEDS_FOUND_ID_LO,
   Reg.AFE_TEDS_FOUND_ID_HI]

/-! Fields of the CNV pages. -/

def Reg.CNV_CTRL_UNPARK : Field := ⟨.CNV, 0x4, 0, 1, 8, 1, .wo, 0x0, .any⟩
def Reg.CNV_STATUS_ROUND_ON : Field := ⟨.CNV, 0x8, 0, 1, 0, 1, .ro, 0x0, .any⟩
def Reg.CNV_STATUS_POS : Field := ⟨.CNV, 0x8, 0, 1, 1, 4, .ro, 0x0, .any⟩
def Reg.CNV_STATUS_STEP : Field := ⟨.CNV, 0x8, 0, 1, 5, 4, .ro, 0x0, .any⟩
def Reg.CNV_STATUS_PARKED : Field := ⟨.CNV, 0x8, 0, 1, 9, 1, .ro, 0x0, .any⟩
def Reg.CNV_ROUND_CTRL_EN : Field := ⟨.CNV, 0x100, 0, 1, 0, 1, .rws, 0x0, .any⟩
def Reg.CNV_ROUND_CTRL_SPACING : Field := ⟨.CNV, 0x100, 0, 1, 8, 12, .rws, 0x0, .between 0 3600⟩
def Reg.CNV_ROUND_MASK_MASK : Field := ⟨.CNV, 0x104, 0, 1, 0, 16, .rws, 0xFFFF, .any⟩
def Reg.CNV_ROUND_LEN_OVERLAP : Field := ⟨.CNV, 0x108, 0, 1, 0, 16, .rws, 0x100, .between 16 65535⟩
def Reg.CNV_ROUND_LEN_MEAS : Field := ⟨.CNV, 0x108, 0, 1, 16, 16, .rws, 0x1000, .between 1024 32768⟩
def Reg.CNV_ROUND_TOL_TOL : Field := ⟨.CNV, 0x10C, 0, 1, 0, 16, .rws, 0x14, .between 1 10000⟩
def Reg.CNV_ROUND_DIFF_D : Field := ⟨.CNV, 0x110, 0, 1, 0, 32, .ro, 0x0, .any⟩
def Reg.CNV_ROUND_COUNT_CYCLES : Field := ⟨.CNV, 0x114, 0, 1, 0, 16, .ro, 0x0, .any⟩
def Reg.CNV_ROUND_COUNT_VOID : Field := ⟨.CNV, 0x114, 0, 1, 16, 16, .ro, 0x0, .any⟩
def Reg.CNV_TEMP_NOW : Field := ⟨.CNV, 0x118, 0, 1, 0, 16, .ro, 0x0, .any⟩
def Reg.CNV_TEMP_MEAN : Field := ⟨.CNV, 0x118, 0, 1, 16, 16, .ro, 0x0, .any⟩
def Reg.CNV_CONV_FAULT_FAULT : Field := ⟨.CNV, 0x11C, 0, 1, 0, 17, .w1c, 0x0, .any⟩
def Reg.CNV_UNCAL : Field := ⟨.CNV, 0x120, 0, 1, 0, 17, .ro, 0x1FFFF, .any⟩
def Reg.CNV_STEPS : Field := ⟨.CNV, 0x124, 0, 1, 0, 32, .ro, 0x0, .any⟩
def Reg.CNV_COEF_OFFSET : Field := ⟨.CNV, 0x200, 16, 17, 0, 32, .ro, 0x0, .any⟩
def Reg.CNV_COEF_GAIN : Field := ⟨.CNV, 0x204, 16, 17, 0, 32, .ro, 0x40000000, .any⟩
def Reg.CNV_COEF_SQ : Field := ⟨.CNV, 0x208, 16, 17, 0, 16, .ro, 0x0, .any⟩
def Reg.CNV_COEF_TEMP : Field := ⟨.CNV, 0x208, 16, 17, 16, 16, .ro, 0x8000, .any⟩
def Reg.CNV_COEF_PAD : Field := ⟨.CNV, 0x20C, 16, 17, 0, 32, .ro, 0x0, .any⟩

/-- The fields of this page. -/
def fieldsCNV : List Field :=
  [Reg.CNV_CTRL_UNPARK, Reg.CNV_STATUS_ROUND_ON, Reg.CNV_STATUS_POS, Reg.CNV_STATUS_STEP,
   Reg.CNV_STATUS_PARKED, Reg.CNV_ROUND_CTRL_EN, Reg.CNV_ROUND_CTRL_SPACING,
   Reg.CNV_ROUND_MASK_MASK, Reg.CNV_ROUND_LEN_OVERLAP, Reg.CNV_ROUND_LEN_MEAS,
   Reg.CNV_ROUND_TOL_TOL, Reg.CNV_ROUND_DIFF_D, Reg.CNV_ROUND_COUNT_CYCLES,
   Reg.CNV_ROUND_COUNT_VOID, Reg.CNV_TEMP_NOW, Reg.CNV_TEMP_MEAN, Reg.CNV_CONV_FAULT_FAULT,
   Reg.CNV_UNCAL, Reg.CNV_STEPS, Reg.CNV_COEF_OFFSET, Reg.CNV_COEF_GAIN, Reg.CNV_COEF_SQ,
   Reg.CNV_COEF_TEMP, Reg.CNV_COEF_PAD]

/-! Fields of the FLT pages. -/

def Reg.FLT_CTRL_SYNC_NOW : Field := ⟨.FLT, 0x4, 0, 1, 8, 1, .wo, 0x0, .any⟩
def Reg.FLT_CTRL_XF_CANCEL : Field := ⟨.FLT, 0x4, 0, 1, 9, 1, .wo, 0x0, .any⟩
def Reg.FLT_CTRL_LOAD_DEFAULT : Field := ⟨.FLT, 0x4, 0, 1, 10, 1, .wo, 0x0, .any⟩
def Reg.FLT_CTRL_DEF_BANK : Field := ⟨.FLT, 0x4, 0, 1, 11, 2, .wo, 0x0, .between 0 2⟩
def Reg.FLT_STATUS_RUN : Field := ⟨.FLT, 0x8, 0, 1, 0, 1, .ro, 0x0, .any⟩
def Reg.FLT_STATUS_IN_FORCE : Field := ⟨.FLT, 0x8, 0, 1, 1, 2, .ro, 0x0, .any⟩
def Reg.FLT_STATUS_FADING : Field := ⟨.FLT, 0x8, 0, 1, 3, 1, .ro, 0x0, .any⟩
def Reg.FLT_STATUS_FADE_TO : Field := ⟨.FLT, 0x8, 0, 1, 4, 2, .ro, 0x0, .any⟩
def Reg.FLT_STATUS_QUEUED : Field := ⟨.FLT, 0x8, 0, 1, 6, 1, .ro, 0x0, .any⟩
def Reg.FLT_STATUS_QUEUE_BANK : Field := ⟨.FLT, 0x8, 0, 1, 7, 2, .ro, 0x0, .any⟩
def Reg.FLT_STATUS_WARM : Field := ⟨.FLT, 0x8, 0, 1, 9, 1, .ro, 0x0, .any⟩
def Reg.FLT_STATUS_SETTLING : Field := ⟨.FLT, 0x8, 0, 1, 10, 1, .ro, 0x0, .any⟩
def Reg.FLT_CHAIN_EN : Field := ⟨.FLT, 0x100, 0, 1, 0, 1, .rws, 0x0, .any⟩
def Reg.FLT_CHAIN_D : Field := ⟨.FLT, 0x100, 0, 1, 1, 18, .rws, 0x1, .between 1 256000⟩
def Reg.FLT_CHAIN_BQ_EN : Field := ⟨.FLT, 0x100, 0, 1, 19, 1, .rws, 0x0, .any⟩
def Reg.FLT_BANK_SEL_BANK : Field := ⟨.FLT, 0x104, 0, 1, 0, 2, .rws, 0x0, .between 0 2⟩
def Reg.FLT_XFADE_LEN_LEN : Field := ⟨.FLT, 0x108, 0, 1, 0, 16, .rws, 0x40, .between 1 65535⟩
def Reg.FLT_SETTLE_US : Field := ⟨.FLT, 0x10C, 0, 1, 0, 24, .rws, 0x1388, .any⟩
def Reg.FLT_BQ_TAIL_LEN : Field := ⟨.FLT, 0x110, 0, 1, 0, 16, .rws, 0x40, .between 1 65535⟩
def Reg.FLT_SYNC_CFG_PIN_EN : Field := ⟨.FLT, 0x114, 0, 1, 0, 1, .rws, 0x0, .any⟩
def Reg.FLT_BANK_SHAPE_N : Field := ⟨.FLT, 0x120, 4, 3, 0, 10, .rw, 0x0, .between 0 512⟩
def Reg.FLT_BANK_SHAPE_GF : Field := ⟨.FLT, 0x120, 4, 3, 12, 17, .rw, 0x0, .any⟩
def Reg.FLT_PLAN_HB : Field := ⟨.FLT, 0x130, 0, 1, 0, 2, .ro, 0x0, .any⟩
def Reg.FLT_PLAN_K : Field := ⟨.FLT, 0x130, 0, 1, 2, 13, .ro, 0x1, .any⟩
def Reg.FLT_PLAN_M : Field := ⟨.FLT, 0x130, 0, 1, 15, 4, .ro, 0x1, .any⟩
def Reg.FLT_DELAY_TAU : Field := ⟨.FLT, 0x134, 0, 1, 0, 32, .ro, 0x0, .any⟩
def Reg.FLT_DELTA : Field := ⟨.FLT, 0x138, 0, 1, 0, 32, .ro, 0x0, .any⟩
def Reg.FLT_HIST_H : Field := ⟨.FLT, 0x13C, 0, 1, 0, 32, .ro, 0x1, .any⟩
def Reg.FLT_BQ_DELAY_D : Field := ⟨.FLT, 0x140, 0, 1, 0, 32, .ro, 0x0, .any⟩
def Reg.FLT_COUNTS_FADES : Field := ⟨.FLT, 0x144, 0, 1, 0, 16, .ro, 0x0, .any⟩
def Reg.FLT_COUNTS_REFUSED : Field := ⟨.FLT, 0x144, 0, 1, 16, 16, .ro, 0x0, .any⟩
def Reg.FLT_SYNCS : Field := ⟨.FLT, 0x148, 0, 1, 0, 32, .ro, 0x0, .any⟩
def Reg.FLT_THR_STATE_ACTIVE : Field := ⟨.FLT, 0x14C, 0, 1, 0, 32, .ro, 0x0, .any⟩
def Reg.FLT_THR_STICKY_ENTERED : Field := ⟨.FLT, 0x150, 0, 1, 0, 32, .w1c, 0x0, .any⟩
def Reg.FLT_HB_COEF_H : Field := ⟨.FLT, 0x180, 4, 17, 0, 32, .ro, 0x0, .any⟩
def Reg.FLT_THR_LEVEL1 : Field := ⟨.FLT, 0x200, 16, 16, 0, 24, .rws, 0x0, .any⟩
def Reg.FLT_THR_EN1 : Field := ⟨.FLT, 0x200, 16, 16, 24, 1, .rws, 0x0, .any⟩
def Reg.FLT_THR_BELOW1 : Field := ⟨.FLT, 0x200, 16, 16, 25, 1, .rws, 0x0, .any⟩
def Reg.FLT_THR_LEVEL2 : Field := ⟨.FLT, 0x204, 16, 16, 0, 24, .rws, 0x0, .any⟩
def Reg.FLT_THR_EN2 : Field := ⟨.FLT, 0x204, 16, 16, 24, 1, .rws, 0x0, .any⟩
def Reg.FLT_THR_BELOW2 : Field := ⟨.FLT, 0x204, 16, 16, 25, 1, .rws, 0x0, .any⟩
def Reg.FLT_THR_HYST1 : Field := ⟨.FLT, 0x208, 16, 16, 0, 16, .rws, 0x0, .any⟩
def Reg.FLT_THR_HYST2 : Field := ⟨.FLT, 0x208, 16, 16, 16, 16, .rws, 0x0, .any⟩
def Reg.FLT_THR_MIN1 : Field := ⟨.FLT, 0x20C, 16, 16, 0, 16, .rws, 0x1, .between 1 65535⟩
def Reg.FLT_THR_MIN2 : Field := ⟨.FLT, 0x20C, 16, 16, 16, 16, .rws, 0x1, .between 1 65535⟩

/-- The fields of this page. -/
def fieldsFLT : List Field :=
  [Reg.FLT_CTRL_SYNC_NOW, Reg.FLT_CTRL_XF_CANCEL, Reg.FLT_CTRL_LOAD_DEFAULT,
   Reg.FLT_CTRL_DEF_BANK, Reg.FLT_STATUS_RUN, Reg.FLT_STATUS_IN_FORCE, Reg.FLT_STATUS_FADING,
   Reg.FLT_STATUS_FADE_TO, Reg.FLT_STATUS_QUEUED, Reg.FLT_STATUS_QUEUE_BANK,
   Reg.FLT_STATUS_WARM, Reg.FLT_STATUS_SETTLING, Reg.FLT_CHAIN_EN, Reg.FLT_CHAIN_D,
   Reg.FLT_CHAIN_BQ_EN, Reg.FLT_BANK_SEL_BANK, Reg.FLT_XFADE_LEN_LEN, Reg.FLT_SETTLE_US,
   Reg.FLT_BQ_TAIL_LEN, Reg.FLT_SYNC_CFG_PIN_EN, Reg.FLT_BANK_SHAPE_N, Reg.FLT_BANK_SHAPE_GF,
   Reg.FLT_PLAN_HB, Reg.FLT_PLAN_K, Reg.FLT_PLAN_M, Reg.FLT_DELAY_TAU, Reg.FLT_DELTA,
   Reg.FLT_HIST_H, Reg.FLT_BQ_DELAY_D, Reg.FLT_COUNTS_FADES, Reg.FLT_COUNTS_REFUSED,
   Reg.FLT_SYNCS, Reg.FLT_THR_STATE_ACTIVE, Reg.FLT_THR_STICKY_ENTERED, Reg.FLT_HB_COEF_H,
   Reg.FLT_THR_LEVEL1, Reg.FLT_THR_EN1, Reg.FLT_THR_BELOW1, Reg.FLT_THR_LEVEL2, Reg.FLT_THR_EN2]
  ++ [Reg.FLT_THR_BELOW2, Reg.FLT_THR_HYST1, Reg.FLT_THR_HYST2, Reg.FLT_THR_MIN1, Reg.FLT_THR_MIN2]

/-! Fields of the TAL page. -/

def Reg.TAL_CTRL_RF_SNAP : Field := ⟨.TAL, 0x4, 0, 1, 8, 1, .wo, 0x0, .any⟩
def Reg.TAL_CTRL_RF_CLEAR : Field := ⟨.TAL, 0x4, 0, 1, 9, 1, .wo, 0x0, .any⟩
def Reg.TAL_CTRL_PM_SNAP : Field := ⟨.TAL, 0x4, 0, 1, 10, 1, .wo, 0x0, .any⟩
def Reg.TAL_CTRL_PM_CLEAR : Field := ⟨.TAL, 0x4, 0, 1, 11, 1, .wo, 0x0, .any⟩
def Reg.TAL_CTRL_UNITS : Field := ⟨.TAL, 0x4, 0, 1, 16, 16, .wo, 0x0, .any⟩
def Reg.TAL_STATUS_OPEN : Field := ⟨.TAL, 0x8, 0, 1, 0, 16, .ro, 0x0, .any⟩
def Reg.TAL_STATUS_EXPORTING : Field := ⟨.TAL, 0x8, 0, 1, 16, 1, .ro, 0x0, .any⟩
def Reg.TAL_RF_CFG_CLR : Field := ⟨.TAL, 0xD00, 0, 1, 0, 1, .rws, 0x0, .any⟩
def Reg.TAL_WIN_COUNTS_CLOSED : Field := ⟨.TAL, 0xD04, 0, 1, 0, 16, .ro, 0x0, .any⟩
def Reg.TAL_WIN_COUNTS_IGNORED : Field := ⟨.TAL, 0xD04, 0, 1, 16, 16, .ro, 0x0, .any⟩
def Reg.TAL_EXPORTS_RF : Field := ⟨.TAL, 0xD08, 0, 1, 0, 16, .ro, 0x0, .any⟩
def Reg.TAL_EXPORTS_PM : Field := ⟨.TAL, 0xD08, 0, 1, 16, 16, .ro, 0x0, .any⟩
def Reg.TAL_RF_SAT_SAT : Field := ⟨.TAL, 0xD20, 4, 8, 0, 32, .w1c, 0x0, .any⟩
def Reg.TAL_PM_EN : Field := ⟨.TAL, 0xD40, 12, 16, 0, 1, .rws, 0x0, .any⟩
def Reg.TAL_PM_CHAN : Field := ⟨.TAL, 0xD40, 12, 16, 1, 8, .rws, 0x0, .any⟩
def Reg.TAL_PM_SHIFT : Field := ⟨.TAL, 0xD40, 12, 16, 9, 5, .rws, 0x10, .between 0 16⟩
def Reg.TAL_PM_EXP : Field := ⟨.TAL, 0xD40, 12, 16, 14, 1, .rws, 0x0, .any⟩
def Reg.TAL_PM_CLR : Field := ⟨.TAL, 0xD40, 12, 16, 15, 1, .rws, 0x0, .any⟩
def Reg.TAL_TCH_STAT_EN : Field := ⟨.TAL, 0x100, 12, 256, 0, 1, .rws, 0x0, .any⟩
def Reg.TAL_TCH_WSET : Field := ⟨.TAL, 0x100, 12, 256, 1, 4, .rws, 0x0, .any⟩
def Reg.TAL_TCH_HIST_EN : Field := ⟨.TAL, 0x100, 12, 256, 5, 1, .rws, 0x0, .any⟩
def Reg.TAL_TCH_RF_EN : Field := ⟨.TAL, 0x100, 12, 256, 6, 1, .rws, 0x0, .any⟩
def Reg.TAL_TCH_RF_EXP : Field := ⟨.TAL, 0x100, 12, 256, 7, 1, .rws, 0x0, .any⟩
def Reg.TAL_TCH_EXCL : Field := ⟨.TAL, 0x100, 12, 256, 8, 8, .rws, 0x40, .any⟩
def Reg.TAL_TCH_H_SHIFT : Field := ⟨.TAL, 0x100, 12, 256, 16, 5, .rws, 0x10, .between 0 16⟩
def Reg.TAL_TCH_H_LO : Field := ⟨.TAL, 0x104, 12, 256, 0, 24, .rws, 0x800000, .any⟩
def Reg.TAL_TCH_RF_LO : Field := ⟨.TAL, 0x108, 12, 256, 0, 24, .rws, 0x800000, .any⟩
def Reg.TAL_TCH_RF_SHIFT : Field := ⟨.TAL, 0x108, 12, 256, 24, 5, .rws, 0x12, .between 0 18⟩
def Reg.TAL_TCH_RF_HYST : Field := ⟨.TAL, 0x108, 12, 256, 29, 3, .rws, 0x0, .any⟩
def Reg.TAL_PM_P_LO : Field := ⟨.TAL, 0xD44, 12, 16, 0, 24, .rws, 0x800000, .any⟩
def Reg.TAL_PM_CAPTURES : Field := ⟨.TAL, 0xD48, 12, 16, 0, 32, .ro, 0x0, .any⟩

/-- The fields of this page. -/
def fieldsTAL : List Field :=
  [Reg.TAL_CTRL_RF_SNAP, Reg.TAL_CTRL_RF_CLEAR, Reg.TAL_CTRL_PM_SNAP, Reg.TAL_CTRL_PM_CLEAR,
   Reg.TAL_CTRL_UNITS, Reg.TAL_STATUS_OPEN, Reg.TAL_STATUS_EXPORTING, Reg.TAL_RF_CFG_CLR,
   Reg.TAL_WIN_COUNTS_CLOSED, Reg.TAL_WIN_COUNTS_IGNORED, Reg.TAL_EXPORTS_RF,
   Reg.TAL_EXPORTS_PM, Reg.TAL_RF_SAT_SAT, Reg.TAL_PM_EN, Reg.TAL_PM_CHAN, Reg.TAL_PM_SHIFT,
   Reg.TAL_PM_EXP, Reg.TAL_PM_CLR, Reg.TAL_TCH_STAT_EN, Reg.TAL_TCH_WSET, Reg.TAL_TCH_HIST_EN,
   Reg.TAL_TCH_RF_EN, Reg.TAL_TCH_RF_EXP, Reg.TAL_TCH_EXCL, Reg.TAL_TCH_H_SHIFT,
   Reg.TAL_TCH_H_LO, Reg.TAL_TCH_RF_LO, Reg.TAL_TCH_RF_SHIFT, Reg.TAL_TCH_RF_HYST,
   Reg.TAL_PM_P_LO, Reg.TAL_PM_CAPTURES]

/-! Fields of the CAP pages. -/

def Reg.CAP_CTRL_ARM : Field := ⟨.CAP, 0x4, 0, 1, 8, 1, .wo, 0x0, .any⟩
def Reg.CAP_CTRL_DISARM : Field := ⟨.CAP, 0x4, 0, 1, 9, 1, .wo, 0x0, .any⟩
def Reg.CAP_CTRL_TRIG : Field := ⟨.CAP, 0x4, 0, 1, 10, 1, .wo, 0x0, .any⟩
def Reg.CAP_CTRL_RELEASE : Field := ⟨.CAP, 0x4, 0, 1, 11, 1, .wo, 0x0, .any⟩
def Reg.CAP_CTRL_START : Field := ⟨.CAP, 0x4, 0, 1, 12, 1, .wo, 0x0, .any⟩
def Reg.CAP_CTRL_STOP : Field := ⟨.CAP, 0x4, 0, 1, 13, 1, .wo, 0x0, .any⟩
def Reg.CAP_CTRL_REWIND : Field := ⟨.CAP, 0x4, 0, 1, 14, 1, .wo, 0x0, .any⟩
def Reg.CAP_CTRL_MARK_HERE : Field := ⟨.CAP, 0x4, 0, 1, 15, 1, .wo, 0x0, .any⟩
def Reg.CAP_STATUS_STATE : Field := ⟨.CAP, 0x8, 0, 1, 0, 2, .ro, 0x0, .any⟩
def Reg.CAP_STATUS_RING : Field := ⟨.CAP, 0x8, 0, 1, 2, 2, .ro, 0x0, .any⟩
def Reg.CAP_STATUS_HELD : Field := ⟨.CAP, 0x8, 0, 1, 4, 1, .ro, 0x0, .any⟩
def Reg.CAP_STATUS_PENDING : Field := ⟨.CAP, 0x8, 0, 1, 5, 1, .ro, 0x0, .any⟩
def Reg.CAP_STATUS_MARK_VALID : Field := ⟨.CAP, 0x8, 0, 1, 6, 1, .ro, 0x1, .any⟩
def Reg.CAP_STATUS_RD_EMPTY : Field := ⟨.CAP, 0x8, 0, 1, 7, 1, .ro, 0x0, .any⟩
def Reg.CAP_STATUS_RD_ERR : Field := ⟨.CAP, 0x8, 0, 1, 8, 1, .ro, 0x0, .any⟩
def Reg.CAP_CAP_CFG_EN : Field := ⟨.CAP, 0x100, 0, 1, 0, 1, .rws, 0x0, .any⟩
def Reg.CAP_CAP_CFG_AUTO : Field := ⟨.CAP, 0x100, 0, 1, 1, 1, .rws, 0x0, .any⟩
def Reg.CAP_CAP_CFG_STREAM : Field := ⟨.CAP, 0x100, 0, 1, 2, 1, .rws, 0x0, .any⟩
def Reg.CAP_CAP_CFG_KEEP : Field := ⟨.CAP, 0x100, 0, 1, 3, 1, .rws, 0x0, .any⟩
def Reg.CAP_CAP_CFG_GROUP : Field := ⟨.CAP, 0x100, 0, 1, 4, 4, .rws, 0x0, .any⟩
def Reg.CAP_CAP_CFG_CHAN : Field := ⟨.CAP, 0x100, 0, 1, 16, 16, .rws, 0x0, .any⟩
def Reg.CAP_RING_BASE_BASE : Field := ⟨.CAP, 0x104, 0, 1, 0, 24, .rws, 0x0, .any⟩
def Reg.CAP_RING_SLOTS_C : Field := ⟨.CAP, 0x108, 0, 1, 0, 32, .rws, 0x400, .between 16 0xFFFFFFFF⟩
def Reg.CAP_PRE_A : Field := ⟨.CAP, 0x10C, 0, 1, 0, 32, .rws, 0x100, .any⟩
def Reg.CAP_POST_B : Field := ⟨.CAP, 0x110, 0, 1, 0, 32, .rws, 0x100, .between 1 0xFFFFFFFF⟩
def Reg.CAP_REARM_SLOTS : Field := ⟨.CAP, 0x114, 0, 1, 0, 32, .rws, 0x0, .any⟩
def Reg.CAP_TERM_SRC : Field := ⟨.CAP, 0x120, 4, 4, 0, 3, .rws, 0x0, .any⟩
def Reg.CAP_TERM_SEL : Field := ⟨.CAP, 0x120, 4, 4, 3, 9, .rws, 0x0, .any⟩
def Reg.CAP_TERM_QUAL : Field := ⟨.CAP, 0x120, 4, 4, 12, 3, .rws, 0x0, .any⟩
def Reg.CAP_TERM_QSEL : Field := ⟨.CAP, 0x120, 4, 4, 15, 9, .rws, 0x0, .any⟩
def Reg.CAP_TRIG_CFG_BEAD_EN : Field := ⟨.CAP, 0x130, 0, 1, 0, 1, .rws, 0x1, .any⟩
def Reg.CAP_TRIG_CFG_NET_OUT : Field := ⟨.CAP, 0x130, 0, 1, 1, 1, .rws, 0x0, .any⟩
def Reg.CAP_TRIG_CFG_NET_ID : Field := ⟨.CAP, 0x130, 0, 1, 2, 8, .rws, 0x0, .any⟩
def Reg.CAP_WR_LO_WR : Field := ⟨.CAP, 0x140, 0, 1, 0, 32, .ro, 0x0, .any⟩
def Reg.CAP_WR_HI_WR : Field := ⟨.CAP, 0x144, 0, 1, 0, 16, .ro, 0x0, .any⟩
def Reg.CAP_OLDEST_LO_OLDEST : Field := ⟨.CAP, 0x148, 0, 1, 0, 32, .ro, 0x0, .any⟩
def Reg.CAP_OLDEST_HI_OLDEST : Field := ⟨.CAP, 0x14C, 0, 1, 0, 16, .ro, 0x0, .any⟩
def Reg.CAP_RUN_LO_RUN : Field := ⟨.CAP, 0x150, 0, 1, 0, 32, .ro, 0x0, .any⟩
def Reg.CAP_RUN_HI_RUN : Field := ⟨.CAP, 0x154, 0, 1, 0, 16, .ro, 0x0, .any⟩
def Reg.CAP_JRUN_LO_JRUN : Field := ⟨.CAP, 0x158, 0, 1, 0, 32, .ro, 0x0, .any⟩
def Reg.CAP_JRUN_HI_JRUN : Field := ⟨.CAP, 0x15C, 0, 1, 0, 16, .ro, 0x0, .any⟩
def Reg.CAP_MARK_LO_MARK : Field := ⟨.CAP, 0x160, 0, 1, 0, 32, .rw, 0x0, .any⟩
def Reg.CAP_MARK_HI_MARK : Field := ⟨.CAP, 0x164, 0, 1, 0, 16, .rw, 0x0, .any⟩
def Reg.CAP_RD_LO_SLOT : Field := ⟨.CAP, 0x168, 0, 1, 0, 32, .ro, 0x0, .any⟩
def Reg.CAP_RD_HI_SLOT : Field := ⟨.CAP, 0x16C, 0, 1, 0, 16, .ro, 0x0, .any⟩
def Reg.CAP_RD_HI_WORD : Field := ⟨.CAP, 0x16C, 0, 1, 16, 4, .ro, 0x0, .any⟩
def Reg.CAP_RD_DATA_DATA : Field := ⟨.CAP, 0x170, 0, 1, 0, 32, .ro, 0x0, .any⟩
def Reg.CAP_LAST_JT_LO_JT : Field := ⟨.CAP, 0x178, 0, 1, 0, 32, .ro, 0x0, .any⟩
def Reg.CAP_LAST_JT_HI_JT : Field := ⟨.CAP, 0x17C, 0, 1, 0, 16, .ro, 0x0, .any⟩
def Reg.CAP_COUNTS_CAPTURES : Field := ⟨.CAP, 0x180, 0, 1, 0, 16, .ro, 0x0, .any⟩
def Reg.CAP_COUNTS_IGNORED : Field := ⟨.CAP, 0x180, 0, 1, 16, 16, .ro, 0x0, .any⟩
def Reg.CAP_PAUSED_SLOTS_SLOTS : Field := ⟨.CAP, 0x184, 0, 1, 0, 32, .ro, 0x0, .any⟩

/-- The fields of this page. -/
def fieldsCAP : List Field :=
  [Reg.CAP_CTRL_ARM, Reg.CAP_CTRL_DISARM, Reg.CAP_CTRL_TRIG, Reg.CAP_CTRL_RELEASE,
   Reg.CAP_CTRL_START, Reg.CAP_CTRL_STOP, Reg.CAP_CTRL_REWIND, Reg.CAP_CTRL_MARK_HERE,
   Reg.CAP_STATUS_STATE, Reg.CAP_STATUS_RING, Reg.CAP_STATUS_HELD, Reg.CAP_STATUS_PENDING,
   Reg.CAP_STATUS_MARK_VALID, Reg.CAP_STATUS_RD_EMPTY, Reg.CAP_STATUS_RD_ERR,
   Reg.CAP_CAP_CFG_EN, Reg.CAP_CAP_CFG_AUTO, Reg.CAP_CAP_CFG_STREAM, Reg.CAP_CAP_CFG_KEEP,
   Reg.CAP_CAP_CFG_GROUP, Reg.CAP_CAP_CFG_CHAN, Reg.CAP_RING_BASE_BASE, Reg.CAP_RING_SLOTS_C,
   Reg.CAP_PRE_A, Reg.CAP_POST_B, Reg.CAP_REARM_SLOTS, Reg.CAP_TERM_SRC, Reg.CAP_TERM_SEL,
   Reg.CAP_TERM_QUAL, Reg.CAP_TERM_QSEL, Reg.CAP_TRIG_CFG_BEAD_EN, Reg.CAP_TRIG_CFG_NET_OUT,
   Reg.CAP_TRIG_CFG_NET_ID, Reg.CAP_WR_LO_WR, Reg.CAP_WR_HI_WR, Reg.CAP_OLDEST_LO_OLDEST,
   Reg.CAP_OLDEST_HI_OLDEST, Reg.CAP_RUN_LO_RUN, Reg.CAP_RUN_HI_RUN, Reg.CAP_JRUN_LO_JRUN]
  ++ [Reg.CAP_JRUN_HI_JRUN, Reg.CAP_MARK_LO_MARK, Reg.CAP_MARK_HI_MARK, Reg.CAP_RD_LO_SLOT,
   Reg.CAP_RD_HI_SLOT, Reg.CAP_RD_HI_WORD, Reg.CAP_RD_DATA_DATA, Reg.CAP_LAST_JT_LO_JT,
   Reg.CAP_LAST_JT_HI_JT, Reg.CAP_COUNTS_CAPTURES, Reg.CAP_COUNTS_IGNORED,
   Reg.CAP_PAUSED_SLOTS_SLOTS]

/-! Fields of the CMP pages. -/

def Reg.CMP_CTRL_GO : Field := ⟨.CMP, 0x4, 0, 1, 8, 1, .wo, 0x0, .any⟩
def Reg.CMP_CTRL_CANCEL : Field := ⟨.CMP, 0x4, 0, 1, 9, 1, .wo, 0x0, .any⟩
def Reg.CMP_CTRL_FLUSH : Field := ⟨.CMP, 0x4, 0, 1, 10, 1, .wo, 0x0, .any⟩
def Reg.CMP_STATUS_RUN : Field := ⟨.CMP, 0x8, 0, 1, 0, 1, .ro, 0x0, .any⟩
def Reg.CMP_STATUS_RAWONLY : Field := ⟨.CMP, 0x8, 0, 1, 1, 1, .ro, 0x0, .any⟩
def Reg.CMP_STATUS_BUSY : Field := ⟨.CMP, 0x8, 0, 1, 2, 1, .ro, 0x0, .any⟩
def Reg.CMP_STATUS_HOST_BUSY : Field := ⟨.CMP, 0x8, 0, 1, 3, 1, .ro, 0x0, .any⟩
def Reg.CMP_STATUS_HELD : Field := ⟨.CMP, 0x8, 0, 1, 4, 1, .ro, 0x0, .any⟩
def Reg.CMP_ENG_CFG_EN : Field := ⟨.CMP, 0x100, 0, 1, 0, 1, .rws, 0x0, .any⟩
def Reg.CMP_JOB_OP_OP : Field := ⟨.CMP, 0x180, 0, 1, 0, 2, .rw, 0x0, .between 0 2⟩
def Reg.CMP_JOB_OP_PROF : Field := ⟨.CMP, 0x180, 0, 1, 2, 2, .rw, 0x0, .any⟩
def Reg.CMP_JOB_OP_NCH : Field := ⟨.CMP, 0x180, 0, 1, 4, 9, .rw, 0x1, .between 1 256⟩
def Reg.CMP_JOB_SRC_LO_SRC : Field := ⟨.CMP, 0x184, 0, 1, 0, 32, .rw, 0x0, .any⟩
def Reg.CMP_JOB_SRC_HI_SRC : Field := ⟨.CMP, 0x188, 0, 1, 0, 2, .rw, 0x0, .any⟩
def Reg.CMP_JOB_SRC_LEN_LEN : Field := ⟨.CMP, 0x18C, 0, 1, 0, 22, .rw, 0x0, .between 4 2097152⟩
def Reg.CMP_JOB_DST_LO_DST : Field := ⟨.CMP, 0x190, 0, 1, 0, 32, .rw, 0x0, .any⟩
def Reg.CMP_JOB_DST_HI_DST : Field := ⟨.CMP, 0x194, 0, 1, 0, 2, .rw, 0x0, .any⟩
def Reg.CMP_JOB_DST_LEN_LEN : Field := ⟨.CMP, 0x198, 0, 1, 0, 22, .rw, 0x0, .between 16 2097152⟩
def Reg.CMP_JOB_LIMIT_LIMIT : Field := ⟨.CMP, 0x19C, 0, 1, 0, 21, .rw, 0x100000, .between 4 1048576⟩
def Reg.CMP_JOB_RESULT_RESULT : Field := ⟨.CMP, 0x1A0, 0, 1, 0, 4, .ro, 0x0, .any⟩
def Reg.CMP_JOB_RESULT_DONE : Field := ⟨.CMP, 0x1A0, 0, 1, 4, 1, .w1c, 0x0, .any⟩
def Reg.CMP_JOB_RESULT_FRAME : Field := ⟨.CMP, 0x1A0, 0, 1, 16, 16, .ro, 0x0, .any⟩
def Reg.CMP_JOB_OUT_BYTES : Field := ⟨.CMP, 0x1A4, 0, 1, 0, 32, .ro, 0x0, .any⟩
def Reg.CMP_JOB_ERR_AT_OFFSET : Field := ⟨.CMP, 0x1A8, 0, 1, 0, 32, .ro, 0x0, .any⟩
def Reg.CMP_IN_BYTES_LO_IN : Field := ⟨.CMP, 0x1C0, 0, 1, 0, 32, .ro, 0x0, .any⟩
def Reg.CMP_IN_BYTES_HI_IN : Field := ⟨.CMP, 0x1C4, 0, 1, 0, 32, .ro, 0x0, .any⟩
def Reg.CMP_OUT_BYTES_LO_OUT : Field := ⟨.CMP, 0x1C8, 0, 1, 0, 32, .ro, 0x0, .any⟩
def Reg.CMP_OUT_BYTES_HI_OUT : Field := ⟨.CMP, 0x1CC, 0, 1, 0, 32, .ro, 0x0, .any⟩
def Reg.CMP_FRAMES : Field := ⟨.CMP, 0x1D0, 0, 1, 0, 32, .ro, 0x0, .any⟩
def Reg.CMP_RAW_FRAMES_RAW : Field := ⟨.CMP, 0x1D4, 0, 1, 0, 32, .ro, 0x0, .any⟩
def Reg.CMP_FAILS_NOSPACE : Field := ⟨.CMP, 0x1D8, 0, 1, 0, 16, .ro, 0x0, .any⟩
def Reg.CMP_FAILS_DECODE : Field := ⟨.CMP, 0x1D8, 0, 1, 16, 16, .ro, 0x0, .any⟩
def Reg.CMP_VERIFY_FAILS_VERIFY : Field := ⟨.CMP, 0x1DC, 0, 1, 0, 32, .ro, 0x0, .any⟩
def Reg.CMP_PROF_METHOD : Field := ⟨.CMP, 0x110, 16, 4, 0, 2, .rws, 0x0, .between 0 2⟩
def Reg.CMP_PROF_VERIFY : Field := ⟨.CMP, 0x110, 16, 4, 2, 1, .rws, 0x1, .any⟩
def Reg.CMP_PROF_MAP_EN : Field := ⟨.CMP, 0x110, 16, 4, 3, 1, .rws, 0x0, .any⟩
def Reg.CMP_PROF_FSLOTS : Field := ⟨.CMP, 0x114, 16, 4, 0, 13, .rws, 0x100, .between 1 4096⟩
def Reg.CMP_PROF_FKIB : Field := ⟨.CMP, 0x114, 16, 4, 16, 9, .rws, 0x40, .between 4 256⟩
def Reg.CMP_PROF_SEG_KIB : Field := ⟨.CMP, 0x118, 16, 4, 0, 11, .rws, 0x100, .between 1 1024⟩
def Reg.CMP_MAP : Field := ⟨.CMP, 0x800, 4, 256, 0, 32, .rws, 0x0, .any⟩

/-- The fields of this page. -/
def fieldsCMP : List Field :=
  [Reg.CMP_CTRL_GO, Reg.CMP_CTRL_CANCEL, Reg.CMP_CTRL_FLUSH, Reg.CMP_STATUS_RUN,
   Reg.CMP_STATUS_RAWONLY, Reg.CMP_STATUS_BUSY, Reg.CMP_STATUS_HOST_BUSY, Reg.CMP_STATUS_HELD,
   Reg.CMP_ENG_CFG_EN, Reg.CMP_JOB_OP_OP, Reg.CMP_JOB_OP_PROF, Reg.CMP_JOB_OP_NCH,
   Reg.CMP_JOB_SRC_LO_SRC, Reg.CMP_JOB_SRC_HI_SRC, Reg.CMP_JOB_SRC_LEN_LEN,
   Reg.CMP_JOB_DST_LO_DST, Reg.CMP_JOB_DST_HI_DST, Reg.CMP_JOB_DST_LEN_LEN,
   Reg.CMP_JOB_LIMIT_LIMIT, Reg.CMP_JOB_RESULT_RESULT, Reg.CMP_JOB_RESULT_DONE,
   Reg.CMP_JOB_RESULT_FRAME, Reg.CMP_JOB_OUT_BYTES, Reg.CMP_JOB_ERR_AT_OFFSET,
   Reg.CMP_IN_BYTES_LO_IN, Reg.CMP_IN_BYTES_HI_IN, Reg.CMP_OUT_BYTES_LO_OUT,
   Reg.CMP_OUT_BYTES_HI_OUT, Reg.CMP_FRAMES, Reg.CMP_RAW_FRAMES_RAW, Reg.CMP_FAILS_NOSPACE,
   Reg.CMP_FAILS_DECODE, Reg.CMP_VERIFY_FAILS_VERIFY, Reg.CMP_PROF_METHOD, Reg.CMP_PROF_VERIFY,
   Reg.CMP_PROF_MAP_EN, Reg.CMP_PROF_FSLOTS, Reg.CMP_PROF_FKIB, Reg.CMP_PROF_SEG_KIB,
   Reg.CMP_MAP]

/-! Fields of the CRY page. -/

def Reg.CRY_CTRL_CLOSE_ALL : Field := ⟨.CRY, 0x4, 0, 1, 8, 1, .wo, 0x0, .any⟩
def Reg.CRY_STATUS_LEVEL : Field := ⟨.CRY, 0x8, 0, 1, 0, 3, .ro, 0x0, .any⟩
def Reg.CRY_STATUS_SHED : Field := ⟨.CRY, 0x8, 0, 1, 3, 1, .ro, 0x0, .any⟩
def Reg.CRY_STATUS_GAPFULL : Field := ⟨.CRY, 0x8, 0, 1, 4, 1, .ro, 0x0, .any⟩
def Reg.CRY_STATUS_BACKPRESS : Field := ⟨.CRY, 0x8, 0, 1, 5, 1, .ro, 0x0, .any⟩
def Reg.CRY_SPILL_SIZE_SIZE : Field := ⟨.CRY, 0x100, 0, 1, 0, 32, .ro, 0x0, .any⟩
def Reg.CRY_RESERVED_RES : Field := ⟨.CRY, 0x104, 0, 1, 0, 32, .ro, 0x0, .any⟩
def Reg.CRY_POOL_FREE_FREE : Field := ⟨.CRY, 0x108, 0, 1, 0, 32, .ro, 0x0, .any⟩
def Reg.CRY_GAP_CFG_KIB : Field := ⟨.CRY, 0x10C, 0, 1, 0, 16, .rws, 0x400, .between 64 65535⟩
def Reg.CRY_DEGRADE_T2 : Field := ⟨.CRY, 0x110, 0, 1, 0, 7, .rws, 0x32, .between 10 99⟩
def Reg.CRY_DEGRADE_T3 : Field := ⟨.CRY, 0x110, 0, 1, 8, 7, .rws, 0x50, .any⟩
def Reg.CRY_ACK_CFG_TIMEOUT : Field := ⟨.CRY, 0x114, 0, 1, 0, 16, .rws, 0x64, .between 10 10000⟩
def Reg.CRY_SESSION : Field := ⟨.CRY, 0x118, 0, 1, 0, 32, .ro, 0x0, .any⟩
def Reg.CRY_HOST_ACK_SRC_SRC : Field := ⟨.CRY, 0x11C, 0, 1, 0, 16, .rw, 0x0, .any⟩
def Reg.CRY_HOST_ACK_LO_A : Field := ⟨.CRY, 0x120, 0, 1, 0, 32, .wo, 0x0, .any⟩
def Reg.CRY_HOST_ACK_HI_A : Field := ⟨.CRY, 0x124, 0, 1, 0, 16, .wo, 0x0, .any⟩
def Reg.CRY_HOST_ACK_HI_STREAM : Field := ⟨.CRY, 0x124, 0, 1, 16, 6, .wo, 0x0, .any⟩
def Reg.CRY_COUNTS_ACK_BAD : Field := ⟨.CRY, 0x130, 0, 1, 0, 16, .ro, 0x0, .any⟩
def Reg.CRY_COUNTS_REPLAYS : Field := ⟨.CRY, 0x130, 0, 1, 16, 16, .ro, 0x0, .any⟩
def Reg.CRY_FWD_CFG_MIB : Field := ⟨.CRY, 0x134, 0, 1, 0, 16, .rws, 0x0, .any⟩
def Reg.CRY_FWD_CFG_VERIFY : Field := ⟨.CRY, 0x134, 0, 1, 16, 1, .rws, 0x0, .any⟩
def Reg.CRY_FWD_CFG_QUEUE : Field := ⟨.CRY, 0x134, 0, 1, 17, 4, .rws, 0x0, .any⟩
def Reg.CRY_FWD_CFG_TO_HOST : Field := ⟨.CRY, 0x134, 0, 1, 21, 1, .rws, 0x0, .any⟩
def Reg.CRY_FWD_DROPS_DROPS : Field := ⟨.CRY, 0x138, 0, 1, 0, 32, .ro, 0x0, .any⟩
def Reg.CRY_QCFG_BASE : Field := ⟨.CRY, 0x200, 16, 16, 0, 10, .rws, 0x0, .between 0 511⟩
def Reg.CRY_QCFG_SIZE : Field := ⟨.CRY, 0x200, 16, 16, 10, 10, .rws, 0x0, .between 1 512⟩
def Reg.CRY_QCFG_EN : Field := ⟨.CRY, 0x200, 16, 16, 20, 1, .rws, 0x0, .any⟩
def Reg.CRY_QCFG_NOTICE : Field := ⟨.CRY, 0x200, 16, 16, 21, 1, .rws, 0x0, .any⟩
def Reg.CRY_QPOP_DATA : Field := ⟨.CRY, 0x400, 4, 16, 0, 32, .ro, 0x0, .any⟩
def Reg.CRY_S_CFG_EN : Field := ⟨.CRY, 0x1000, 64, 64, 0, 1, .rws, 0x0, .any⟩
def Reg.CRY_S_CFG_KEPT : Field := ⟨.CRY, 0x1000, 64, 64, 1, 1, .rws, 0x0, .any⟩
def Reg.CRY_S_CFG_SRC : Field := ⟨.CRY, 0x1000, 64, 64, 2, 3, .rws, 0x0, .between 0 5⟩
def Reg.CRY_S_CFG_DEST : Field := ⟨.CRY, 0x1000, 64, 64, 5, 1, .rws, 0x0, .any⟩
def Reg.CRY_S_CFG_QUEUE : Field := ⟨.CRY, 0x1000, 64, 64, 6, 4, .rws, 0x0, .any⟩
def Reg.CRY_S_CFG_PCP : Field := ⟨.CRY, 0x1000, 64, 64, 10, 3, .rws, 0x0, .any⟩
def Reg.CRY_S_CFG_ENGINE : Field := ⟨.CRY, 0x1000, 64, 64, 13, 2, .rws, 0x0, .any⟩
def Reg.CRY_S_CFG_PROF : Field := ⟨.CRY, 0x1000, 64, 64, 15, 2, .rws, 0x0, .any⟩
def Reg.CRY_S_CFG_COMP : Field := ⟨.CRY, 0x1000, 64, 64, 17, 1, .rws, 0x0, .any⟩
def Reg.CRY_S_CFG_FB_PROF : Field := ⟨.CRY, 0x1000, 64, 64, 18, 2, .rws, 0x0, .any⟩
def Reg.CRY_S_CFG_FB_EN : Field := ⟨.CRY, 0x1000, 64, 64, 20, 1, .rws, 0x0, .any⟩
def Reg.CRY_S_CFG_SUM_EN : Field := ⟨.CRY, 0x1000, 64, 64, 21, 1, .rws, 0x0, .any⟩
def Reg.CRY_S_SEL_CHAN : Field := ⟨.CRY, 0x1004, 64, 64, 0, 16, .rws, 0x0, .any⟩
def Reg.CRY_S_SEL_GROUP : Field := ⟨.CRY, 0x1004, 64, 64, 16, 4, .rws, 0x0, .any⟩
def Reg.CRY_S_BLOCK_SIZE : Field := ⟨.CRY, 0x1008, 64, 64, 0, 16, .rws, 0x100, .between 1 65535⟩
def Reg.CRY_S_OUTAGE_MS : Field := ⟨.CRY, 0x100C, 64, 64, 0, 32, .rws, 0x0, .any⟩
def Reg.CRY_S_RATE_BPS : Field := ⟨.CRY, 0x1010, 64, 64, 0, 32, .rws, 0x0, .any⟩
def Reg.CRY_S_RESERVE_RES : Field := ⟨.CRY, 0x1014, 64, 64, 0, 32, .ro, 0x0, .any⟩
def Reg.CRY_S_NEXT_LO_N : Field := ⟨.CRY, 0x1018, 64, 64, 0, 32, .ro, 0x0, .any⟩
def Reg.CRY_S_NEXT_HI_N : Field := ⟨.CRY, 0x101C, 64, 64, 0, 16, .ro, 0x0, .any⟩
def Reg.CRY_S_ACKED_LO_A : Field := ⟨.CRY, 0x1020, 64, 64, 0, 32, .ro, 0x0, .any⟩
def Reg.CRY_S_ACKED_HI_A : Field := ⟨.CRY, 0x1024, 64, 64, 0, 16, .ro, 0x0, .any⟩
def Reg.CRY_S_STATE_LEVEL : Field := ⟨.CRY, 0x1028, 64, 64, 0, 3, .ro, 0x0, .any⟩
def Reg.CRY_S_STATE_OVER : Field := ⟨.CRY, 0x1028, 64, 64, 3, 1, .ro, 0x0, .any⟩
def Reg.CRY_S_STATE_DRAINING : Field := ⟨.CRY, 0x1028, 64, 64, 4, 1, .ro, 0x0, .any⟩
def Reg.CRY_S_STATE_REPLAYING : Field := ⟨.CRY, 0x1028, 64, 64, 5, 1, .ro, 0x0, .any⟩
def Reg.CRY_S_STATE_OVERRATE : Field := ⟨.CRY, 0x1028, 64, 64, 6, 1, .ro, 0x0, .any⟩
def Reg.CRY_S_STATE_GEN : Field := ⟨.CRY, 0x1028, 64, 64, 8, 8, .ro, 0x0, .any⟩
def Reg.CRY_S_OUTAGE_NOW_MS : Field := ⟨.CRY, 0x102C, 64, 64, 0, 32, .ro, 0x0, .any⟩
def Reg.CRY_S_USED_USED : Field := ⟨.CRY, 0x1030, 64, 64, 0, 32, .ro, 0x0, .any⟩
def Reg.CRY_S_LOST_BLOCKS_BLOCKS : Field := ⟨.CRY, 0x1034, 64, 64, 0, 32, .ro, 0x0, .any⟩
def Reg.CRY_S_LOST_SAMPLES_SAMPLES : Field := ⟨.CRY, 0x1038, 64, 64, 0, 32, .ro, 0x0, .any⟩
def Reg.CRY_HOST_REPLAY_LO_A : Field := ⟨.CRY, 0x128, 0, 1, 0, 32, .wo, 0x0, .any⟩
def Reg.CRY_HOST_REPLAY_HI_A : Field := ⟨.CRY, 0x12C, 0, 1, 0, 16, .wo, 0x0, .any⟩
def Reg.CRY_HOST_REPLAY_HI_STREAM : Field := ⟨.CRY, 0x12C, 0, 1, 16, 6, .wo, 0x0, .any⟩
def Reg.CRY_QLEVEL_LEVEL : Field := ⟨.CRY, 0x204, 16, 16, 0, 18, .rws, 0x400, .between 1 131072⟩
def Reg.CRY_QLEVEL_STALL : Field := ⟨.CRY, 0x204, 16, 16, 18, 14, .rws, 0x40, .any⟩
def Reg.CRY_QSTAT_DEPTH : Field := ⟨.CRY, 0x208, 16, 16, 0, 18, .ro, 0x0, .any⟩
def Reg.CRY_QSTAT_NOTICE_ON : Field := ⟨.CRY, 0x208, 16, 16, 18, 1, .ro, 0x0, .any⟩
def Reg.CRY_QSTAT_AT_BOUNDARY : Field := ⟨.CRY, 0x208, 16, 16, 19, 1, .ro, 0x1, .any⟩
def Reg.CRY_QSTAT_PARITY : Field := ⟨.CRY, 0x208, 16, 16, 20, 12, .ro, 0x0, .any⟩

/-- The fields of this page. -/
def fieldsCRY : List Field :=
  [Reg.CRY_CTRL_CLOSE_ALL, Reg.CRY_STATUS_LEVEL, Reg.CRY_STATUS_SHED, Reg.CRY_STATUS_GAPFULL,
   Reg.CRY_STATUS_BACKPRESS, Reg.CRY_SPILL_SIZE_SIZE, Reg.CRY_RESERVED_RES,
   Reg.CRY_POOL_FREE_FREE, Reg.CRY_GAP_CFG_KIB, Reg.CRY_DEGRADE_T2, Reg.CRY_DEGRADE_T3,
   Reg.CRY_ACK_CFG_TIMEOUT, Reg.CRY_SESSION, Reg.CRY_HOST_ACK_SRC_SRC, Reg.CRY_HOST_ACK_LO_A,
   Reg.CRY_HOST_ACK_HI_A, Reg.CRY_HOST_ACK_HI_STREAM, Reg.CRY_COUNTS_ACK_BAD,
   Reg.CRY_COUNTS_REPLAYS, Reg.CRY_FWD_CFG_MIB, Reg.CRY_FWD_CFG_VERIFY, Reg.CRY_FWD_CFG_QUEUE,
   Reg.CRY_FWD_CFG_TO_HOST, Reg.CRY_FWD_DROPS_DROPS, Reg.CRY_QCFG_BASE, Reg.CRY_QCFG_SIZE,
   Reg.CRY_QCFG_EN, Reg.CRY_QCFG_NOTICE, Reg.CRY_QPOP_DATA, Reg.CRY_S_CFG_EN,
   Reg.CRY_S_CFG_KEPT, Reg.CRY_S_CFG_SRC, Reg.CRY_S_CFG_DEST, Reg.CRY_S_CFG_QUEUE,
   Reg.CRY_S_CFG_PCP, Reg.CRY_S_CFG_ENGINE, Reg.CRY_S_CFG_PROF, Reg.CRY_S_CFG_COMP,
   Reg.CRY_S_CFG_FB_PROF, Reg.CRY_S_CFG_FB_EN]
  ++ [Reg.CRY_S_CFG_SUM_EN, Reg.CRY_S_SEL_CHAN, Reg.CRY_S_SEL_GROUP, Reg.CRY_S_BLOCK_SIZE,
   Reg.CRY_S_OUTAGE_MS, Reg.CRY_S_RATE_BPS, Reg.CRY_S_RESERVE_RES, Reg.CRY_S_NEXT_LO_N,
   Reg.CRY_S_NEXT_HI_N, Reg.CRY_S_ACKED_LO_A, Reg.CRY_S_ACKED_HI_A, Reg.CRY_S_STATE_LEVEL,
   Reg.CRY_S_STATE_OVER, Reg.CRY_S_STATE_DRAINING, Reg.CRY_S_STATE_REPLAYING,
   Reg.CRY_S_STATE_OVERRATE, Reg.CRY_S_STATE_GEN, Reg.CRY_S_OUTAGE_NOW_MS, Reg.CRY_S_USED_USED,
   Reg.CRY_S_LOST_BLOCKS_BLOCKS, Reg.CRY_S_LOST_SAMPLES_SAMPLES, Reg.CRY_HOST_REPLAY_LO_A,
   Reg.CRY_HOST_REPLAY_HI_A, Reg.CRY_HOST_REPLAY_HI_STREAM, Reg.CRY_QLEVEL_LEVEL,
   Reg.CRY_QLEVEL_STALL, Reg.CRY_QSTAT_DEPTH, Reg.CRY_QSTAT_NOTICE_ON,
   Reg.CRY_QSTAT_AT_BOUNDARY, Reg.CRY_QSTAT_PARITY]

/-! Fields of the MEM page. -/

def Reg.MEM_CTRL_SCRUB_NOW : Field := ⟨.MEM, 0x4, 0, 1, 8, 1, .wo, 0x0, .any⟩
def Reg.MEM_STATUS_TRAINED : Field := ⟨.MEM, 0x8, 0, 1, 0, 1, .ro, 0x0, .any⟩
def Reg.MEM_STATUS_RATE : Field := ⟨.MEM, 0x8, 0, 1, 1, 2, .ro, 0x0, .any⟩
def Reg.MEM_STATUS_DENSITY : Field := ⟨.MEM, 0x8, 0, 1, 3, 2, .ro, 0x0, .any⟩
def Reg.MEM_STATUS_SCRUBBING : Field := ⟨.MEM, 0x8, 0, 1, 5, 1, .ro, 0x0, .any⟩
def Reg.MEM_USABLE_MIB : Field := ⟨.MEM, 0x100, 0, 1, 0, 16, .ro, 0x0, .any⟩
def Reg.MEM_SPILL_MIB_MIB : Field := ⟨.MEM, 0x104, 0, 1, 0, 16, .rws, 0x0, .any⟩
def Reg.MEM_CAP_MIB_MIB : Field := ⟨.MEM, 0x108, 0, 1, 0, 16, .rws, 0x0, .any⟩
def Reg.MEM_TAL_MIB_MIB : Field := ⟨.MEM, 0x10C, 0, 1, 0, 16, .rws, 0x0, .any⟩
def Reg.MEM_CMP_MIB_MIB : Field := ⟨.MEM, 0x110, 0, 1, 0, 5, .rws, 0x0, .between 0 16⟩
def Reg.MEM_HOST_MIB_MIB : Field := ⟨.MEM, 0x114, 0, 1, 0, 16, .ro, 0x0, .any⟩
def Reg.MEM_REGION_BASE_MIB : Field := ⟨.MEM, 0x120, 4, 6, 0, 16, .ro, 0x0, .any⟩
def Reg.MEM_BW_RES_GBPS : Field := ⟨.MEM, 0x140, 0, 1, 0, 7, .rws, 0x14, .between 1 80⟩
def Reg.MEM_BW_DEMAND_MBPS : Field := ⟨.MEM, 0x144, 0, 1, 0, 32, .ro, 0x0, .any⟩
def Reg.MEM_SCRUB_CFG_HOURS : Field := ⟨.MEM, 0x148, 0, 1, 0, 5, .rws, 0x18, .between 1 24⟩
def Reg.MEM_SCRUB_POS_UNIT : Field := ⟨.MEM, 0x14C, 0, 1, 0, 22, .ro, 0x0, .any⟩
def Reg.MEM_SCRUB_PASSES_PASSES : Field := ⟨.MEM, 0x150, 0, 1, 0, 32, .ro, 0x0, .any⟩
def Reg.MEM_CE_COUNT_CE : Field := ⟨.MEM, 0x154, 0, 1, 0, 32, .ro, 0x0, .any⟩
def Reg.MEM_UE_COUNT_UE : Field := ⟨.MEM, 0x158, 0, 1, 0, 32, .ro, 0x0, .any⟩
def Reg.MEM_LAST_CE_LO_ADDR : Field := ⟨.MEM, 0x15C, 0, 1, 0, 32, .ro, 0x0, .any⟩
def Reg.MEM_LAST_CE_HI_ADDR : Field := ⟨.MEM, 0x160, 0, 1, 0, 2, .ro, 0x0, .any⟩
def Reg.MEM_LAST_CE_HI_REGION : Field := ⟨.MEM, 0x160, 0, 1, 2, 3, .ro, 0x0, .any⟩
def Reg.MEM_LAST_CE_HI_SCRUB : Field := ⟨.MEM, 0x160, 0, 1, 5, 1, .ro, 0x0, .any⟩
def Reg.MEM_LAST_CE_HI_SYMBOLS : Field := ⟨.MEM, 0x160, 0, 1, 6, 2, .ro, 0x0, .any⟩
def Reg.MEM_APT_ADDR_LO_ADDR : Field := ⟨.MEM, 0x170, 0, 1, 0, 32, .rw, 0x0, .multiple 4⟩
def Reg.MEM_APT_ADDR_HI_ADDR : Field := ⟨.MEM, 0x174, 0, 1, 0, 2, .rw, 0x0, .any⟩
def Reg.MEM_APT_DATA_DATA : Field := ⟨.MEM, 0x178, 0, 1, 0, 32, .rw, 0x0, .any⟩
def Reg.MEM_APT_STATUS_UE : Field := ⟨.MEM, 0x17C, 0, 1, 0, 1, .ro, 0x0, .any⟩
def Reg.MEM_APT_STATUS_RANGE : Field := ⟨.MEM, 0x17C, 0, 1, 1, 1, .ro, 0x0, .any⟩
def Reg.MEM_APT_STATUS_PROTECTED : Field := ⟨.MEM, 0x17C, 0, 1, 2, 1, .ro, 0x0, .any⟩
def Reg.MEM_PROT_COUNT_PROTECTED : Field := ⟨.MEM, 0x180, 0, 1, 0, 16, .ro, 0x0, .any⟩
def Reg.MEM_PROT_COUNT_RANGE : Field := ⟨.MEM, 0x180, 0, 1, 16, 16, .ro, 0x0, .any⟩
def Reg.MEM_DEV_TEMP_MR4_0 : Field := ⟨.MEM, 0x184, 0, 1, 0, 3, .ro, 0x0, .any⟩
def Reg.MEM_DEV_TEMP_MR4_1 : Field := ⟨.MEM, 0x184, 0, 1, 8, 3, .ro, 0x0, .any⟩
def Reg.MEM_LAST_UE_LO_ADDR : Field := ⟨.MEM, 0x164, 0, 1, 0, 32, .ro, 0x0, .any⟩
def Reg.MEM_LAST_UE_HI_ADDR : Field := ⟨.MEM, 0x168, 0, 1, 0, 2, .ro, 0x0, .any⟩
def Reg.MEM_LAST_UE_HI_REGION : Field := ⟨.MEM, 0x168, 0, 1, 2, 3, .ro, 0x0, .any⟩
def Reg.MEM_LAST_UE_HI_SCRUB : Field := ⟨.MEM, 0x168, 0, 1, 5, 1, .ro, 0x0, .any⟩
def Reg.MEM_LAST_UE_HI_WRITE : Field := ⟨.MEM, 0x168, 0, 1, 6, 1, .ro, 0x0, .any⟩

/-- The fields of this page. -/
def fieldsMEM : List Field :=
  [Reg.MEM_CTRL_SCRUB_NOW, Reg.MEM_STATUS_TRAINED, Reg.MEM_STATUS_RATE, Reg.MEM_STATUS_DENSITY,
   Reg.MEM_STATUS_SCRUBBING, Reg.MEM_USABLE_MIB, Reg.MEM_SPILL_MIB_MIB, Reg.MEM_CAP_MIB_MIB,
   Reg.MEM_TAL_MIB_MIB, Reg.MEM_CMP_MIB_MIB, Reg.MEM_HOST_MIB_MIB, Reg.MEM_REGION_BASE_MIB,
   Reg.MEM_BW_RES_GBPS, Reg.MEM_BW_DEMAND_MBPS, Reg.MEM_SCRUB_CFG_HOURS, Reg.MEM_SCRUB_POS_UNIT,
   Reg.MEM_SCRUB_PASSES_PASSES, Reg.MEM_CE_COUNT_CE, Reg.MEM_UE_COUNT_UE,
   Reg.MEM_LAST_CE_LO_ADDR, Reg.MEM_LAST_CE_HI_ADDR, Reg.MEM_LAST_CE_HI_REGION,
   Reg.MEM_LAST_CE_HI_SCRUB, Reg.MEM_LAST_CE_HI_SYMBOLS, Reg.MEM_APT_ADDR_LO_ADDR,
   Reg.MEM_APT_ADDR_HI_ADDR, Reg.MEM_APT_DATA_DATA, Reg.MEM_APT_STATUS_UE,
   Reg.MEM_APT_STATUS_RANGE, Reg.MEM_APT_STATUS_PROTECTED, Reg.MEM_PROT_COUNT_PROTECTED,
   Reg.MEM_PROT_COUNT_RANGE, Reg.MEM_DEV_TEMP_MR4_0, Reg.MEM_DEV_TEMP_MR4_1,
   Reg.MEM_LAST_UE_LO_ADDR, Reg.MEM_LAST_UE_HI_ADDR, Reg.MEM_LAST_UE_HI_REGION,
   Reg.MEM_LAST_UE_HI_SCRUB, Reg.MEM_LAST_UE_HI_WRITE]

/-! Fields of the NET pages. -/

def Reg.NET_CTRL_CLR : Field := ⟨.NET, 0x4, 0, 1, 8, 1, .wo, 0x0, .any⟩
def Reg.NET_CTRL_RA_GO : Field := ⟨.NET, 0x4, 0, 1, 9, 1, .wo, 0x0, .any⟩
def Reg.NET_CTRL_JT_WRITE : Field := ⟨.NET, 0x4, 0, 1, 10, 1, .wo, 0x0, .any⟩
def Reg.NET_CTRL_JT_READ : Field := ⟨.NET, 0x4, 0, 1, 11, 1, .wo, 0x0, .any⟩
def Reg.NET_STATUS_EN : Field := ⟨.NET, 0x8, 0, 1, 0, 1, .ro, 0x0, .any⟩
def Reg.NET_STATUS_LINK : Field := ⟨.NET, 0x8, 0, 1, 1, 1, .ro, 0x0, .any⟩
def Reg.NET_STATUS_LOS : Field := ⟨.NET, 0x8, 0, 1, 2, 1, .ro, 0x0, .any⟩
def Reg.NET_STATUS_USABLE : Field := ⟨.NET, 0x8, 0, 1, 3, 1, .ro, 0x0, .any⟩
def Reg.NET_STATUS_TURNING : Field := ⟨.NET, 0x8, 0, 1, 4, 1, .ro, 0x0, .any⟩
def Reg.NET_STATUS_PRIMARY : Field := ⟨.NET, 0x8, 0, 1, 5, 1, .ro, 0x0, .any⟩
def Reg.NET_STATUS_HOPS : Field := ⟨.NET, 0x8, 0, 1, 8, 8, .ro, 0xFF, .any⟩
def Reg.NET_CFG_EN : Field := ⟨.NET, 0x100, 0, 1, 0, 1, .rws, 0x0, .any⟩
def Reg.NET_CFG_MODE : Field := ⟨.NET, 0x100, 0, 1, 1, 1, .rws, 0x0, .any⟩
def Reg.NET_CFG_MTU : Field := ⟨.NET, 0x100, 0, 1, 4, 14, .rws, 0x5DC, .between 1500 9000⟩
def Reg.NET_RESTORE_MS : Field := ⟨.NET, 0x104, 0, 1, 0, 16, .rws, 0x3E8, .between 10 60000⟩
def Reg.NET_TX_FRAMES_FRAMES : Field := ⟨.NET, 0x108, 0, 1, 0, 32, .ro, 0x0, .any⟩
def Reg.NET_RX_FRAMES_FRAMES : Field := ⟨.NET, 0x10C, 0, 1, 0, 32, .ro, 0x0, .any⟩
def Reg.NET_DROPS_A_DROP_TYPE : Field := ⟨.NET, 0x110, 0, 1, 0, 16, .ro, 0x0, .any⟩
def Reg.NET_DROPS_A_DROP_FCS : Field := ⟨.NET, 0x110, 0, 1, 16, 16, .ro, 0x0, .any⟩
def Reg.NET_DROPS_B_DROP_ROUTE : Field := ⟨.NET, 0x114, 0, 1, 0, 16, .ro, 0x0, .any⟩
def Reg.NET_DROPS_B_DROP_FRAG : Field := ⟨.NET, 0x114, 0, 1, 16, 16, .ro, 0x0, .any⟩
def Reg.NET_LINKS_PROBE_LOST : Field := ⟨.NET, 0x118, 0, 1, 0, 16, .ro, 0x0, .any⟩
def Reg.NET_LINKS_DOWNS : Field := ⟨.NET, 0x118, 0, 1, 16, 16, .ro, 0x0, .any⟩
def Reg.NET_TURNED_FRAMES : Field := ⟨.NET, 0x11C, 0, 1, 0, 32, .ro, 0x0, .any⟩
def Reg.NET_MOD_ID_ID : Field := ⟨.NET, 0x120, 0, 1, 0, 8, .ro, 0x0, .any⟩
def Reg.NET_ETHERTYPE_TYPE : Field := ⟨.NET, 0x200, 0, 1, 0, 16, .rws, 0x88B5, .any⟩
def Reg.NET_VID : Field := ⟨.NET, 0x204, 0, 1, 0, 12, .rws, 0x0, .any⟩
def Reg.NET_MAC_SRC_LO_MAC : Field := ⟨.NET, 0x208, 0, 1, 0, 32, .rws, 0x0, .any⟩
def Reg.NET_MAC_SRC_HI_MAC : Field := ⟨.NET, 0x20C, 0, 1, 0, 16, .rws, 0x0, .any⟩
def Reg.NET_MAC_GRP_LO_MAC : Field := ⟨.NET, 0x210, 0, 1, 0, 32, .rws, 0x6256, .any⟩
def Reg.NET_MAC_GRP_HI_MAC : Field := ⟨.NET, 0x214, 0, 1, 0, 16, .rws, 0x300, .any⟩
def Reg.NET_UP_BUDGET_MBPS : Field := ⟨.NET, 0x218, 0, 1, 0, 16, .rws, 0x3E8, .any⟩
def Reg.NET_RELAY_TRIG_UP : Field := ⟨.NET, 0x21C, 0, 1, 0, 1, .rws, 0x0, .any⟩
def Reg.NET_RELAY_TRIG_DOWN : Field := ⟨.NET, 0x21C, 0, 1, 1, 1, .rws, 0x1, .any⟩
def Reg.NET_RELAY_ROD_DOWN : Field := ⟨.NET, 0x21C, 0, 1, 2, 1, .rws, 0x1, .any⟩
def Reg.NET_RA_TIMEOUT_MS : Field := ⟨.NET, 0x220, 0, 1, 0, 16, .rws, 0x5, .between 1 1000⟩
def Reg.NET_DIGEST : Field := ⟨.NET, 0x224, 0, 1, 0, 32, .ro, 0x0, .any⟩
def Reg.NET_MGR_ADDR : Field := ⟨.NET, 0x228, 0, 1, 0, 16, .ro, 0x0, .any⟩
def Reg.NET_MGR_VALID : Field := ⟨.NET, 0x228, 0, 1, 16, 1, .ro, 0x0, .any⟩
def Reg.NET_MGR_UID_LO_UID : Field := ⟨.NET, 0x22C, 0, 1, 0, 32, .ro, 0x0, .any⟩
def Reg.NET_MGR_UID_HI_UID : Field := ⟨.NET, 0x230, 0, 1, 0, 32, .ro, 0x0, .any⟩
def Reg.NET_MEMBERS_JOINED : Field := ⟨.NET, 0x234, 0, 1, 0, 9, .ro, 0x0, .any⟩
def Reg.NET_MEMBERS_DEPARTS : Field := ⟨.NET, 0x234, 0, 1, 16, 16, .ro, 0x0, .any⟩
def Reg.NET_LAST_UNKNOWN_LO_UID : Field := ⟨.NET, 0x238, 0, 1, 0, 32, .ro, 0x0, .any⟩
def Reg.NET_LAST_UNKNOWN_HI_UID : Field := ⟨.NET, 0x23C, 0, 1, 0, 32, .ro, 0x0, .any⟩
def Reg.NET_JT_IDX_IDX : Field := ⟨.NET, 0x240, 0, 1, 0, 9, .rw, 0x0, .any⟩
def Reg.NET_JT_DATA0_UID : Field := ⟨.NET, 0x244, 0, 1, 0, 32, .rw, 0x0, .any⟩
def Reg.NET_JT_DATA1_UID : Field := ⟨.NET, 0x248, 0, 1, 0, 32, .rw, 0x0, .any⟩
def Reg.NET_JT_DATA2_DIGEST : Field := ⟨.NET, 0x24C, 0, 1, 0, 32, .rw, 0x0, .any⟩
def Reg.NET_JT_DATA3_VALID : Field := ⟨.NET, 0x250, 0, 1, 0, 1, .rw, 0x0, .any⟩
def Reg.NET_JT_DATA3_JOINED : Field := ⟨.NET, 0x250, 0, 1, 1, 1, .ro, 0x0, .any⟩
def Reg.NET_JT_DATA3_PORT : Field := ⟨.NET, 0x250, 0, 1, 2, 2, .ro, 0x0, .any⟩
def Reg.NET_RA_CTRL_DST : Field := ⟨.NET, 0x260, 0, 1, 0, 16, .rw, 0x0, .any⟩
def Reg.NET_RA_CTRL_PORT : Field := ⟨.NET, 0x260, 0, 1, 16, 1, .rw, 0x0, .any⟩
def Reg.NET_RA_CTRL_WRITE : Field := ⟨.NET, 0x260, 0, 1, 17, 1, .rw, 0x0, .any⟩
def Reg.NET_RA_CTRL_COUNT : Field := ⟨.NET, 0x260, 0, 1, 18, 4, .rw, 0x0, .any⟩
def Reg.NET_RA_ADDR_ADDR : Field := ⟨.NET, 0x264, 0, 1, 0, 24, .rw, 0x0, .multiple 4⟩
def Reg.NET_RA_STATUS_BUSY : Field := ⟨.NET, 0x268, 0, 1, 0, 1, .ro, 0x0, .any⟩
def Reg.NET_RA_STATUS_DONE : Field := ⟨.NET, 0x268, 0, 1, 1, 1, .w1c, 0x0, .any⟩
def Reg.NET_RA_STATUS_RESULT : Field := ⟨.NET, 0x268, 0, 1, 2, 2, .ro, 0x0, .any⟩
def Reg.NET_RA_BUF_DATA : Field := ⟨.NET, 0x280, 4, 16, 0, 32, .rw, 0x0, .any⟩
def Reg.NET_NOTICE_SRC : Field := ⟨.NET, 0x2C0, 0, 1, 0, 16, .ro, 0x0, .any⟩
def Reg.NET_NOTICE_PORT : Field := ⟨.NET, 0x2C0, 0, 1, 16, 1, .ro, 0x0, .any⟩
def Reg.NET_NOTICE_PEND_PEND : Field := ⟨.NET, 0x2C4, 0, 1, 0, 32, .ro, 0x0, .any⟩

/-- The fields of this page. -/
def fieldsNET : List Field :=
  [Reg.NET_CTRL_CLR, Reg.NET_CTRL_RA_GO, Reg.NET_CTRL_JT_WRITE, Reg.NET_CTRL_JT_READ,
   Reg.NET_STATUS_EN, Reg.NET_STATUS_LINK, Reg.NET_STATUS_LOS, Reg.NET_STATUS_USABLE,
   Reg.NET_STATUS_TURNING, Reg.NET_STATUS_PRIMARY, Reg.NET_STATUS_HOPS, Reg.NET_CFG_EN,
   Reg.NET_CFG_MODE, Reg.NET_CFG_MTU, Reg.NET_RESTORE_MS, Reg.NET_TX_FRAMES_FRAMES,
   Reg.NET_RX_FRAMES_FRAMES, Reg.NET_DROPS_A_DROP_TYPE, Reg.NET_DROPS_A_DROP_FCS,
   Reg.NET_DROPS_B_DROP_ROUTE, Reg.NET_DROPS_B_DROP_FRAG, Reg.NET_LINKS_PROBE_LOST,
   Reg.NET_LINKS_DOWNS, Reg.NET_TURNED_FRAMES, Reg.NET_MOD_ID_ID, Reg.NET_ETHERTYPE_TYPE,
   Reg.NET_VID, Reg.NET_MAC_SRC_LO_MAC, Reg.NET_MAC_SRC_HI_MAC, Reg.NET_MAC_GRP_LO_MAC,
   Reg.NET_MAC_GRP_HI_MAC, Reg.NET_UP_BUDGET_MBPS, Reg.NET_RELAY_TRIG_UP,
   Reg.NET_RELAY_TRIG_DOWN, Reg.NET_RELAY_ROD_DOWN, Reg.NET_RA_TIMEOUT_MS, Reg.NET_DIGEST,
   Reg.NET_MGR_ADDR, Reg.NET_MGR_VALID, Reg.NET_MGR_UID_LO_UID]
  ++ [Reg.NET_MGR_UID_HI_UID, Reg.NET_MEMBERS_JOINED, Reg.NET_MEMBERS_DEPARTS,
   Reg.NET_LAST_UNKNOWN_LO_UID, Reg.NET_LAST_UNKNOWN_HI_UID, Reg.NET_JT_IDX_IDX,
   Reg.NET_JT_DATA0_UID, Reg.NET_JT_DATA1_UID, Reg.NET_JT_DATA2_DIGEST, Reg.NET_JT_DATA3_VALID,
   Reg.NET_JT_DATA3_JOINED, Reg.NET_JT_DATA3_PORT, Reg.NET_RA_CTRL_DST, Reg.NET_RA_CTRL_PORT,
   Reg.NET_RA_CTRL_WRITE, Reg.NET_RA_CTRL_COUNT, Reg.NET_RA_ADDR_ADDR, Reg.NET_RA_STATUS_BUSY,
   Reg.NET_RA_STATUS_DONE, Reg.NET_RA_STATUS_RESULT, Reg.NET_RA_BUF_DATA, Reg.NET_NOTICE_SRC,
   Reg.NET_NOTICE_PORT, Reg.NET_NOTICE_PEND_PEND]

/-! Fields of the TWN page. -/

def Reg.TWN_CTRL_YIELD : Field := ⟨.TWN, 0x4, 0, 1, 8, 1, .wo, 0x0, .any⟩
def Reg.TWN_CTRL_REJOIN : Field := ⟨.TWN, 0x4, 0, 1, 9, 1, .wo, 0x0, .any⟩
def Reg.TWN_CTRL_SELFCHECK : Field := ⟨.TWN, 0x4, 0, 1, 10, 1, .wo, 0x0, .any⟩
def Reg.TWN_STATUS_ROLE : Field := ⟨.TWN, 0x8, 0, 1, 0, 3, .ro, 0x0, .any⟩
def Reg.TWN_STATUS_TWIN_ROLE : Field := ⟨.TWN, 0x8, 0, 1, 3, 3, .ro, 0x0, .any⟩
def Reg.TWN_STATUS_LINK : Field := ⟨.TWN, 0x8, 0, 1, 6, 1, .ro, 0x0, .any⟩
def Reg.TWN_STATUS_TWHB_LIVE : Field := ⟨.TWN, 0x8, 0, 1, 7, 1, .ro, 0x0, .any⟩
def Reg.TWN_STATUS_DRIVE_MON : Field := ⟨.TWN, 0x8, 0, 1, 8, 1, .ro, 0x0, .any⟩
def Reg.TWN_STATUS_GATING : Field := ⟨.TWN, 0x8, 0, 1, 9, 1, .ro, 0x0, .any⟩
def Reg.TWN_STATUS_CHECKING : Field := ⟨.TWN, 0x8, 0, 1, 10, 1, .ro, 0x0, .any⟩
def Reg.TWN_STATUS_PHASE : Field := ⟨.TWN, 0x8, 0, 1, 11, 3, .ro, 0x0, .any⟩
def Reg.TWN_TW_CFG_XBLEND : Field := ⟨.TWN, 0x100, 0, 1, 0, 16, .rws, 0x100, .between 16 65535⟩
def Reg.TWN_TW_CFG_NETYIELD : Field := ⟨.TWN, 0x100, 0, 1, 16, 16, .rws, 0x64, .zeroOr 10 60000⟩
def Reg.TWN_XCHK_XTOL : Field := ⟨.TWN, 0x104, 0, 1, 0, 16, .rws, 0xC8, .between 1 10000⟩
def Reg.TWN_XCHK_XWIN : Field := ⟨.TWN, 0x104, 0, 1, 16, 8, .rws, 0x1, .between 1 255⟩
def Reg.TWN_XCHK_XCOUNT : Field := ⟨.TWN, 0x104, 0, 1, 24, 8, .rws, 0x4, .between 1 255⟩
def Reg.TWN_TWHB_CFG_TIMEOUT : Field := ⟨.TWN, 0x108, 0, 1, 0, 16, .rws, 0xC8, .between 100 10000⟩
def Reg.TWN_MGR_CFG_AUTO : Field := ⟨.TWN, 0x10C, 0, 1, 0, 1, .rws, 0x1, .any⟩
def Reg.TWN_MGR_CFG_PORT : Field := ⟨.TWN, 0x10C, 0, 1, 1, 1, .rws, 0x0, .any⟩
def Reg.TWN_MGR_CMD_CMD : Field := ⟨.TWN, 0x110, 0, 1, 0, 3, .wo, 0x0, .any⟩
def Reg.TWN_MGR_CMD_ADDR : Field := ⟨.TWN, 0x110, 0, 1, 16, 16, .wo, 0x0, .any⟩
def Reg.TWN_TWIN_UID_LO_UID : Field := ⟨.TWN, 0x114, 0, 1, 0, 32, .ro, 0x0, .any⟩
def Reg.TWN_TWIN_UID_HI_UID : Field := ⟨.TWN, 0x118, 0, 1, 0, 32, .ro, 0x0, .any⟩
def Reg.TWN_LAG_NS : Field := ⟨.TWN, 0x11C, 0, 1, 0, 16, .ro, 0x0, .any⟩
def Reg.TWN_COUNTS_MISMATCH : Field := ⟨.TWN, 0x120, 0, 1, 0, 16, .ro, 0x0, .any⟩
def Reg.TWN_COUNTS_SWITCHES : Field := ⟨.TWN, 0x120, 0, 1, 16, 16, .ro, 0x0, .any⟩
def Reg.TWN_CHECKED : Field := ⟨.TWN, 0x124, 0, 1, 0, 32, .ro, 0x0, .any⟩
def Reg.TWN_SELF_OWN : Field := ⟨.TWN, 0x128, 0, 1, 0, 2, .ro, 0x0, .any⟩
def Reg.TWN_SELF_TWIN : Field := ⟨.TWN, 0x128, 0, 1, 2, 2, .ro, 0x0, .any⟩
def Reg.TWN_SELF_TEST : Field := ⟨.TWN, 0x128, 0, 1, 4, 4, .ro, 0x0, .any⟩
def Reg.TWN_SELF_CHANNEL : Field := ⟨.TWN, 0x128, 0, 1, 8, 8, .ro, 0x0, .any⟩
def Reg.TWN_HANDOVER_T : Field := ⟨.TWN, 0x12C, 0, 1, 0, 32, .ro, 0x0, .any⟩
def Reg.TWN_XMISM : Field := ⟨.TWN, 0x140, 4, 8, 0, 32, .w1c, 0x0, .any⟩
def Reg.TWN_CHFAIL : Field := ⟨.TWN, 0x160, 4, 8, 0, 32, .ro, 0x0, .any⟩

/-- The fields of this page. -/
def fieldsTWN : List Field :=
  [Reg.TWN_CTRL_YIELD, Reg.TWN_CTRL_REJOIN, Reg.TWN_CTRL_SELFCHECK, Reg.TWN_STATUS_ROLE,
   Reg.TWN_STATUS_TWIN_ROLE, Reg.TWN_STATUS_LINK, Reg.TWN_STATUS_TWHB_LIVE,
   Reg.TWN_STATUS_DRIVE_MON, Reg.TWN_STATUS_GATING, Reg.TWN_STATUS_CHECKING,
   Reg.TWN_STATUS_PHASE, Reg.TWN_TW_CFG_XBLEND, Reg.TWN_TW_CFG_NETYIELD, Reg.TWN_XCHK_XTOL,
   Reg.TWN_XCHK_XWIN, Reg.TWN_XCHK_XCOUNT, Reg.TWN_TWHB_CFG_TIMEOUT, Reg.TWN_MGR_CFG_AUTO,
   Reg.TWN_MGR_CFG_PORT, Reg.TWN_MGR_CMD_CMD, Reg.TWN_MGR_CMD_ADDR, Reg.TWN_TWIN_UID_LO_UID,
   Reg.TWN_TWIN_UID_HI_UID, Reg.TWN_LAG_NS, Reg.TWN_COUNTS_MISMATCH, Reg.TWN_COUNTS_SWITCHES,
   Reg.TWN_CHECKED, Reg.TWN_SELF_OWN, Reg.TWN_SELF_TWIN, Reg.TWN_SELF_TEST,
   Reg.TWN_SELF_CHANNEL, Reg.TWN_HANDOVER_T, Reg.TWN_XMISM, Reg.TWN_CHFAIL]

/-! Fields of the CTL pages. -/

def Reg.CTL_CTRL_AUTO : Field := ⟨.CTL, 0x4, 0, 1, 8, 1, .wo, 0x0, .any⟩
def Reg.CTL_CTRL_MANUAL : Field := ⟨.CTL, 0x4, 0, 1, 9, 1, .wo, 0x0, .any⟩
def Reg.CTL_CTRL_CLR_FAULT : Field := ⟨.CTL, 0x4, 0, 1, 10, 1, .wo, 0x0, .any⟩
def Reg.CTL_STATUS_EN : Field := ⟨.CTL, 0x8, 0, 1, 0, 1, .ro, 0x0, .any⟩
def Reg.CTL_STATUS_MODE : Field := ⟨.CTL, 0x8, 0, 1, 1, 1, .ro, 0x0, .any⟩
def Reg.CTL_STATUS_FAULT : Field := ⟨.CTL, 0x8, 0, 1, 2, 1, .ro, 0x0, .any⟩
def Reg.CTL_STATUS_FAULT_CAUSE : Field := ⟨.CTL, 0x8, 0, 1, 3, 3, .ro, 0x0, .any⟩
def Reg.CTL_STATUS_SAT : Field := ⟨.CTL, 0x8, 0, 1, 6, 1, .ro, 0x0, .any⟩
def Reg.CTL_STATUS_HOLDING : Field := ⟨.CTL, 0x8, 0, 1, 7, 1, .ro, 0x0, .any⟩
def Reg.CTL_STATUS_FF_STALE : Field := ⟨.CTL, 0x8, 0, 1, 8, 1, .ro, 0x0, .any⟩
def Reg.CTL_STATUS_BUMP : Field := ⟨.CTL, 0x8, 0, 1, 9, 1, .ro, 0x0, .any⟩
def Reg.CTL_CFG_EN : Field := ⟨.CTL, 0x100, 0, 1, 0, 1, .rws, 0x0, .any⟩
def Reg.CTL_CFG_START_AUTO : Field := ⟨.CTL, 0x100, 0, 1, 1, 1, .rws, 0x0, .any⟩
def Reg.CTL_CFG_PL_EN : Field := ⟨.CTL, 0x100, 0, 1, 2, 1, .rws, 0x0, .any⟩
def Reg.CTL_CFG_FB_CHAN : Field := ⟨.CTL, 0x100, 0, 1, 3, 8, .rws, 0x0, .between 0 255⟩
def Reg.CTL_CFG_FF_SRC : Field := ⟨.CTL, 0x100, 0, 1, 11, 2, .rws, 0x0, .between 0 2⟩
def Reg.CTL_CFG_FF_CHAN : Field := ⟨.CTL, 0x100, 0, 1, 13, 8, .rws, 0x0, .any⟩
def Reg.CTL_CFG_FF_ROD : Field := ⟨.CTL, 0x100, 0, 1, 21, 3, .rws, 0x0, .any⟩
def Reg.CTL_CFG_DF : Field := ⟨.CTL, 0x100, 0, 1, 24, 4, .rws, 0x0, .between 0 15⟩
def Reg.CTL_PERIOD_P : Field := ⟨.CTL, 0x104, 0, 1, 0, 18, .rws, 0x10, .any⟩
def Reg.CTL_SP : Field := ⟨.CTL, 0x108, 0, 1, 0, 24, .rw, 0x0, .any⟩
def Reg.CTL_KP : Field := ⟨.CTL, 0x10C, 0, 1, 0, 32, .rws, 0x0, .any⟩
def Reg.CTL_KI : Field := ⟨.CTL, 0x110, 0, 1, 0, 32, .rws, 0x0, .any⟩
def Reg.CTL_KD : Field := ⟨.CTL, 0x114, 0, 1, 0, 32, .rws, 0x0, .any⟩
def Reg.CTL_KFF : Field := ⟨.CTL, 0x118, 0, 1, 0, 32, .rws, 0x0, .any⟩
def Reg.CTL_FF_OFS_OFS : Field := ⟨.CTL, 0x11C, 0, 1, 0, 32, .rws, 0x0, .signed (-65535) 65535⟩
def Reg.CTL_LIMITS_OUT_MIN : Field := ⟨.CTL, 0x120, 0, 1, 0, 16, .rws, 0x0, .any⟩
def Reg.CTL_LIMITS_OUT_MAX : Field := ⟨.CTL, 0x120, 0, 1, 16, 16, .rws, 0xFFFF, .any⟩
def Reg.CTL_SLEW : Field := ⟨.CTL, 0x124, 0, 1, 0, 16, .rws, 0x0, .any⟩
def Reg.CTL_MAN_OUT_CODE : Field := ⟨.CTL, 0x128, 0, 1, 0, 16, .rw, 0x0, .any⟩
def Reg.CTL_MODEL_A_A : Field := ⟨.CTL, 0x12C, 0, 1, 0, 16, .rws, 0x0, .any⟩
def Reg.CTL_MODEL_G_G : Field := ⟨.CTL, 0x130, 0, 1, 0, 32, .rws, 0x0, .any⟩
def Reg.CTL_MODEL_B_B : Field := ⟨.CTL, 0x134, 0, 1, 0, 24, .rws, 0x0, .any⟩
def Reg.CTL_PLAUS_N_IMPL_M : Field := ⟨.CTL, 0x138, 0, 1, 0, 8, .rws, 0x10, .between 1 255⟩
def Reg.CTL_PLAUS_N_FROZ_N : Field := ⟨.CTL, 0x138, 0, 1, 8, 8, .rws, 0x40, .between 1 255⟩
def Reg.CTL_PLAUS_N_LOST_N : Field := ⟨.CTL, 0x138, 0, 1, 16, 8, .rws, 0x8, .between 1 255⟩
def Reg.CTL_PLAUS_N_OVR_LIMIT : Field := ⟨.CTL, 0x138, 0, 1, 24, 8, .rws, 0x3, .between 1 255⟩
def Reg.CTL_RES_LIM_LIM : Field := ⟨.CTL, 0x13C, 0, 1, 0, 24, .rws, 0x7FFFFF, .any⟩
def Reg.CTL_FROZ_DU_DU : Field := ⟨.CTL, 0x140, 0, 1, 0, 16, .rws, 0x100, .between 1 65535⟩
def Reg.CTL_OUT_CODE : Field := ⟨.CTL, 0x180, 0, 1, 0, 16, .ro, 0x0, .any⟩
def Reg.CTL_OUT_MODE : Field := ⟨.CTL, 0x180, 0, 1, 16, 1, .ro, 0x0, .any⟩
def Reg.CTL_I_STATE_I : Field := ⟨.CTL, 0x184, 0, 1, 0, 32, .ro, 0x0, .any⟩
def Reg.CTL_MODEL_M : Field := ⟨.CTL, 0x188, 0, 1, 0, 32, .ro, 0x0, .any⟩
def Reg.CTL_RESID_R : Field := ⟨.CTL, 0x18C, 0, 1, 0, 32, .ro, 0x0, .any⟩
def Reg.CTL_LAST_FB_WORD : Field := ⟨.CTL, 0x190, 0, 1, 0, 32, .ro, 0x0, .any⟩
def Reg.CTL_COUNTS_OVERRUNS : Field := ⟨.CTL, 0x194, 0, 1, 0, 16, .ro, 0x0, .any⟩
def Reg.CTL_COUNTS_SKIPS : Field := ⟨.CTL, 0x194, 0, 1, 16, 16, .ro, 0x0, .any⟩
def Reg.CTL_TRANSFERS_DROPS : Field := ⟨.CTL, 0x198, 0, 1, 0, 16, .ro, 0x0, .any⟩
def Reg.CTL_TRANSFERS_TO_AUTO : Field := ⟨.CTL, 0x198, 0, 1, 16, 16, .ro, 0x0, .any⟩
def Reg.CTL_LAST_DROP_T : Field := ⟨.CTL, 0x19C, 0, 1, 0, 32, .ro, 0x0, .any⟩

/-- The fields of this page. -/
def fieldsCTL : List Field :=
  [Reg.CTL_CTRL_AUTO, Reg.CTL_CTRL_MANUAL, Reg.CTL_CTRL_CLR_FAULT, Reg.CTL_STATUS_EN,
   Reg.CTL_STATUS_MODE, Reg.CTL_STATUS_FAULT, Reg.CTL_STATUS_FAULT_CAUSE, Reg.CTL_STATUS_SAT,
   Reg.CTL_STATUS_HOLDING, Reg.CTL_STATUS_FF_STALE, Reg.CTL_STATUS_BUMP, Reg.CTL_CFG_EN,
   Reg.CTL_CFG_START_AUTO, Reg.CTL_CFG_PL_EN, Reg.CTL_CFG_FB_CHAN, Reg.CTL_CFG_FF_SRC,
   Reg.CTL_CFG_FF_CHAN, Reg.CTL_CFG_FF_ROD, Reg.CTL_CFG_DF, Reg.CTL_PERIOD_P, Reg.CTL_SP,
   Reg.CTL_KP, Reg.CTL_KI, Reg.CTL_KD, Reg.CTL_KFF, Reg.CTL_FF_OFS_OFS, Reg.CTL_LIMITS_OUT_MIN,
   Reg.CTL_LIMITS_OUT_MAX, Reg.CTL_SLEW, Reg.CTL_MAN_OUT_CODE, Reg.CTL_MODEL_A_A,
   Reg.CTL_MODEL_G_G, Reg.CTL_MODEL_B_B, Reg.CTL_PLAUS_N_IMPL_M, Reg.CTL_PLAUS_N_FROZ_N,
   Reg.CTL_PLAUS_N_LOST_N, Reg.CTL_PLAUS_N_OVR_LIMIT, Reg.CTL_RES_LIM_LIM, Reg.CTL_FROZ_DU_DU,
   Reg.CTL_OUT_CODE]
  ++ [Reg.CTL_OUT_MODE, Reg.CTL_I_STATE_I, Reg.CTL_MODEL_M, Reg.CTL_RESID_R, Reg.CTL_LAST_FB_WORD,
   Reg.CTL_COUNTS_OVERRUNS, Reg.CTL_COUNTS_SKIPS, Reg.CTL_TRANSFERS_DROPS,
   Reg.CTL_TRANSFERS_TO_AUTO, Reg.CTL_LAST_DROP_T]

/-! Fields of the MRK page. -/

def Reg.MRK_CTRL_FLIP : Field := ⟨.MRK, 0x4, 0, 1, 8, 1, .wo, 0x0, .any⟩
def Reg.MRK_CTRL_DIAG_NOW : Field := ⟨.MRK, 0x4, 0, 1, 9, 1, .wo, 0x0, .any⟩
def Reg.MRK_CTRL_CLR_FAULT : Field := ⟨.MRK, 0x4, 0, 1, 10, 1, .wo, 0x0, .any⟩
def Reg.MRK_STATUS_RUN : Field := ⟨.MRK, 0x8, 0, 1, 0, 1, .ro, 0x0, .any⟩
def Reg.MRK_STATUS_FRONT : Field := ⟨.MRK, 0x8, 0, 1, 1, 1, .ro, 0x0, .any⟩
def Reg.MRK_STATUS_FLIP_PEND : Field := ⟨.MRK, 0x8, 0, 1, 2, 1, .ro, 0x0, .any⟩
def Reg.MRK_STATUS_FADING : Field := ⟨.MRK, 0x8, 0, 1, 3, 1, .ro, 0x0, .any⟩
def Reg.MRK_STATUS_CHAIN_OK : Field := ⟨.MRK, 0x8, 0, 1, 4, 1, .ro, 0x0, .any⟩
def Reg.MRK_STATUS_BOOST_ON : Field := ⟨.MRK, 0x8, 0, 1, 5, 1, .ro, 0x0, .any⟩
def Reg.MRK_STATUS_BOOST_FAULT : Field := ⟨.MRK, 0x8, 0, 1, 6, 1, .ro, 0x0, .any⟩
def Reg.MRK_STATUS_DIAG_DUE : Field := ⟨.MRK, 0x8, 0, 1, 7, 1, .ro, 0x0, .any⟩
def Reg.MRK_STATUS_DRIVING : Field := ⟨.MRK, 0x8, 0, 1, 8, 1, .ro, 0x0, .any⟩
def Reg.MRK_CFG_MODE : Field := ⟨.MRK, 0x100, 0, 1, 0, 2, .rws, 0x0, .between 0 2⟩
def Reg.MRK_CFG_CHAIN_LEN : Field := ⟨.MRK, 0x100, 0, 1, 2, 6, .rws, 0x0, .any⟩
def Reg.MRK_CFG_SYNC_EN : Field := ⟨.MRK, 0x100, 0, 1, 8, 1, .rws, 0x0, .any⟩
def Reg.MRK_CFG_SYNC_EDGE : Field := ⟨.MRK, 0x100, 0, 1, 9, 1, .rws, 0x0, .any⟩
def Reg.MRK_CFG_SPREAD : Field := ⟨.MRK, 0x100, 0, 1, 10, 1, .rws, 0x1, .any⟩
def Reg.MRK_CFG_BST_EN : Field := ⟨.MRK, 0x100, 0, 1, 11, 1, .rws, 0x0, .any⟩
def Reg.MRK_CFG_CHAIN_LIMIT : Field := ⟨.MRK, 0x100, 0, 1, 12, 4, .rws, 0x4, .between 1 15⟩
def Reg.MRK_CFG_SYNC_GLITCH : Field := ⟨.MRK, 0x100, 0, 1, 16, 8, .rws, 0x4, .any⟩
def Reg.MRK_FADE_MS : Field := ⟨.MRK, 0x104, 0, 1, 0, 16, .rws, 0x0, .any⟩
def Reg.MRK_RET_DLY_DLY : Field := ⟨.MRK, 0x108, 0, 1, 0, 5, .rws, 0x0, .any⟩
def Reg.MRK_DIAG_CAMS : Field := ⟨.MRK, 0x10C, 0, 1, 0, 16, .rws, 0x0, .any⟩
def Reg.MRK_DIAG_W : Field := ⟨.MRK, 0x10C, 0, 1, 16, 8, .rws, 0x3E, .between 48 255⟩
def Reg.MRK_DIAG_DARK : Field := ⟨.MRK, 0x10C, 0, 1, 24, 1, .rws, 0x0, .any⟩
def Reg.MRK_DIAG_TIME_PERIOD : Field := ⟨.MRK, 0x110, 0, 1, 0, 16, .rws, 0x3E8, .between 10 65535⟩
def Reg.MRK_DIAG_TIME_GUARD : Field := ⟨.MRK, 0x110, 0, 1, 16, 16, .rws, 0x64, .any⟩
def Reg.MRK_BST_CFG_V_INIT : Field := ⟨.MRK, 0x114, 0, 1, 0, 16, .rws, 0x2EE0, .any⟩
def Reg.MRK_BST_CFG_V_MAX : Field := ⟨.MRK, 0x114, 0, 1, 16, 16, .rws, 0x5DC0, .any⟩
def Reg.MRK_BST_LIM_V_MIN : Field := ⟨.MRK, 0x118, 0, 1, 0, 16, .rws, 0x1388, .any⟩
def Reg.MRK_BST_LIM_HR_TARGET : Field := ⟨.MRK, 0x118, 0, 1, 16, 8, .rws, 0x14, .any⟩
def Reg.MRK_BST_LIM_DUTY_MAX : Field := ⟨.MRK, 0x118, 0, 1, 24, 7, .rws, 0x55, .between 1 95⟩
def Reg.MRK_BST_DIV_DIV : Field := ⟨.MRK, 0x11C, 0, 1, 0, 16, .rws, 0x1200, .any⟩
def Reg.MRK_BST_NOW_V_SET : Field := ⟨.MRK, 0x120, 0, 1, 0, 16, .ro, 0x0, .any⟩
def Reg.MRK_BST_NOW_V_MEAS : Field := ⟨.MRK, 0x120, 0, 1, 16, 16, .ro, 0x0, .any⟩
def Reg.MRK_HR_MIN_HR : Field := ⟨.MRK, 0x124, 0, 1, 0, 8, .ro, 0x0, .any⟩
def Reg.MRK_HR_MIN_BOARD : Field := ⟨.MRK, 0x124, 0, 1, 8, 6, .ro, 0x0, .any⟩
def Reg.MRK_OPEN : Field := ⟨.MRK, 0x140, 4, 32, 0, 32, .w1c, 0x0, .any⟩
def Reg.MRK_COUNTS_FLIPS : Field := ⟨.MRK, 0x1C0, 0, 1, 0, 16, .ro, 0x0, .any⟩
def Reg.MRK_COUNTS_MERGED : Field := ⟨.MRK, 0x1C0, 0, 1, 16, 16, .ro, 0x0, .any⟩
def Reg.MRK_ERRS_ECHO : Field := ⟨.MRK, 0x1C4, 0, 1, 0, 16, .ro, 0x0, .any⟩
def Reg.MRK_ERRS_BOARD_CRC : Field := ⟨.MRK, 0x1C4, 0, 1, 16, 16, .ro, 0x0, .any⟩
def Reg.MRK_DIAGS_DONE : Field := ⟨.MRK, 0x1C8, 0, 1, 0, 16, .ro, 0x0, .any⟩
def Reg.MRK_DIAGS_DEFERRED : Field := ⟨.MRK, 0x1C8, 0, 1, 16, 16, .ro, 0x0, .any⟩
def Reg.MRK_LAST_SYNC_T : Field := ⟨.MRK, 0x1CC, 0, 1, 0, 32, .ro, 0x0, .any⟩

/-- The fields of this page. -/
def fieldsMRK : List Field :=
  [Reg.MRK_CTRL_FLIP, Reg.MRK_CTRL_DIAG_NOW, Reg.MRK_CTRL_CLR_FAULT, Reg.MRK_STATUS_RUN,
   Reg.MRK_STATUS_FRONT, Reg.MRK_STATUS_FLIP_PEND, Reg.MRK_STATUS_FADING,
   Reg.MRK_STATUS_CHAIN_OK, Reg.MRK_STATUS_BOOST_ON, Reg.MRK_STATUS_BOOST_FAULT,
   Reg.MRK_STATUS_DIAG_DUE, Reg.MRK_STATUS_DRIVING, Reg.MRK_CFG_MODE, Reg.MRK_CFG_CHAIN_LEN,
   Reg.MRK_CFG_SYNC_EN, Reg.MRK_CFG_SYNC_EDGE, Reg.MRK_CFG_SPREAD, Reg.MRK_CFG_BST_EN,
   Reg.MRK_CFG_CHAIN_LIMIT, Reg.MRK_CFG_SYNC_GLITCH, Reg.MRK_FADE_MS, Reg.MRK_RET_DLY_DLY,
   Reg.MRK_DIAG_CAMS, Reg.MRK_DIAG_W, Reg.MRK_DIAG_DARK, Reg.MRK_DIAG_TIME_PERIOD,
   Reg.MRK_DIAG_TIME_GUARD, Reg.MRK_BST_CFG_V_INIT, Reg.MRK_BST_CFG_V_MAX,
   Reg.MRK_BST_LIM_V_MIN, Reg.MRK_BST_LIM_HR_TARGET, Reg.MRK_BST_LIM_DUTY_MAX,
   Reg.MRK_BST_DIV_DIV, Reg.MRK_BST_NOW_V_SET, Reg.MRK_BST_NOW_V_MEAS, Reg.MRK_HR_MIN_HR,
   Reg.MRK_HR_MIN_BOARD, Reg.MRK_OPEN, Reg.MRK_COUNTS_FLIPS, Reg.MRK_COUNTS_MERGED]
  ++ [Reg.MRK_ERRS_ECHO, Reg.MRK_ERRS_BOARD_CRC, Reg.MRK_DIAGS_DONE, Reg.MRK_DIAGS_DEFERRED,
   Reg.MRK_LAST_SYNC_T]

/-! Fields of the CAL page. -/

def Reg.CAL_CTRL_STORE : Field := ⟨.CAL, 0x4, 0, 1, 8, 1, .wo, 0x0, .any⟩
def Reg.CAL_CTRL_PT_WRITE : Field := ⟨.CAL, 0x4, 0, 1, 9, 1, .wo, 0x0, .any⟩
def Reg.CAL_CTRL_PT_READ : Field := ⟨.CAL, 0x4, 0, 1, 10, 1, .wo, 0x0, .any⟩
def Reg.CAL_STATUS_STORING : Field := ⟨.CAL, 0x8, 0, 1, 0, 1, .ro, 0x0, .any⟩
def Reg.CAL_STATUS_NOCAL : Field := ⟨.CAL, 0x8, 0, 1, 1, 1, .ro, 0x0, .any⟩
def Reg.CAL_STATUS_SEM_WAIT : Field := ⟨.CAL, 0x8, 0, 1, 2, 1, .ro, 0x0, .any⟩
def Reg.CAL_REF_UV_UV : Field := ⟨.CAL, 0x100, 4, 4, 0, 32, .rws, 0x0, .any⟩
def Reg.CAL_REF_MAP_SEL : Field := ⟨.CAL, 0x110, 0, 1, 0, 24, .rws, 0x0, .any⟩
def Reg.CAL_REF_TOL_PPM : Field := ⟨.CAL, 0x114, 0, 1, 0, 16, .rws, 0x3E8, .between 10 10000⟩
def Reg.CAL_TSPAN_SPAN : Field := ⟨.CAL, 0x118, 0, 1, 0, 8, .rws, 0x20, .between 1 255⟩
def Reg.CAL_JOURNAL_PERIOD_MIN : Field := ⟨.CAL, 0x11C, 0, 1, 0, 16, .rws, 0x0, .zeroOr 10 65535⟩
def Reg.CAL_JOURNAL_STATUS_NEWEST : Field := ⟨.CAL, 0x120, 0, 1, 0, 1, .ro, 0x0, .any⟩
def Reg.CAL_JOURNAL_STATUS_VALID0 : Field := ⟨.CAL, 0x120, 0, 1, 1, 1, .ro, 0x0, .any⟩
def Reg.CAL_JOURNAL_STATUS_VALID1 : Field := ⟨.CAL, 0x120, 0, 1, 2, 1, .ro, 0x0, .any⟩
def Reg.CAL_JOURNAL_STATUS_ERR : Field := ⟨.CAL, 0x120, 0, 1, 3, 4, .ro, 0x0, .any⟩
def Reg.CAL_JOURNAL_GEN_GEN : Field := ⟨.CAL, 0x124, 0, 1, 0, 32, .ro, 0x0, .any⟩
def Reg.CAL_JOURNAL_STORES_STORES : Field := ⟨.CAL, 0x128, 0, 1, 0, 32, .ro, 0x0, .any⟩
def Reg.CAL_PT_SEL_CONV : Field := ⟨.CAL, 0x130, 0, 1, 0, 9, .rw, 0x0, .between 0 271⟩
def Reg.CAL_PT_SEL_GAIN : Field := ⟨.CAL, 0x130, 0, 1, 9, 3, .rw, 0x0, .any⟩
def Reg.CAL_PT_SEL_POINT : Field := ⟨.CAL, 0x130, 0, 1, 12, 3, .rw, 0x0, .any⟩
def Reg.CAL_PT_DATA0_OFFSET : Field := ⟨.CAL, 0x134, 0, 1, 0, 32, .rw, 0x0, .any⟩
def Reg.CAL_PT_DATA1_GAIN : Field := ⟨.CAL, 0x138, 0, 1, 0, 32, .rw, 0x0, .any⟩
def Reg.CAL_PT_DATA2_SQ : Field := ⟨.CAL, 0x13C, 0, 1, 0, 16, .rw, 0x0, .any⟩
def Reg.CAL_PT_DATA2_TEMP : Field := ⟨.CAL, 0x13C, 0, 1, 16, 16, .rw, 0x8000, .any⟩

/-- The fields of this page. -/
def fieldsCAL : List Field :=
  [Reg.CAL_CTRL_STORE, Reg.CAL_CTRL_PT_WRITE, Reg.CAL_CTRL_PT_READ, Reg.CAL_STATUS_STORING,
   Reg.CAL_STATUS_NOCAL, Reg.CAL_STATUS_SEM_WAIT, Reg.CAL_REF_UV_UV, Reg.CAL_REF_MAP_SEL,
   Reg.CAL_REF_TOL_PPM, Reg.CAL_TSPAN_SPAN, Reg.CAL_JOURNAL_PERIOD_MIN,
   Reg.CAL_JOURNAL_STATUS_NEWEST, Reg.CAL_JOURNAL_STATUS_VALID0, Reg.CAL_JOURNAL_STATUS_VALID1,
   Reg.CAL_JOURNAL_STATUS_ERR, Reg.CAL_JOURNAL_GEN_GEN, Reg.CAL_JOURNAL_STORES_STORES,
   Reg.CAL_PT_SEL_CONV, Reg.CAL_PT_SEL_GAIN, Reg.CAL_PT_SEL_POINT, Reg.CAL_PT_DATA0_OFFSET,
   Reg.CAL_PT_DATA1_GAIN, Reg.CAL_PT_DATA2_SQ, Reg.CAL_PT_DATA2_TEMP]

/-! Fields of the DBG page. -/

def Reg.DBG_CTRL_BIST_GO : Field := ⟨.DBG, 0x4, 0, 1, 8, 1, .wo, 0x0, .any⟩
def Reg.DBG_STATUS_TESTMODE : Field := ⟨.DBG, 0x8, 0, 1, 0, 1, .ro, 0x0, .any⟩
def Reg.DBG_STATUS_BIST_BUSY : Field := ⟨.DBG, 0x8, 0, 1, 1, 1, .ro, 0x0, .any⟩
def Reg.DBG_STATUS_IR : Field := ⟨.DBG, 0x8, 0, 1, 2, 8, .ro, 0x1, .any⟩
def Reg.DBG_DSEL_CODE : Field := ⟨.DBG, 0x100, 4, 4, 0, 8, .rw, 0x0, .any⟩
def Reg.DBG_DSEL_INST : Field := ⟨.DBG, 0x100, 4, 4, 8, 10, .rw, 0x0, .between 0 1023⟩
def Reg.DBG_DSEL_INV : Field := ⟨.DBG, 0x100, 4, 4, 18, 1, .rw, 0x0, .any⟩
def Reg.DBG_ASEL_CODE : Field := ⟨.DBG, 0x110, 4, 2, 0, 8, .rw, 0x0, .any⟩
def Reg.DBG_ASEL_INST : Field := ⟨.DBG, 0x110, 4, 2, 8, 8, .rw, 0x0, .any⟩
def Reg.DBG_BIST_SEL_TARGET : Field := ⟨.DBG, 0x120, 0, 1, 0, 3, .rw, 0x0, .any⟩
def Reg.DBG_BIST_SEL_GROUP : Field := ⟨.DBG, 0x120, 0, 1, 4, 4, .rw, 0x0, .any⟩
def Reg.DBG_BIST_RES_RESULT : Field := ⟨.DBG, 0x124, 0, 1, 0, 2, .ro, 0x0, .any⟩
def Reg.DBG_BIST_RES_TARGET : Field := ⟨.DBG, 0x124, 0, 1, 2, 3, .ro, 0x0, .any⟩
def Reg.DBG_FAIL_ADDR_ADDR : Field := ⟨.DBG, 0x128, 0, 1, 0, 32, .ro, 0x0, .any⟩
def Reg.DBG_IDCODE_ID : Field := ⟨.DBG, 0x12C, 0, 1, 0, 32, .ro, 0x0, .any⟩
def Reg.DBG_REF_DEV_PPM : Field := ⟨.DBG, 0x140, 4, 16, 0, 16, .ro, 0x0, .any⟩

/-- The fields of this page. -/
def fieldsDBG : List Field :=
  [Reg.DBG_CTRL_BIST_GO, Reg.DBG_STATUS_TESTMODE, Reg.DBG_STATUS_BIST_BUSY, Reg.DBG_STATUS_IR,
   Reg.DBG_DSEL_CODE, Reg.DBG_DSEL_INST, Reg.DBG_DSEL_INV, Reg.DBG_ASEL_CODE, Reg.DBG_ASEL_INST,
   Reg.DBG_BIST_SEL_TARGET, Reg.DBG_BIST_SEL_GROUP, Reg.DBG_BIST_RES_RESULT,
   Reg.DBG_BIST_RES_TARGET, Reg.DBG_FAIL_ADDR_ADDR, Reg.DBG_IDCODE_ID, Reg.DBG_REF_DEV_PPM]

/-- The fields of a page after the common layout. -/
def PageKind.fields : PageKind → List Field
  | .COMMON => fieldsCOMMON
  | .SYS => fieldsSYS
  | .SEM => fieldsSEM
  | .EVT => fieldsEVT
  | .HP => fieldsHP
  | .TIM => fieldsTIM
  | .ABC => fieldsABC
  | .AFE => fieldsAFE
  | .CNV => fieldsCNV
  | .FLT => fieldsFLT
  | .TAL => fieldsTAL
  | .CAP => fieldsCAP
  | .CMP => fieldsCMP
  | .CRY => fieldsCRY
  | .MEM => fieldsMEM
  | .NET => fieldsNET
  | .TWN => fieldsTWN
  | .CTL => fieldsCTL
  | .MRK => fieldsMRK
  | .CAL => fieldsCAL
  | .DBG => fieldsDBG

end Sys2Proof.Machine
end

