-- ==== Sys2Proof/Machine/State.lean ====
section
/-!
DEFINITION. The state of the hub as plain data. Every register a host can read or write stands in
`regs` (what is in force) or `shadow` (what an RWS field takes at the next commit, R147), keyed by its
address in the 16 MiB register space and sparse: an address that is not listed holds its reset value
(R13 and the tables of Machine/RegMap.lean). What the blocks keep besides is in the structures of
Machine/Blocks.lean, in maps that are sparse too: an instance that is not listed is at its default,
every number 0, every list empty and every option `none`.
-/
namespace Sys2Proof.Machine

/-- Why the machine would stop with a fault. No meaning of this model raises it: the spec gives every
command an effect. Safe. -/
inductive Fault where
  /-- Raised by nobody; kept so that the type of reasons has a constructor. Safe. -/
  | none
deriving DecidableEq, Repr

/-- Why a command has no meaning. -/
inductive Refusal where
  /-- Raised by an arm of Machine/Dispatch.lean whose command has no meaning yet. Safe. -/
  | notModelled (mnemonic : String)
deriving DecidableEq, Repr

/-- The hub. -/
structure State where
  /-- Registers: the values in force. -/
  regs : SMap Word
  /-- Registers: the shadow of each RWS field, with the other bits as at reset (R147). -/
  shadow : SMap Word
  /-- The commit being checked, and those accepted that wait for a base-rate instant (R148 to R151). -/
  commit : Option CommitState
  accepted : List CommitState
  sys : SysState
  evt : EvtState
  hpA : HpState
  hpB : HpState
  pins : Pins
  tim : TimState
  abc : AbcState
  afe : SMap AfeState
  cnv : SMap CnvState
  cal : CalState
  flt : SMap FltState
  tal : TalState
  cap : SMap CapState
  cmp : SMap CmpState
  cry : CryState
  mem : MemState
  net : NetState
  twn : TwnState
  ctl : SMap CtlState
  mrk : MrkState
  dbg : DbgState
  /-- The usable bytes of the DRAM, by aperture offset (R536), and those of the boot flash (R95). -/
  dram : SMap Byte
  flash : SMap Byte
  /-- The number of the next free value (the model's own). -/
  free : Nat
  /-- What has been put out (the model's own record). -/
  outbox : List Out
  /-- The commands that wait, first in, first out. -/
  pending : List Instr
deriving DecidableEq, Repr

/-- What holds the hub in reset as power is first applied (R83): every supervisor has yet to report its rail up, and REFCLK
has yet to be present. -/
def powerSources : List ResetSource :=
  [.rail .AVDD5, .rail .AVDD18, .rail .DVDD, .rail .VDD2, .rail .VDDQ, .rail (.VDDIO 0), .rail (.VDDIO 1),
   .rail (.VDDIO 2), .rail (.VDDIO 3), .clock]

/-- The hub right after power is first applied (R83, R89): in whole-hub reset, with POR recorded by the reset
value of SYS.RST_CAUSE, every register at its reset value, and no memory byte listed. -/
def State.reset : State where
  regs := []
  shadow := []
  commit := none
  accepted := []
  sys := { (default : SysState) with inReset := true, sources := powerSources }
  evt := default
  hpA := default
  hpB := default
  pins := default
  tim := { (default : TimState) with word := Config.modNominal }
  abc := default
  afe := []
  cnv := []
  cal := default
  flt := []
  tal := default
  cap := []
  cmp := []
  cry := default
  mem := default
  net := default
  twn := default
  ctl := []
  mrk := default
  dbg := default
  dram := []
  flash := []
  free := 0
  outbox := []
  pending := []

end Sys2Proof.Machine
end

