-- ==== Sys2Proof/Machine/Ops.lean ====
section
/-!
DEFINITION. The named operations over memory and registers: sparse maps, the register file with its
reset values, fields, ERRCODE, events and the log, frames, free values and the views of time. Every
later file reads and writes the state through these.
-/
namespace Sys2Proof.Machine

/-! ### Sparse maps -/

/-- The entry of key `i`. -/
def SMap.look {α : Type} : SMap α → Nat → Option α
  | [], _ => none
  | (k, v) :: t, i => if k = i then some v else SMap.look t i

/-- The entry of key `i`, or `d` where there is none. -/
def SMap.lookD {α : Type} (m : SMap α) (i : Nat) (d : α) : α := (m.look i).getD d

/-- `m` without key `i`. -/
def SMap.del {α : Type} (m : SMap α) (i : Nat) : SMap α := m.filter fun e => decide (e.1 ≠ i)

/-- Insert an entry before the first larger key. -/
def SMap.ins {α : Type} (i : Nat) (v : α) : SMap α → SMap α
  | [] => [(i, v)]
  | (k, w) :: t => if i < k then (i, v) :: (k, w) :: t else (k, w) :: SMap.ins i v t

/-- `m` with key `i` set to `v`. -/
def SMap.put {α : Type} (m : SMap α) (i : Nat) (v : α) : SMap α := (m.del i).ins i v

/-- Keys strictly rising: the canonical form of a sparse map. -/
def SMap.sorted {α : Type} : SMap α → Bool
  | [] => true
  | [_] => true
  | (a, _) :: (b, w) :: t => decide (a < b) && SMap.sorted ((b, w) :: t)

/-! ### Byte memories (DRAM and boot flash) -/

/-- A byte of a sparse memory whose unlisted bytes read `blank`. -/
def memRd (blank : Byte) (m : SMap Byte) (a : Nat) : Byte := m.lookD a blank

/-- Store a byte; storing `blank` removes the entry. -/
def memWr (blank : Byte) (m : SMap Byte) (a : Nat) (v : Byte) : SMap Byte :=
  if v = blank then m.del a else m.put a v

/-- The entries of consecutive bytes from `a` on. -/
def memRun (blank : Byte) : Nat → List Byte → SMap Byte
  | _, [] => []
  | a, v :: t => if v = blank then memRun blank (a + 1) t else (a, v) :: memRun blank (a + 1) t

/-- Store consecutive bytes: the bytes below them, theirs, and those above. -/
def memWrs (blank : Byte) (m : SMap Byte) (a : Nat) (bs : List Byte) : SMap Byte :=
  (m.filter fun e => decide (e.1 < a)) ++ memRun blank a bs ++ m.filter fun e => decide (a + bs.length ≤ e.1)

/-- Read `n` consecutive bytes. -/
def memRds (blank : Byte) (m : SMap Byte) (a n : Nat) : List Byte :=
  (List.range n).map fun i => memRd blank m (a + i)

/-- The canonical form: addresses strictly rising, and no entry equal to what an unlisted byte reads. -/
def memWf (blank : Byte) (m : SMap Byte) : Bool := m.sorted && m.all fun e => decide (e.2 ≠ blank)

/-- Little-endian word of four bytes (R450, R491). -/
def leWord (b : List Byte) : Word :=
  BitVec.ofNat 32 ((b.getD 0 0).toNat + 0x100 * (b.getD 1 0).toNat + 0x10000 * (b.getD 2 0).toNat
    + 0x1000000 * (b.getD 3 0).toNat)

/-- The four bytes of a word, least significant first. -/
def wordBytes (w : Word) : List Byte :=
  [BitVec.ofNat 8 w.toNat, BitVec.ofNat 8 (w.toNat / 0x100), BitVec.ofNat 8 (w.toNat / 0x10000),
   BitVec.ofNat 8 (w.toNat / 0x1000000)]

/-- The bytes of a list of words. -/
def wordsBytes (ws : List Word) : List Byte := ws.flatMap wordBytes

/-- The words of a list of bytes, padded with zero bytes; `n` is the number of words. -/
def bytesWords : Nat → List Byte → List Word
  | 0, _ => []
  | n + 1, b => leWord b :: bytesWords n (b.drop 4)

/-! ### Numbers -/

/-- A number as a 32-bit word, wrapping. -/
def w32 (n : Nat) : Word := BitVec.ofNat 32 n

/-- An integer as a 32-bit word in two's complement, wrapping. -/
def w32s (i : Int) : Word := BitVec.ofInt 32 i

/-- The signed reading of the low `w` bits of `n`. -/
def sext (w n : Nat) : Int := if n % 2 ^ w < 2 ^ (w - 1) then (n % 2 ^ w : Nat) else (n % 2 ^ w : Nat) - (2 ^ w : Nat)

/-- An integer modulo 2^w as a number. -/
def toField (w : Nat) (i : Int) : Nat := (i % (2 ^ w : Nat)).toNat

/-- Clamp to `lo … hi`. -/
def clamp (lo hi x : Int) : Int := if x < lo then lo else if hi < x then hi else x

/-- `n ÷ d` rounded to the nearest integer, ties away from zero (R229, R352); `d` is positive. -/
def rdiv (n d : Int) : Int := if 0 ≤ n then (2 * n + d) / (2 * d) else -((2 * (-n) + d) / (2 * d))

/-- Ceiling of `n ÷ d`. -/
def cdiv (n d : Nat) : Nat := (n + d - 1) / d

/-- Ceiling of an integer quotient with positive `d`. -/
def cdivI (n d : Int) : Int := -((-n) / d)

/-- Bit `i` of `n`. -/
def bit (n i : Nat) : Bool := n.testBit i

/-- `b` as 0 or 1. -/
def b2n (b : Bool) : Nat := if b then 1 else 0

/-- The positions of the set bits of the low `w` bits of `n`, ascending. -/
def bitsOf (w n : Nat) : List Nat := (List.range w).filter fun i => n.testBit i

/-- Number of bits set in the low `w` bits. -/
def popcount (w n : Nat) : Nat := (bitsOf w n).length

/-- CRC-32C over bytes (R492), one bit at a time. -/
def crcBit (c : Nat) : Nat := if c % 2 = 1 then (c / 2) ^^^ 0x82F63B78 else c / 2

/-- One byte into the CRC register. -/
def crcByte (c : Nat) (b : Byte) : Nat :=
  crcBit (crcBit (crcBit (crcBit (crcBit (crcBit (crcBit (crcBit (c ^^^ b.toNat))))))))

/-- CRC-32C: polynomial 0x1EDC6F41 reflected, initial value and final XOR all ones (R492). -/
def crc32c (bs : List Byte) : Word := w32 ((bs.foldl crcByte 0xFFFFFFFF) ^^^ 0xFFFFFFFF)

/-! ### Pages and addresses -/

/-- Base of the first page of a kind (R141 Table 3). -/
def PageKind.base : PageKind → Nat
  | .COMMON => 0 | .SYS => 0 | .SEM => 0x1000 | .EVT => 0x2000 | .HP => 0x3000 | .TIM => 0x10000
  | .ABC => 0x11000 | .AFE => 0x20000 | .CNV => 0x30000 | .FLT => 0x40000 | .TAL => 0x50000
  | .CAP => 0x51000 | .CMP => 0x61000 | .CRY => 0x70000 | .MEM => 0x80000 | .NET => 0x90000
  | .TWN => 0xA0000 | .CTL => 0xB0000 | .MRK => 0xC0000 | .CAL => 0xD0000 | .DBG => 0xF0000

/-- How many pages of the kind there are. -/
def PageKind.count : PageKind → Nat
  | .COMMON => 0 | .SYS => 1 | .SEM => 1 | .EVT => 1 | .HP => 2 | .TIM => 1 | .ABC => 1 | .AFE => 16
  | .CNV => 16 | .FLT => 16 | .TAL => 1 | .CAP => 16 | .CMP => 4 | .CRY => 1 | .MEM => 1 | .NET => 4
  | .TWN => 1 | .CTL => 16 | .MRK => 1 | .CAL => 1 | .DBG => 1

/-- ID.TYPE of the kind (R141 Table 3). -/
def PageKind.type : PageKind → Nat
  | .COMMON => 0 | .SYS => 0x01 | .SEM => 0x02 | .EVT => 0x03 | .HP => 0x04 | .TIM => 0x10 | .ABC => 0x11
  | .AFE => 0x20 | .CNV => 0x30 | .FLT => 0x40 | .TAL => 0x50 | .CAP => 0x51 | .CMP => 0x60 | .CRY => 0x70
  | .MEM => 0x80 | .NET => 0x90 | .TWN => 0xA0 | .CTL => 0xB0 | .MRK => 0xC0 | .CAL => 0x31 | .DBG => 0xF0

/-- Lowest event number of page `n` of the kind (R145; the event table of each chapter). -/
def PageKind.eventBase (n : Nat) : PageKind → Nat
  | .COMMON => 0 | .SYS => 0 | .TIM => 8 | .ABC => 32 | .AFE => 48 + 4 * n | .CNV => 112 + 3 * n
  | .CAL => 160 | .FLT => 176 + 4 * n | .TAL => 240 | .CAP => 256 + 4 * n | .CMP => 320 + 4 * n
  | .CRY => 336 | .MEM => 368 | .NET => 376 + 4 * n | .TWN => 392 | .CTL => 400 + 4 * n | .MRK => 464
  | .HP => 472 + 2 * n | .SEM => 476 | .EVT => 478 | .DBG => 480

/-- How many events a page of the kind owns. -/
def PageKind.eventCount : PageKind → Nat
  | .COMMON => 0 | .SYS => 8 | .TIM => 8 | .ABC => 11 | .AFE => 4 | .CNV => 3 | .CAL => 6 | .FLT => 4
  | .TAL => 6 | .CAP => 4 | .CMP => 4 | .CRY => 27 | .MEM => 5 | .NET => 4 | .TWN => 8 | .CTL => 4
  | .MRK => 6 | .HP => 2 | .SEM => 2 | .EVT => 2 | .DBG => 2

/-- Every kind of page, in ascending base. -/
def pageKinds : List PageKind :=
  [.SYS, .SEM, .EVT, .HP, .TIM, .ABC, .AFE, .CNV, .FLT, .TAL, .CAP, .CMP, .CRY, .MEM, .NET, .TWN, .CTL,
   .MRK, .CAL, .DBG]

/-- Base of page `n` of a kind. -/
def pageBase (k : PageKind) (n : Nat) : Nat := k.base + 0x1000 * n

/-- The page whose registers or window hold `a`, with its number; `none` outside R141 Table 3.
The descriptors of CRY, the bead table of ABC and the frame memory of MRK lie beyond the first 4 KiB. -/
def pageOf (a : Nat) : Option (PageKind × Nat) :=
  if 0x71000 ≤ a ∧ a < 0x72000 then some (.CRY, 0)
  else if 0x18000 ≤ a ∧ a < 0x1C000 then some (.ABC, 0)
  else if 0xC8000 ≤ a ∧ a < 0xCA000 then some (.MRK, 0)
  else if 0x100000 ≤ a ∧ a < 0x200000 then some (.FLT, (a - 0x100000) / 0x10000)
  else (pageKinds.find? fun k => decide (k.base ≤ a ∧ a < k.base + 0x1000 * k.count)).map
    fun k => (k, (a - k.base) / 0x1000)

/-- Address of register `i` of field `f` on page `n`. -/
def Field.addr (f : Field) (n i : Nat) : Nat := f.page.base + 0x1000 * n + f.off + f.stride * i

/-- Whether the field has a register at offset `o` of its page. -/
def Field.covers (f : Field) (o : Nat) : Bool :=
  if f.stride = 0 then decide (o = f.off)
  else decide (f.off ≤ o ∧ (o - f.off) % f.stride = 0 ∧ (o - f.off) / f.stride < f.count)

/-- Mask of a field in its word. -/
def Field.mask (f : Field) : Nat := (2 ^ f.width - 1) * 2 ^ f.lsb

/-- The fields that stand in the word at `a` (R143: the common layout comes first on every page;
R581: the registers of NET from 0x200 stand on NET[0] only). -/
def fieldsAt (a : Nat) : List Field :=
  match pageOf a with
  | none => []
  | some (k, n) =>
    if 0x100000 ≤ a then []
    else
      let o := a - pageBase k n
      let own := if k = .NET ∧ n ≠ 0 ∧ 0x200 ≤ o then [] else k.fields.filter fun f => f.covers o
      if o < 0x20 then (fieldsCOMMON.filter fun f => f.covers o && decide (k ≠ .SYS ∨ o ≠ 0)) ++
        (if k = .SYS ∧ o = 0 then fieldsCOMMON.filter fun f => f.covers o else []) ++ own
      else own

/-- Reset value of the word at `a` (R13). -/
def resetWord (a : Nat) : Word :=
  match pageOf a with
  | none => 0
  | some (k, n) =>
    let o := a - pageBase k n
    if 0x100000 ≤ a then 0
    else if o = 0 then w32 (k.type + 0x100 * n + 0x10000)
    else if k = .SYS ∧ o = 0x100 then w32 Config.uid.toNat
    else if k = .SYS ∧ o = 0x104 then w32 (Config.uid.toNat / 0x100000000)
    else if k = .NET ∧ o = 0x208 ∧ n = 0 then w32 Config.uid.toNat
    else if k = .NET ∧ o = 0x20C ∧ n = 0 then w32 (0x200 + Config.uid.toNat / 0x100000000 % 0x100)
    else if k = .HP ∧ 0x800 ≤ o ∧ o < 0xA00 ∧ o % 16 = 12 then 1
    else if k = .ABC ∧ o = 0x100 then 1
    else if k = .ABC ∧ o = 0x104 then 0
    else if k = .ABC ∧ o = 0x110 then 0
    else if k = .DBG ∧ o = 0x12C then w32 (0x16256001 + 2 * (Config.jedecId % 0x800))
    else w32 ((fieldsAt a).foldl (fun acc f => acc + f.reset * 2 ^ f.lsb) 0)

/-! ### The register file -/

/-- The word at `a`: what was stored, or its reset value. -/
def regRd (m : SMap Word) (a : Nat) : Word := (m.look a).getD (resetWord a)

/-- Store a word; storing the reset value removes the entry. -/
def regWr (m : SMap Word) (a : Nat) (v : Word) : SMap Word :=
  if v = resetWord a then m.del a else m.put a v

/-- The canonical form of the register file. -/
def regWf (m : SMap Word) : Bool := m.sorted && m.all fun e => decide (e.2 ≠ resetWord e.1)

/-- The value of a field in a word. -/
def Field.ofWord (f : Field) (w : Word) : Nat := w.toNat / 2 ^ f.lsb % 2 ^ f.width

/-- A word with one field replaced. -/
def Field.inWord (f : Field) (w : Word) (v : Nat) : Word :=
  w32 (w.toNat - (f.ofWord w) * 2 ^ f.lsb + (v % 2 ^ f.width) * 2 ^ f.lsb)

/-- Read field `f` of page `n`, register `i`, from a register file. -/
def Field.rd (f : Field) (m : SMap Word) (n i : Nat) : Nat := f.ofWord (regRd m (f.addr n i))

/-- The same as a signed number. -/
def Field.rdS (f : Field) (m : SMap Word) (n i : Nat) : Int := sext f.width (f.rd m n i)

/-- Write field `f` of page `n`, register `i`. -/
def Field.wr (f : Field) (m : SMap Word) (n i v : Nat) : SMap Word :=
  regWr m (f.addr n i) (f.inWord (regRd m (f.addr n i)) v)

namespace State

/-- The field in force. -/
def fld (s : State) (f : Field) (n : Nat := 0) (i : Nat := 0) : Nat := f.rd s.regs n i

/-- The field in force, signed. -/
def fldS (s : State) (f : Field) (n : Nat := 0) (i : Nat := 0) : Int := f.rdS s.regs n i

/-- A one-bit field in force. -/
def flag (s : State) (f : Field) (n : Nat := 0) (i : Nat := 0) : Bool := decide (s.fld f n i ≠ 0)

/-- Set a field in force. -/
def setFld (s : State) (f : Field) (n i v : Nat) : State := { s with regs := f.wr s.regs n i v }

/-- Set a signed field in force, saturating at the ends of its width. -/
def setFldS (s : State) (f : Field) (n i : Nat) (v : Int) : State :=
  s.setFld f n i (toField f.width (clamp (-(2 ^ (f.width - 1) : Nat)) ((2 ^ (f.width - 1) : Nat) - 1) v))

/-- Set a flag in force. -/
def setFlag (s : State) (f : Field) (n i : Nat) (v : Bool) : State := s.setFld f n i (b2n v)

/-- Set a field in force and in the shadow (R207, R719). -/
def setBoth (s : State) (f : Field) (n i v : Nat) : State :=
  { s with regs := f.wr s.regs n i v, shadow := f.wr s.shadow n i v }

/-- Add to a counter field, wrapping. -/
def bump (s : State) (f : Field) (n i : Nat) (by_ : Nat := 1) : State := s.setFld f n i (s.fld f n i + by_)

/-- Add to a counter field, saturating. -/
def bumpSat (s : State) (f : Field) (n i : Nat) (by_ : Nat := 1) : State :=
  s.setFld f n i (min (s.fld f n i + by_) (2 ^ f.width - 1))

/-- Set bits of a field (a W1C or a status mask). -/
def orFld (s : State) (f : Field) (n i v : Nat) : State := s.setFld f n i (s.fld f n i ||| v)

/-- A number held in a LO and a HI register. -/
def fld64 (s : State) (lo hi : Field) (n : Nat := 0) (i : Nat := 0) : Nat :=
  s.fld lo n i + 2 ^ lo.width * s.fld hi n i

/-- Set a number held in a LO and a HI register. -/
def setFld64 (s : State) (lo hi : Field) (n i v : Nat) : State :=
  (s.setFld lo n i v).setFld hi n i (v / 2 ^ lo.width)

/-! ### Free values, output and time -/

/-- Advance the free-value counter: the number drawn is the one before. -/
def drawn (s : State) : State := { s with free := s.free + 1 }

/-- Put something out. -/
def put (s : State) (o : Out) : State := { s with outbox := s.outbox ++ [o] }

/-- The counter in units of 2⁻¹⁶ ns (R265). -/
def now (s : State) : Tm := s.tim.counter.toNat

/-- A counter value without the steps of R285: time on the scale in which elapsed times are measured. -/
def lifeOf (s : State) (t : Tm) : Nat := ((t : Int) - s.tim.steps).toNat

/-- The counter without the steps of R285. -/
def life (s : State) : Nat := s.lifeOf s.now

/-- The counter value at a time of that scale. -/
def ofLife (s : State) (t : Nat) : Tm := ((t : Int) + s.tim.steps).toNat

/-- The counter in whole nanoseconds, truncated (R266). -/
def nowNs (s : State) : Nat := s.now / Config.unitsPerNs

/-- G(k) of the grid in force, in units of 2⁻¹⁶ ns (R299). -/
def gridT (s : State) (k : Int) : Int := s.tim.anchor + k * Config.baseUnits

/-- floor(G(k)) in ns (R300). -/
def gridNs (s : State) (k : Int) : Nat := (s.gridT k).toNat / Config.unitsPerNs

/-- G(k) in whole nanoseconds without the steps of R285. -/
def gridLife (s : State) (k : Int) : Nat := s.lifeOf (s.gridT k).toNat / Config.unitsPerNs

/-- The counter in whole nanoseconds without the steps of R285. -/
def lifeNs (s : State) : Nat := s.life / Config.unitsPerNs

/-- Time is provisional: state free, locking or lost (R282 Table 3), or the grid is not yet anchored
to the sync epoch (R37). -/
def provisional (s : State) : Bool :=
  let st := s.fld Reg.TIM_STATUS_STATE
  decide (st = 0 ∨ st = 1 ∨ st = 4) || s.tim.reanchor.isSome || !s.tim.onEpoch

/-- The time state is holdover. -/
def inHoldover (s : State) : Bool := decide (s.fld Reg.TIM_STATUS_STATE = 3)

/-- The hub is strapped as a manager (R39). -/
def isManager (s : State) : Bool := s.sys.straps.role

/-- The hub has booted. -/
def booted (s : State) : Bool := decide (s.sys.phase = .booted) && !s.sys.inReset

/-! ### ERRCODE (R144, R146) -/

/-- Record a cause on a page. -/
def err (s : State) (k : PageKind) (n cause : Nat) : State :=
  let a := pageBase k n + 0x18
  let w := regRd s.regs a
  let c := Reg.COMMON_ERRCODE_COUNT.ofWord w
  { s with regs := regWr s.regs a (w32 (cause + 0x100 * k.type + 0x10000 * min (c + 1) 0xFF)) }

/-- Record REFUSED_DEP naming another block (R152). -/
def errDep (s : State) (k : PageKind) (n type : Nat) : State :=
  let a := pageBase k n + 0x18
  let w := regRd s.regs a
  let c := Reg.COMMON_ERRCODE_COUNT.ofWord w
  { s with regs := regWr s.regs a (w32 (0x05 + 0x100 * type + 0x10000 * min (c + 1) 0xFF)) }

/-! ### Events (R164 to R170) -/

/-- Streams in force whose source code is `src`. -/
def streamsOf (s : State) (src : Nat) : List Nat :=
  (List.range 64).filter fun i => s.flag Reg.CRY_S_CFG_EN 0 i && decide (s.fld Reg.CRY_S_CFG_SRC 0 i = src)

/-- What CRY keeps of a stream. -/
def stream (s : State) (i : Nat) : StreamState := s.cry.streams.lookD i default

/-- Replace what CRY keeps of a stream. -/
def setStream (s : State) (i : Nat) (v : StreamState) : State :=
  { s with cry := { s.cry with streams := s.cry.streams.put i v } }

/-- Hand words to the open block of a stream (R489), counting them against its declared rate (R503): no second holds more
input than RATE. `bad` names the words that carry P or were read with an uncorrectable error. -/
def feedStream (s : State) (i : Nat) (ws : List Word) (bad : List Nat := []) : State :=
  let st := s.stream i
  let fed := (st.fed.filter fun e => decide (s.life < e.1 + 1000000000 * Config.unitsPerNs)) ++ [(s.life, ws.length)]
  let s := s.setStream i { st with
    buf := st.buf ++ ws, bads := st.bads ++ bad.map (st.buf.length + ·), fed := fed }
  if s.fld Reg.CRY_S_RATE_BPS 0 i < 4 * (fed.map (·.2)).sum then s.setFlag Reg.CRY_S_STATE_OVERRATE 0 i true else s

/-- End the open block of every stream in force where its input stands now (R490): the next block carries
DISC where `disc` says so. A filter stream whose open block holds no slot has no block to end. -/
def endBlocks (s : State) (disc : Bool) : State :=
  ((List.range 64).filter fun i => s.flag Reg.CRY_S_CFG_EN 0 i && decide (s.fld Reg.CRY_S_CFG_SRC 0 i ≠ 0)).foldl (fun s i =>
    let st := s.stream i
    let filter := decide (s.fld Reg.CRY_S_CFG_SRC 0 i = 1)
    let n := if filter then st.slots.length else st.buf.length
    let atEnd := match st.ends.getLast? with
      | some e => decide (e.1 = n)
      | none => filter && decide (n = 0)
    if atEnd then
      let ends := match st.ends.getLast? with
        | some e => st.ends.dropLast ++ [(e.1, e.2 || disc)]
        | none => []
      s.setStream i { st with ends := ends, disc := st.disc || (disc && decide (ends = [])) }
    else s.setStream i { st with ends := st.ends ++ [(n, disc)] }) s

/-- Hand words to every stream in force with source `src`. -/
def feedAll (s : State) (src : Nat) (ws : List Word) (bad : List Nat := []) : State :=
  (s.streamsOf src).foldl (fun s i => s.feedStream i ws bad) s

/-- The four words of a log entry (R168 Table 7). -/
def logWords (e : LogEntry) : List Word :=
  [e.time, w32 (e.event + 0x200 * b2n e.forced + 0x400 * b2n e.prov + 0x1000 * (e.seq % 0x100000)), e.lo, e.hi]

/-- The member yields in a handover and G(K_H) has come: it works on its twin's samples (R611 step 5). -/
def yielded (s : State) : Bool := s.twn.handover.any fun h => h.past && h.yields

/-- The member takes over in a handover and G(K_H) has come: it feeds its chain itself (R611 step 5). -/
def taking (s : State) : Bool := s.twn.handover.any fun h => h.past && !h.yields

/-- The member works on the samples its twin forwards (R593): roles STANDBY and RESYNC of a Sorrel pair, but
from K_H of a handover on the member that yields. -/
def follows (s : State) : Bool :=
  s.sys.straps.pair && (s.yielded || (decide (s.fld Reg.TWN_STATUS_ROLE = 2 ∨ s.fld Reg.TWN_STATUS_ROLE = 4) && !s.taking))

/-- The taking member blends its samples with those that its twin still forwards (R611 step 5). -/
def blending (s : State) : Bool :=
  s.taking && decide (s.twn.blendLeft ≠ 0) && s.flag Reg.TWN_STATUS_LINK

/-- The lockstep blocks of the member idle: it has FAILED (R584 Table 1). -/
def idles (s : State) : Bool := s.sys.straps.pair && decide (s.fld Reg.TWN_STATUS_ROLE = 5)

/-- The member is the feeding one of a Sorrel pair: the active, from K_H of a handover on the one that takes. -/
def leads (s : State) : Bool :=
  s.sys.straps.pair && (s.taking || (decide (s.fld Reg.TWN_STATUS_ROLE = 1) && !s.yielded))

/-- Grid index of the base words that the chain and the loops hold: of its own grid, or of the twin's last sample. -/
def chainK (s : State) : Int := if s.follows || s.blending then s.twn.nextK - 1 else s.tim.k

/-- Time as the chain marks it provisional: a member that follows takes it from its twin (R593). -/
def chainProv (s : State) : Bool := if s.follows then s.twn.prov else s.provisional

/-- Holdover as the chain marks it. -/
def chainHold (s : State) : Bool := if s.follows then s.twn.hold else s.inHoldover

/-- Put an entry among those of the same core cycle, which are written in ascending event number (R168). -/
def insRaised (x : Raised) : List Raised → List Raised
  | [] => [x]
  | y :: t => if y.entry.time = x.entry.time ∧ x.entry.event < y.entry.event then x :: y :: t else y :: insRaised x t

/-- Log an occurrence (R168): its entry is written at the end of the core cycle. A standby's own events do not enter its
streams; the active's go to the twin too (R594). -/
def logEvent (s : State) (ev : Nat) (forced : Bool) (lo hi : Word) : State :=
  let e : LogEntry := ⟨w32 s.nowNs, ev, forced, s.provisional, 0, lo, hi⟩
  { s with evt := { s.evt with raised := insRaised ⟨e, !s.follows, !s.follows && s.leads⟩ s.evt.raised } }

/-- Write one entry to the ring and hand it to the event-log streams (R168, R170). -/
def writeLog (s : State) (r : Raised) : State :=
  let h := s.fld Reg.EVT_LOG_HEAD_HEAD
  let e := { r.entry with seq := h }
  let s := { s with evt := { s.evt with
    log := s.evt.log.put (h % 1024) e, toTwin := if r.told then s.evt.toTwin ++ [logWords e] else s.evt.toTwin } }
  let s := s.setFld Reg.EVT_LOG_HEAD_HEAD 0 0 (h + 1)
  if r.fed then s.feedAll 4 (logWords e) else s

/-- The core cycle ends: its entries are written (R168). -/
def logged (s : State) : State :=
  s.evt.raised.foldl writeLog { s with evt := { s.evt with raised := [] } }

/-- Set the EVENT bit of an event and log the occurrence; `force` and `always` as R167 and R286 say. -/
def occur (s : State) (k : PageKind) (n b : Nat) (forced always : Bool) (lo hi : Word) : State :=
  let a := pageBase k n + 0xC
  let s := { s with regs := regWr s.regs a (regRd s.regs a ||| w32 (2 ^ b)) }
  let ev := k.eventBase n + b
  if always || s.flag Reg.EVT_ROUTE_LOG 0 ev then s.logEvent ev forced lo hi else s

/-- Raise event `b` of page `n` (R164). -/
def raise (s : State) (k : PageKind) (n b : Nat) (lo : Nat := 0) (hi : Nat := 0) : State :=
  s.occur k n b false false (w32 lo) (w32 hi)

/-! ### Frames -/

/-- The hub's own address (R40). -/
def addr (s : State) : Nat := s.fld Reg.SYS_ADDR

/-- The source address of the hub's streams: the even address in a Sorrel pair (R46). -/
def sourceAddr (s : State) : Nat := if s.sys.straps.pair then s.addr / 2 * 2 else s.addr

end State
end Sys2Proof.Machine
end

