-- ==== Sys2Proof/Machine/Frames.lean ====
section
/-!
DEFINITION. Hub frames (R552 to R560): the header, the body's bytes, the choice of the port, and what
a hub does with a frame that arrives.
-/
namespace Sys2Proof.Machine

/-- `n` bytes of `v`, most significant first, as the tag and the MAC addresses go. -/
def be (n v : Nat) : List Byte := (List.range n).map fun i => BitVec.ofNat 8 (v / 0x100 ^ (n - 1 - i))

/-- `n` bytes of `v`, least significant first (R552). -/
def le : Nat → Nat → List Byte
  | 0, _ => []
  | n + 1, v => BitVec.ofNat 8 v :: le n (v / 0x100)

/-- The bytes of a hub frame on the wire, but for preamble and FCS (R552, R554 Table 2): the MAC addresses and the tag as
IEEE 802.3 orders them, the header and the body little-endian. -/
def Frame.bytes (f : Frame) : List Byte :=
  be 6 f.dmac.toNat ++ be 6 f.hdr.smac.toNat ++ be 2 0x8100 ++ be 2 (0x2000 * f.pcp + f.vid) ++ be 2 f.etherType ++
    le 1 1 ++ le 1 f.type ++ le 2 f.body.length ++ le 2 f.hdr.dst.toNat ++ le 2 f.hdr.src.toNat ++
    le 1 (b2n f.hdr.dstv + 2 * b2n f.hdr.srcv + 4 * b2n f.hdr.bcast + 8 * b2n f.hdr.turned) ++ le 1 f.hdr.hops.toNat ++
    le 2 0 ++ le 4 f.hdr.seq.toNat ++ f.body

end Sys2Proof.Machine

namespace Sys2Proof

/-- Number of a port, as every port mask numbers it (R303). -/
def NetPort.ix : NetPort → Nat
  | .N => 0 | .S => 1 | .T => 2 | .M => 3

/-- The other ring port; N for T and M, which are not on the ring. -/
def NetPort.other : NetPort → NetPort
  | .N => .S | .S => .N | .T => .N | .M => .N

/-- Ports N and S (R547). -/
def NetPort.ring : NetPort → Bool
  | .N => true | .S => true | .T => false | .M => false

/-- All four ports. -/
def netPorts : List NetPort := [.N, .S, .T, .M]

end Sys2Proof

namespace Sys2Proof.Machine

namespace State

/-- What NET keeps of a port. -/
def port (s : State) (p : NetPort) : PortState := s.net.ports.lookD p.ix default

/-- Replace what NET keeps of a port. -/
def setPort (s : State) (p : NetPort) (v : PortState) : State :=
  { s with net := { s.net with ports := s.net.ports.put p.ix v } }

/-- The port is enabled and its PCS link is up. -/
def linked (s : State) (p : NetPort) : Bool :=
  s.flag Reg.NET_STATUS_EN p.ix && s.flag Reg.NET_STATUS_LINK p.ix

/-- The port is usable: its link is up and restored (R570, R580). -/
def usable (s : State) (p : NetPort) : Bool := s.linked p && s.flag Reg.NET_STATUS_USABLE p.ix

/-- The hub's source MAC (R553). -/
def mac (s : State) : BitVec 48 := BitVec.ofNat 48 (s.fld64 Reg.NET_MAC_SRC_LO_MAC Reg.NET_MAC_SRC_HI_MAC)

/-- The group MAC (R553). -/
def groupMac (s : State) : BitVec 48 :=
  BitVec.ofNat 48 (s.fld64 Reg.NET_MAC_GRP_LO_MAC Reg.NET_MAC_GRP_HI_MAC)

/-- The hub holds an address. -/
def hasAddr (s : State) : Bool := s.flag Reg.SYS_ADDR_VALID

/-- The header of a frame that the hub originates (R554 Table 2): `seq` is per sender and TYPE. -/
def hdr (s : State) (type : Nat) (dst : Option Nat) (bcast : Bool) : Hdr :=
  { smac := s.mac, dstv := dst.isSome, dst := BitVec.ofNat 16 (dst.getD 0), srcv := s.hasAddr,
    src := BitVec.ofNat 16 s.addr, bcast := bcast, turned := false, hops := 0,
    seq := w32 (s.net.seqs.lookD type 0) }

/-- Put a frame on a port whose link is up, under the VID and the EtherType in force (R552); nothing leaves a port that
is down. -/
def transmit (s : State) (p : NetPort) (f : Frame) : State :=
  if s.linked p then
    (s.put (.frame p { f with vid := s.fld Reg.NET_VID 0, etherType := s.fld Reg.NET_ETHERTYPE_TYPE 0 })).bump Reg.NET_TX_FRAMES_FRAMES p.ix 0 else s

/-- A PTP message as the hub puts it on the wire (R268 Table 1, R552): EtherType 0x88F7 to 01-1B-19-00-00-00, tagged with
PCP 7, version 2.1, of the hub's domain. -/
def ptpFrame (s : State) (type : Nat) (seq : BitVec 16) (corr : Int) (stamp : Tm) (tlv : Option RateTlv)
    (gm : Option PtpAnnounceMsg) : PtpFrame :=
  { dmac := 0x011B19000000#48, tpid := 0x8100, pcp := 7, vid := s.fld Reg.NET_VID 0, etherType := 0x88F7, version := 2
    minor := 1, domain := s.fld Reg.TIM_DOMAIN, type := type, seq := seq, correction := corr, stamp := stamp, tlv := tlv
    gm := gm }

/-- Put a PTP message on a port (R268, R271). -/
def sendPtp (s : State) (p : NetPort) (type : Nat) (seq : BitVec 16) (corr : Int) (stamp : Tm) (tlv : Option RateTlv)
    (gm : Option PtpAnnounceMsg := none) : State :=
  (s.put (.ptp p (s.ptpFrame type seq corr stamp tlv gm))).bump Reg.NET_TX_FRAMES_FRAMES p.ix 0

/-- Put a frame on a ring port, or on the other one while it is not usable; in the first 100 µs after the port
went down, before frames are turned, it is lost (R568). -/
def transmitRing (s : State) (p : NetPort) (f : Frame) : State :=
  if s.usable p then s.transmit p f
  else if (s.port p).downAt.isSome then s
  else if s.usable p.other then s.transmit p.other f else s

/-- Next SEQ of a TYPE. -/
def nextSeq (s : State) (type : Nat) : State :=
  { s with net := { s.net with seqs := s.net.seqs.put type ((s.net.seqs.lookD type 0 + 1) % 0x100000000) } }

/-- Originate a frame on one port: ring frames turn to the usable port, link-local ones do not. -/
def sendOn (s : State) (p : NetPort) (type pcp : Nat) (dst : Option Nat) (bcast : Bool) (body : List Byte)
    (local_ : Bool := false) : State :=
  let d := if p = .M ∧ !bcast ∧ type ≠ 1 then
      BitVec.ofNat 48 (s.net.macs.lookD (dst.getD 0) 0) else s.groupMac
  let f : Frame := { type := type, pcp := pcp, dmac := d, hdr := s.hdr type dst bcast, body := body }
  (if p.ring && !local_ then s.transmitRing p f else s.transmit p f).nextSeq type

/-- Originate a broadcast on N and on S, with one SEQ (R558). -/
def sendRing (s : State) (type pcp : Nat) (body : List Byte) : State :=
  let f : Frame := { type := type, pcp := pcp, dmac := s.groupMac, hdr := s.hdr type none true, body := body }
  ((if s.usable .N then s.transmit .N f else s) |> fun s' =>
    if s.usable .S then s'.transmit .S f else s').nextSeq type

/-- Originate a broadcast on every downlink (R572 Table 6): N and S, plus M on the top manager. -/
def sendDown (s : State) (type pcp : Nat) (body : List Byte) : State :=
  let f : Frame := { type := type, pcp := pcp, dmac := s.groupMac, hdr := s.hdr type none true, body := body }
  (if s.flag Reg.SYS_ADDR_TOP then s.transmit .M f else s).sendRing type pcp body

/-- The hop count via a ring port, while it is valid: the last beacon came within 30 ms (R558, R569). -/
def hops (s : State) (p : NetPort) : Option Nat :=
  if s.usable p ∧ !(s.port p).invalidated then
    ((s.port p).beacon.filter fun b => decide (s.life ≤ b.1 + 30000000 * Config.unitsPerNs)).map (·.2)
  else none

/-- The primary port (R558): the usable ring port with the lower valid hop count, N on a tie. -/
def primary (s : State) : Option NetPort :=
  match s.hops .N, s.hops .S with
  | some n, some m => if m < n then some .S else some .N
  | some _, none => some .N
  | none, some _ => some .S
  | none, none => none

/-- Send a frame to the hub's manager: a worker on its primary port, an area manager on M (R558). -/
def toManager (s : State) (type pcp : Nat) (body : List Byte) : State :=
  let dst := some (s.fld Reg.NET_MGR_ADDR)
  if !s.flag Reg.NET_MGR_VALID then s
  else if s.isManager then s.sendOn .M type pcp dst false body
  else match s.primary with
    | some p => s.sendOn p type pcp dst false body
    | none => s

/-- The join table entry of an address: 1 to 255 in the ring, 256 + area for an area manager (R562). -/
def entryOf (s : State) (a : Nat) : Nat :=
  if s.flag Reg.SYS_ADDR_TOP ∧ a % 256 = 0 then 256 + a / 256 else a % 256

/-- The address that an entry grants (R562). -/
def entryAddr (s : State) (e : Nat) : Nat :=
  if 256 < e then (e - 256) * 256 else s.addr / 256 * 256 + e

/-- The member that holds an address, when it is joined (R566). -/
def memberOf (s : State) (a : Nat) : Option Member := s.net.members.look (s.entryOf a)

/-- Send a frame to a member: on the port of its last HEARTBEAT with TURNED = 0 (R558). -/
def toMember (s : State) (a type pcp : Nat) (body : List Byte) : State :=
  match s.memberOf a with
  | some m => s.sendOn m.via type pcp (some a) false body
  | none => s

/-! ### Frames that arrive -/

/-- Whether a frame of this TYPE is admitted on a port (R547, R554 Table 3, R590): twin frames on T only, ring frames
not on T, probes not on M, BEACON and RING_STATE on the ring alone. -/
def admits (p : NetPort) (type : Nat) : Bool :=
  if 0x40 ≤ type then decide (p = .T)
  else if type = 5 ∨ type = 6 then decide (p ≠ .M)
  else if type = 7 ∨ type = 8 then p.ring
  else decide (p ≠ .T)

/-- A frame is for this hub (R555): broadcast, addressed to it, or for the first manager. -/
def forUs (s : State) (h : Hdr) : Bool :=
  h.bcast || (h.dstv && s.hasAddr && decide (h.dst.toNat = s.addr)) || (!h.dstv && s.isManager)

/-- The hub itself sent the frame. -/
def isOwn (s : State) (h : Hdr) : Bool :=
  decide (h.smac = s.mac) || (h.srcv && s.hasAddr && decide (h.src.toNat = s.addr))

/-- A broadcast that has been taken among the last 64 (R556). -/
def taken (s : State) (h : Hdr) (type : Nat) : Bool :=
  h.bcast && decide (type ≠ 7) && s.net.taken.contains (h.src.toNat, type, h.seq.toNat)

/-- Remember a broadcast as taken. -/
def remember (s : State) (h : Hdr) (type : Nat) : State :=
  if h.bcast ∧ type ≠ 7 then
    { s with net := { s.net with taken := ((h.src.toNat, type, h.seq.toNat) :: s.net.taken).take 64 } }
  else s

/-- Forward a frame round the ring (R556, from the test on DST on). -/
def forward (s : State) (p : NetPort) (type pcp : Nat) (h : Hdr) (body : List Byte) : State :=
  if (h.dstv && s.hasAddr && decide (h.dst.toNat = s.addr)) || (s.isManager && !h.dstv && !h.bcast) then s
  else if s.isManager && h.dstv && decide (h.dst.toNat / 256 ≠ s.addr / 256) then
    s.bump Reg.NET_DROPS_B_DROP_ROUTE p.ix 0
  else if h.hops.toNat + 1 = 255 then s.bump Reg.NET_DROPS_B_DROP_ROUTE p.ix 0
  else
    let h1 := { h with hops := h.hops + 1 }
    if s.usable p.other then s.transmit p.other { type := type, pcp := pcp, dmac := s.groupMac, hdr := h1, body := body }
    else if (s.port p.other).downAt.isSome then s
    else if h.turned then s.bump Reg.NET_DROPS_B_DROP_ROUTE p.ix 0
    else
      (s.transmit p { type := type, pcp := pcp, dmac := s.groupMac, hdr := { h1 with turned := true }
                      body := body }).bump Reg.NET_TURNED_FRAMES p.other.ix 0

/-- A hub frame arrives on port `p`. `mine` replaces the test on DST for a frame that R555 addresses
in another way (a GRANT, by its UID); `handle` is what the hub does with a frame for it. -/
def arrive (s : State) (p : NetPort) (type pcp : Nat) (h : Hdr) (body : List Byte) (mine : Option Bool)
    (handle : State → State) : State :=
  if !s.booted || !s.linked p then s
  else
    let s := s.bump Reg.NET_RX_FRAMES_FRAMES p.ix 0
    if !admits p type then s.bump Reg.NET_DROPS_A_DROP_TYPE p.ix 0
    else if s.isOwn h then s
    else
      let s := if p = .M ∧ h.srcv then
          { s with net := { s.net with macs := s.net.macs.put h.src.toNat h.smac.toNat } } else s
      let f := mine.getD (s.forUs h)
      let s1 := if f && !s.taken h type then handle (s.remember h type) else s
      if p.ring then s1.forward p type pcp h body else s1

end State
end Sys2Proof.Machine
end

