-- ==== Sys2Proof/Machine/Event.lean ====
section
/-!
DEFINITION. Event delivery (R164 to R170) and the semaphores' releases (R158 to R163): which events are
active, which vectors are pending, and what every command does last, when it settles their delivery.
-/
namespace Sys2Proof

/-- Instance of the page of a host port: 0 for HPA, 1 for HPB (R144). -/
def HostPort.ix : HostPort → Nat
  | .A => 0 | .B => 1

/-- The OWNER code of a port (R176). -/
def HostPort.code : HostPort → Nat
  | .A => 1 | .B => 2

end Sys2Proof

namespace Sys2Proof.Machine
namespace State

/-- What a host port keeps. -/
def hp (s : State) : HostPort → HpState
  | .A => s.hpA
  | .B => s.hpB

/-- Replace what a host port keeps. -/
def setHp (s : State) (p : HostPort) (h : HpState) : State :=
  match p with
  | .A => { s with hpA := h }
  | .B => { s with hpB := h }

/-- The port is bound to the network (R137). -/
def bound (s : State) (p : HostPort) : Bool := s.flag Reg.HP_CTRL_NETBIND p.ix

/-- The strap puts the port in serial mode (R126). -/
def serialMode (s : State) (p : HostPort) : Bool := s.flag Reg.HP_STATUS_MODE p.ix

/-- The active events, in ascending page and number (R165). -/
def activeEvents (s : State) : List Nat :=
  s.regs.flatMap fun (a, w) =>
    if a % 0x1000 = 0xC ∧ a < 0x100000 then
      match pageOf a with
      | some (k, n) =>
        if a ≠ pageBase k n + 0xC then [] else
        ((bitsOf 32 (w.toNat &&& (regRd s.regs (a + 4)).toNat)).filter fun b => decide (b < k.eventCount)).map
          fun b => k.eventBase n + b
      | none => []
    else []

/-- Vector of an event on a port, when the event is routed to it (R165). -/
def vectorOf (s : State) (p : HostPort) (ev : Nat) : Option Nat :=
  match p with
  | .A => if s.flag Reg.EVT_ROUTE_EN_A 0 ev then some (s.fld Reg.EVT_ROUTE_VEC_A 0 ev) else none
  | .B => if s.flag Reg.EVT_ROUTE_EN_B 0 ev then some (s.fld Reg.EVT_ROUTE_VEC_B 0 ev) else none

/-- EVT.PEND of a port (R165). -/
def pend (s : State) (p : HostPort) : Nat :=
  ((s.activeEvents.filterMap (s.vectorOf p)).foldl (fun m v => m ||| 2 ^ v) 0)

/-- EVT.MASK of a port. -/
def vecMask (s : State) : HostPort → Nat
  | .A => s.fld Reg.EVT_MASK_A_MASK
  | .B => s.fld Reg.EVT_MASK_B_MASK

/-- Word `w` of entry `v` of a port's MSI-X table (R175). -/
def msixAddr (p : HostPort) (v w : Nat) : Nat := 0x3000 + 0x1000 * p.ix + 0x800 + 16 * v + 4 * w

/-- A message of vector `v` is held back by its table entry or by the function mask (R166). -/
def msixHeld (s : State) (p : HostPort) (v : Nat) : Bool :=
  (s.hp p).msixFunctionMask || bit (regRd s.regs (msixAddr p v 3)).toNat 0

/-- Vector `v` of a port is unmasked (R136, R139, R166). -/
def unmasked (s : State) (p : HostPort) (v : Nat) : Bool :=
  !bit (s.vecMask p) v &&
    (s.bound p || s.serialMode p || ((s.hp p).msixEnable && !s.msixHeld p v))

/-- The vectors of a port that are pending and unmasked now. -/
def live (s : State) (p : HostPort) : Nat :=
  ((bitsOf 32 (s.pend p)).filter (s.unmasked p)).foldl (fun m v => m ||| 2 ^ v) 0

/-- The MSI-X pending-bit array of a port (R166). -/
def pba (s : State) (p : HostPort) : Nat :=
  if s.serialMode p || s.bound p || !(s.hp p).msixEnable then 0
  else ((bitsOf 32 (s.pend p)).filter fun v => !bit (s.vecMask p) v && s.msixHeld p v).foldl
    (fun m v => m ||| 2 ^ v) 0

/-- HPx_INT_L is low (R136). -/
def intLow (s : State) (p : HostPort) : Bool :=
  s.serialMode p && !s.bound p && decide (s.live p ≠ 0)

/-- The vectors that were live at the last delivery. -/
def liveWas (s : State) : HostPort → Word
  | .A => s.evt.liveA
  | .B => s.evt.liveB

/-- Remember the vectors that are live. -/
def setLive (s : State) (p : HostPort) (w : Word) : State :=
  match p with
  | .A => { s with evt := { s.evt with liveA := w } }
  | .B => { s with evt := { s.evt with liveB := w } }

/-- An event notice to the manager (R139, R555 Table 3). -/
def notice (s : State) (p : HostPort) : State :=
  s.toManager 0x22 4 (le 1 p.ix ++ le 3 0 ++ le 4 (s.pend p))

/-- What a port puts out when vectors become live: MSI-X messages, or one event notice (R139, R166). DESIGN CHOICE
(log 133): vectors that become pending at once share one notice, and a pending vector that becomes unmasked sends one
too; R139 speaks of a vector that becomes pending. -/
def announceLive (s : State) (p : HostPort) : State :=
  let new := (bitsOf 32 (s.live p)).filter fun v => !bit (s.liveWas p).toNat v
  if new = [] then s
  else if s.bound p then s.notice p
  else if s.serialMode p then s
  else new.foldl (fun s v => s.put (.msix p v)) s

/-- `n` bytes of zero. -/
def zeroBytes (n : Nat) : List Byte := List.replicate n 0

/-- The 16 bytes of a TW_EVENT entry (R590 Table 4). A log record takes two entries. -/
def twEntryBytes : TwEntry → List Byte
  | .write p a d => le 1 1 ++ le 1 p.ix ++ le 4 a.toNat ++ le 4 d.toNat ++ zeroBytes 6
  | .commit p => le 1 2 ++ le 2 p.toNat ++ zeroBytes 13
  | .edge i l ns => le 1 3 ++ le 1 i.val ++ le 1 (b2n l) ++ le 8 ns ++ zeroBytes 5
  | .nettrig m => le 1 4 ++ le 1 m.id.toNat ++ le 2 m.origin.toNat ++ le 4 m.time.toNat ++ zeroBytes 8
  | .ackpos i a => le 1 5 ++ le 1 i.val ++ le 6 a.toNat ++ zeroBytes 8
  | .level i l b => le 1 6 ++ le 1 i.val ++ le 1 l.val ++ le 4 b.toNat ++ zeroBytes 9
  | .log ws => le 1 7 ++ (wordsBytes ws).take 15 ++ le 1 8 ++ (wordsBytes ws).drop 15 ++ zeroBytes 14

/-- Put a twin frame on port T (R590). -/
def sendTwin (s : State) (type : Nat) (body : List Byte) : State :=
  (s.transmit .T { type := type, pcp := 7, dmac := s.groupMac, hdr := { s.hdr type none false with srcv := true }
                   body := body }).nextSeq type

/-- Send TW_EVENT entries of base instant `k` to the twin, from the active (R592). -/
def sendTwEvents (s : State) (k : Int) (es : List TwEntry) : State :=
  if s.leads ∧ es ≠ [] then
    let n := (es.map fun e => (twEntryBytes e).length / 16).sum
    s.sendTwin 0x41 (le 8 (toField 64 k) ++ le 2 n ++ zeroBytes 6 ++ es.flatMap twEntryBytes)
  else s

/-- Tell the twin of the log entries just written (R593). -/
def logToTwin (s : State) : State :=
  let es := s.evt.toTwin.map TwEntry.log
  { s with evt := { s.evt with toTwin := [] } }.sendTwEvents (s.tim.k + 1) es

/-- What every command does last, and a burst after each of its words: write the log entries (R168), deliver the vectors
that have become pending and unmasked, and remember those that are (R166). -/
def finish (s : State) : State :=
  let s := (s.logged.logToTwin.announceLive .A).announceLive .B
  (s.setLive .A (w32 (s.live .A))).setLive .B (w32 (s.live .B))

/-! ### Semaphores -/

/-- OWNER of a semaphore: 0 free, 1 port A, 2 port B, 3 the hub (R176). -/
def semOwner (s : State) (k : Nat) : Nat := s.fld Reg.SEM_LOCK_OWNER 0 k

/-- Free a semaphore: OWNER and TAG clear, and EV_SEM_RELEASED where NOTIFY asks for it (R159, R163). -/
def semFree (s : State) (k : Nat) : State :=
  let s := (s.setFld Reg.SEM_LOCK_OWNER 0 k 0).setFld Reg.SEM_LOCK_TAG 0 k 0
  if bit (s.fld64 Reg.SEM_NOTIFY_LO_NOTIFY Reg.SEM_NOTIFY_HI_NOTIFY) k then s.raise .SEM 0 0 else s

/-- Free a semaphore by force or by a port reset: FREED and EV_SEM_FORCED too (R162). -/
def semForceFree (s : State) (k : Nat) : State :=
  let s := s.semFree k
  let s := if k < 32 then s.orFld Reg.SEM_FREED_LO_FREED 0 0 (2 ^ k)
    else s.orFld Reg.SEM_FREED_HI_FREED 0 0 (2 ^ (k - 32))
  s.raise .SEM 0 1

/-- Free every semaphore whose OWNER code satisfies `f`, as by force. -/
def semForceAll (s : State) (f : Nat → Bool) : State :=
  ((List.range 64).filter fun k => f (s.semOwner k)).foldl (fun s k => s.semForceFree k) s

end State
end Sys2Proof.Machine
end

