-- ==== Sys2Proof/Machine/Journal.lean ====
section
/-!
DEFINITION. The slots of the calibration journal in the boot flash (R253, R256, R259): what a store writes, and what
a store that is cut short leaves.
-/
namespace Sys2Proof.Machine

/-- Bytes of one point of a slot; an empty one is 0, 0, 0 and TEMP 0x8000. -/
def pointBytes (c : Option CalPoint) : List Byte :=
  match c with
  | some c => le 4 (toField 32 c.offset) ++ le 4 c.gain ++ le 2 (toField 16 c.sq) ++ le 2 (toField 16 c.temp)
  | none => le 8 0 ++ le 2 0 ++ le 2 0x8000

/-- The little-endian number of some bytes. -/
def leNat : List Byte → Nat
  | [] => 0
  | b :: t => b.toNat + 0x100 * leNat t

/-- The point that 12 bytes of a slot or of the coefficient images spell. -/
def bytesPoint (bs : List Byte) : Option CalPoint :=
  let temp := leNat ((bs.drop 10).take 2)
  if temp = 0x8000 then none
  else some ⟨sext 32 (leNat (bs.take 4)), leNat ((bs.drop 4).take 4), sext 16 (leNat ((bs.drop 8).take 2)), sext 16 temp⟩

/-- The table that 96 bytes of a slot or of the coefficient images spell. -/
def bytesTable (bs : List Byte) : List CalPoint := (List.range 8).filterMap fun j => bytesPoint ((bs.drop (12 * j)).take 12)

/-- The bytes of a slot that the CRC covers (R253 Table 7). -/
def slotBody (tables : SMap (List CalPoint)) (gen : Nat) : List Byte :=
  le 4 0x4A4C4143 ++ le 2 1 ++ le 2 0 ++ le 4 gen ++ le 8 Config.uid.toNat ++ le 4 0x33040 ++ le 40 0 ++
  (List.range (272 * 8)).flatMap fun t =>
    let l := tables.lookD t []
    (List.range 8).flatMap fun i => pointBytes (l.drop i).head?

/-- Base of a journal slot. -/
def slotBase (i : Nat) : Nat := 0x800000 + 0x40000 * i

/-- The flash with the 256 KiB of a slot erased (R256 step 3). -/
def eraseSlot (m : SMap Byte) (i : Nat) : SMap Byte :=
  m.filter fun e => decide (e.1 < slotBase i ∨ slotBase i + 0x40000 ≤ e.1)

/-- The flash after steps 3 to 5 of a store (R256): the slot erased, then its body and its CRC programmed. -/
def programSlot (m : SMap Byte) (i : Nat) (body : List Byte) : SMap Byte :=
  memWrs Config.flashBlank (eraseSlot m i) (slotBase i) (body ++ le 4 (crc32c body).toNat)

/-- The flash with a slot that is partly erased or programmed, and invalid by CRC (R259 Table 9), from free bytes of its
body and a free number. -/
def spoilSlot (m : SMap Byte) (i : Nat) (body : List Byte) (n : Nat) : SMap Byte :=
  let crc := ((crc32c body).toNat + 1 + n % 0xFFFFFFFF) % 0x100000000
  memWrs Config.flashBlank (eraseSlot m i) (slotBase i) (body ++ le 4 crc)

namespace State

/-- `n` free bytes. -/
def freeBytes (s : State) (n : Nat) : List Byte :=
  (List.range n).map fun i => BitVec.ofNat 8 (Config.freeWord (s.free + i)).toNat

/-- The slot that a store writes, and its generation (R256). -/
def storeTarget (s : State) : Nat × Nat :=
  let v0 := s.flag Reg.CAL_JOURNAL_STATUS_VALID0
  let v1 := s.flag Reg.CAL_JOURNAL_STATUS_VALID1
  if v0 || v1 then (1 - s.fld Reg.CAL_JOURNAL_STATUS_NEWEST, (s.fld Reg.CAL_JOURNAL_GEN_GEN + 1) % 0x100000000)
  else (0, 1)

/-- What a whole-hub reset leaves in the flash (R259): a store in its first two steps has changed nothing; one past them
has either programmed its last page, and the slot is valid, or leaves it invalid by CRC. Which is a free value. -/
def storeCut (s : State) : State :=
  match s.cal.storing with
  | none => s
  | some tables =>
    if s.flag Reg.CAL_STATUS_SEM_WAIT then s
    else
      let t := s.storeTarget
      let flash := if Config.freeBit s.free then programSlot s.flash t.1 (slotBody tables t.2)
        else spoilSlot s.flash t.1 (s.freeBytes 0x33040) (Config.freeWord (s.free + 0x33040)).toNat
      { s with flash := flash, free := s.free + 0x33041 }

end State
end Sys2Proof.Machine
end

