-- ==== Sys2Proof/Machine/Sys.lean ====
section
/-!
DEFINITION. Resets (R78 to R94), the release of reset (R99 steps 1 and 2), the waits of the boot sequence,
and the reset of a host port (R140). The steps of the boot that write registers stand in Machine/Boot.lean.
-/
namespace Sys2Proof.Machine
namespace State

/-! ### Host port link and reset -/

/-- Set HPx.STATUS.LINK_UP; a change raises EV_HPx_LINK (R178). -/
def setLinkUp (s : State) (p : HostPort) (v : Bool) : State :=
  if s.flag Reg.HP_STATUS_LINK_UP p.ix = v then s
  else (s.setFlag Reg.HP_STATUS_LINK_UP p.ix 0 v).raise .HP p.ix 0

/-- What LINK_UP is to read (R175 Table 8): joined while bound, 1 in serial mode, L0 in PCIe mode. -/
def linkValue (s : State) (p : HostPort) : Bool :=
  if s.bound p then s.flag Reg.SYS_JOIN_STATUS_JOINED
  else if s.serialMode p then true
  else (s.hp p).inL0

/-- Bring LINK_UP of both ports up to date. -/
def refreshLinks (s : State) : State :=
  let s := s.setLinkUp .A (s.linkValue .A)
  s.setLinkUp .B (s.linkValue .B)

/-- Release the boot claim and discard the staged data (R105). -/
def releaseClaim (s : State) : State :=
  let s := (s.setFld Reg.SYS_BOOT_STATUS_OWNER 0 0 0).setFld Reg.SYS_BOOT_CTRL_CLAIM 0 0 0
  { s with sys := { s.sys with staging := [], loadPending := false } }

/-- The words of a port's MSI-X table back at their reset values. -/
def clearMsix (s : State) (p : HostPort) : State :=
  { s with regs := s.regs.filter fun e =>
      !(decide (msixAddr p 0 0 ≤ e.1) && decide (e.1 < msixAddr p 32 0)) }

/-- A port reset of port `p` (R140). -/
def portReset (s : State) (p : HostPort) : State :=
  let s := s.raise .HP p.ix 1
  let s := s.semForceAll fun o => decide (o = p.code)
  let s := if s.fld Reg.SYS_BOOT_STATUS_OWNER = p.code ∧ s.sys.phase ≠ .booted then s.releaseClaim else s
  let s := s.clearMsix p
  let s := match p with
    | .A => (s.setFld Reg.EVT_MASK_A_MASK 0 0 0xFFFFFFFF).setFld Reg.EVT_LOG_IDX_A_IDX 0 0 0
    | .B => (s.setFld Reg.EVT_MASK_B_MASK 0 0 0xFFFFFFFF).setFld Reg.EVT_LOG_IDX_B_IDX 0 0 0
  if s.serialMode p then s
  else
    let s := s.setHp p { s.hp p with inL0 := false, msixEnable := false, msixFunctionMask := false }
    let s := (s.setFld Reg.HP_STATUS_SPEED p.ix 0 0).setFld Reg.HP_STATUS_WIDTH p.ix 0 0
    if s.bound p then s else s.setLinkUp p false

/-! ### Whole-hub reset -/

/-- RST_CAUSE as a whole-hub reset leaves it (R92): bit `b` is added. -/
def causeWord (s : State) (b : Nat) : Nat := (regRd s.regs 0x10C).toNat ||| 2 ^ b

/-- Put the hub into whole-hub reset (R89, R93, R94) with RST_CAUSE `cause`: every register and block at
its reset state, the DRAM lost. What a reset does not touch is kept: the boot flash, the levels on the
balls, the VDDIO modes (R79), the reset sources that still hold, and the test logic (R678). A self-test that
runs is abandoned, and BIST_RES tells so (R691, Table 6 of R693). -/
def intoReset (s : State) (cause : Nat) : State :=
  let s := s.storeCut
  let r := State.reset
  let ir := s.fld Reg.DBG_STATUS_IR
  let cut := s.flag Reg.DBG_STATUS_BIST_BUSY
  let t := s.dbg.target
  let r := { r with
    regs := regWr r.regs 0x10C (w32 cause)
    sys := { r.sys with sources := s.sys.sources, vddio := s.sys.vddio, warned := s.sys.warned }
    hpA := { r.hpA with perstLow := s.hpA.perstLow }
    hpB := { r.hpB with perstLow := s.hpB.perstLow }
    pins := s.pins
    dbg := { s.dbg with target := 0, measured := 0 }
    flash := s.flash
    free := s.free
    outbox := s.outbox
    pending := s.pending }
  let r := if cut then (r.setFld Reg.DBG_BIST_RES_RESULT 0 0 3).setFld Reg.DBG_BIST_RES_TARGET 0 0 t else r
  (r.setFld Reg.DBG_STATUS_IR 0 0 ir).setFlag Reg.DBG_STATUS_TESTMODE 0 0 s.pins.testen

/-- Note a reset source that holds on (R91). -/
def addSource (s : State) (x : ResetSource) : State :=
  { s with sys := { s.sys with sources := x :: s.sys.sources.filter fun y => decide (y ≠ x) } }

/-- Test-Logic-Reset (R678): IDCODE is selected and every boundary cell released. -/
def testReset (s : State) : State :=
  { (s.setFld Reg.DBG_STATUS_IR 0 0 1) with dbg := { s.dbg with cells := [], testDrive := false } }

end State

/-- The level in millivolts below which a rail's supervisor trips (R78 Table 1, R79). -/
def tripMv (s : State) : Rail → Nat
  | .AVDD5 => 4500
  | .AVDD18 => 1620
  | .DVDD => 680
  | .VDD2 => 1000
  | .VDDQ => 540
  | .VDDIO k => if s.sys.vddio.lookD k.val false then 2970 else 1620

/-- POWER_ON_RESET: a supply comes up for the first time, or a rail stands below its trip level (R89, R92). -/
def execPowerOnReset (c : PowerCause) (s : State) : Host.Outcome State Fault Refusal :=
  match c with
  | .firstPower =>
    .next (({ s with sys := { s.sys with vddio := [], sources := powerSources, warned := false } }.intoReset 1).testReset).finish
  | .railLow r mv =>
    if mv < tripMv s r then
      let s := s.addSource (.rail r)
      let s := match r with
        | .VDDIO k => if mv < 1000 then { s with sys := { s.sys with vddio := s.sys.vddio.del k.val } } else s
        | _ => s
      .next ((s.intoReset 1).testReset).finish
    else .next s.finish

/-- VDDIO_MODE_CHOICE: the mode of a bank, once, 10 ms after its supervisor has reported the rail above 1.62 V; `mv` is
where the rail stands at that moment (R79). -/
def execVddioModeChoice (bank : Fin 4) (mv : Nat) (s : State) : Host.Outcome State Fault Refusal :=
  match s.sys.vddio.look bank.val with
  | some _ => .next s.finish
  | none =>
    if s.sys.sources.contains (.rail (.VDDIO bank)) then .next s.finish
    else
      let hi := decide (2500 < mv)
      let s := { s with sys := { s.sys with vddio := s.sys.vddio.put bank.val hi } }
      .next (if hi then s.orFld Reg.SYS_STRAPS_VDDIO3V3 0 0 (2 ^ bank.val) else s).finish

/-- PIN_RESET: RESET_L low for `ns` nanoseconds (R89, R90). From 100 ns to 1 µs the spec leaves it open. -/
def execPinReset (ns : Nat) (s : State) : Host.Outcome State Fault Refusal :=
  if ns < 100 then .next s.finish
  else
    let hit := decide (1000 ≤ ns) || Config.freeBit s.free
    let s := if ns < 1000 then s.drawn else s
    .next (if hit then (s.addSource .pin).intoReset (s.causeWord 1) else s).finish

/-- REFCLK_LOSS: no REFCLK edge for `ns` nanoseconds (R88). -/
def execRefclkLoss (ns : Nat) (s : State) : Host.Outcome State Fault Refusal :=
  .next (if 400 ≤ ns then (s.addSource .clock).intoReset (s.causeWord 2) else s).finish

/-- THERMAL_RESET: the junction at `t8` eighths of a degree (R89): 120 °C or above resets the hub. -/
def execThermalReset (t8 : Int) (s : State) : Host.Outcome State Fault Refusal :=
  .next (if 960 ≤ t8 then (s.addSource (.thermal 0)).intoReset (s.causeWord 3) else s).finish

/-- The junction has fallen below 100 °C: the next 105 °C raises EV_SYS_THERM_WARN again (R125). -/
def State.coolDown (s : State) (t8 : Int) : State :=
  if t8 < 800 then { s with sys := { s.sys with warned := false } } else s

/-- THERM_WARN: the junction at `t8` eighths of a degree (R125). -/
def execThermWarn (t8 : Int) (s : State) : Host.Outcome State Fault Refusal :=
  if 840 ≤ t8 ∧ !s.sys.warned ∧ !s.sys.inReset then
    .next ({ s with sys := { s.sys with warned := true } }.raise .SYS 0 2).finish
  else .next (s.coolDown t8).finish

/-- WATCHDOG_RESET: an internal sequencer has missed its heartbeat for `ms` milliseconds (R89). -/
def execWatchdogReset (ms : Nat) (s : State) : Host.Outcome State Fault Refusal :=
  .next (if 100 ≤ ms ∧ !s.sys.inReset then s.intoReset (s.causeWord 5) else s).finish

/-- RESET_SOURCE_END: a source of R91 ends; the thermal one when the junction has fallen to 100 °C. -/
def execResetSourceEnd (src : ResetSource) (s : State) : Host.Outcome State Fault Refusal :=
  let keep : ResetSource → Bool := match src with
    | .thermal t8 => fun y => match y with
      | .thermal _ => decide (800 < t8)
      | _ => true
    | x => fun y => decide (y ≠ x)
  let s := { s with sys := { s.sys with sources := s.sys.sources.filter keep } }
  .next (match src with
    | .thermal t8 => s.coolDown t8
    | _ => s).finish

/-- RESET_RELEASE: reset ends (R83, R91), the straps are sampled (R70), the core PLL locks and the host
ports come up (R99 steps 1 and 2). A port whose HPx_PERST_L is low is in port reset from then on (R140). -/
def execResetRelease (st : Straps) (s : State) : Host.Outcome State Fault Refusal :=
  if !s.sys.inReset || !s.sys.sources.isEmpty || !decide (s.sys.vddio.length = 4) then .next s.finish
  else
    let v := (s.sys.vddio.filter (·.2)).foldl (fun m e => m + 2 ^ e.1) 0
    let s := { s with sys := { s.sys with inReset := false, straps := st, phase := .training, delay := 1 } }
    let s := (s.setFlag Reg.SYS_STRAPS_ROLE 0 0 st.role).setFlag Reg.SYS_STRAPS_PAIR 0 0 st.pair
    let s := (s.setFlag Reg.SYS_STRAPS_TWIN 0 0 st.twin).setFld Reg.SYS_STRAPS_BOOT 0 0 st.boot.toNat
    let s := (s.setFlag Reg.SYS_STRAPS_HPA 0 0 st.hpa).setFlag Reg.SYS_STRAPS_HPB 0 0 st.hpb
    let s := (s.setFld Reg.SYS_STRAPS_VDDIO3V3 0 0 v).setFlag Reg.SYS_CLK_STATUS_CORE_LOCK 0 0 true
    let s := (s.setFlag Reg.HP_STATUS_MODE 0 0 st.hpa).setFlag Reg.HP_STATUS_MODE 1 0 st.hpb
    let s := s.setFlag Reg.HP_STATUS_PERST 0 0 s.hpA.perstLow
    let s := s.setFlag Reg.HP_STATUS_PERST 1 0 s.hpB.perstLow
    let s := s.setFlag Reg.TWN_STATUS_DRIVE_MON 0 0 s.pins.driveMon
    let s := s.refreshLinks
    let s := if s.hpA.perstLow then s.portReset .A else s
    .next (if s.hpB.perstLow then s.portReset .B else s).finish

/-- The hub loads from flash: the straps are 00 or 11 (R100). -/
def fromFlash (s : State) : Bool := decide (s.sys.straps.boot = 0 ∨ s.sys.straps.boot = 3)

/-- BACKOFF_WAIT_END: the next pass begins and the delay doubles, up to 8 s (R100). -/
def execBackoffWaitEnd (s : State) : Host.Outcome State Fault Refusal :=
  if s.sys.phase ≠ .backoff then .next s.finish
  else
    let s := { s with sys := { s.sys with delay := min (2 * s.sys.delay) 8 } }
    let s := s.setFld Reg.SYS_BOOT_STATUS_STATE 0 0 0
    .next { s with sys := { s.sys with phase := if s.sys.trained then .tryA else .training } }.finish

end Sys2Proof.Machine
end

