-- ==== Sys2Proof/Machine/Mem.lean ====
section
/-!
DEFINITION. The memory behind every block: the inline Reed–Solomon code (R525 to R529), the regions
(R536), the accesses of a block or of a host to a run of bytes (R527, R540), and the marks of training.
The byte at an aperture offset is what was last written to it; `MemState.errs` holds how the devices
differ from that, symbol by symbol.
-/
namespace Sys2Proof.Machine

/-! ### The field of R526 -/

/-- `x` times α in GF(2⁸) with x⁸ + x⁴ + x³ + x² + 1 (R526). -/
def gfTwice (x : Nat) : Nat := if x < 0x80 then 2 * x else (2 * x) ^^^ 0x11D

/-- The product in GF(2⁸): `n` more bits of `b` from the least significant one. -/
def gfMulBits : Nat → Nat → Nat → Nat
  | 0, _, _ => 0
  | n + 1, a, b => (if b % 2 = 1 then a else 0) ^^^ gfMulBits n (gfTwice a) (b / 2)

/-- The product in GF(2⁸). -/
def gfMul (a b : Nat) : Nat := gfMulBits 8 a b

/-- α to the power `n`. -/
def gfExp : Nat → Nat
  | 0 => 1
  | n + 1 => gfTwice (gfExp n)

/-- `a` to the power `n`. -/
def gfPow (a : Nat) : Nat → Nat
  | 0 => 1
  | n + 1 => gfMul a (gfPow a n)

/-- The quotient in GF(2⁸): a nonzero element to the power 254 is its inverse. -/
def gfDiv (a b : Nat) : Nat := gfMul a (gfPow b 254)

/-! ### Decoding (R526, R528) -/

/-- An error pattern of one codeword: symbol and difference. -/
abbrev ErrPat := List (Nat × Nat)

/-- Syndrome `i` of an error pattern: symbol `j` is the coefficient of x^(35 − j). -/
def syndrome (e : ErrPat) (i : Nat) : Nat :=
  e.foldl (fun acc (j, v) => acc ^^^ gfMul v (gfExp (i * (35 - j)))) 0

/-- The value of the polynomial of a pattern agrees with four syndromes. -/
def fits (e : ErrPat) (syn : List Nat) : Bool :=
  (List.range 4).all fun i => decide (syndrome e i = syn.getD i 0)

/-- The one-symbol patterns with the first syndrome. -/
def oneSymbol (syn : List Nat) : List ErrPat :=
  (List.range 36).map fun j => [(j, syn.getD 0 0)]

/-- The two-symbol patterns with the first two syndromes. -/
def twoSymbols (syn : List Nat) : List ErrPat :=
  (List.range 36).flatMap fun j => ((List.range 36).filter fun k => decide (j < k)).map fun k =>
    let aj := gfExp (35 - j)
    let ak := gfExp (35 - k)
    let vk := gfDiv ((syn.getD 1 0) ^^^ gfMul (syn.getD 0 0) aj) (aj ^^^ ak)
    [(j, (syn.getD 0 0) ^^^ vk), (k, vk)]

/-- What the decoder makes of a codeword (R528). -/
inductive Decoded where
  | clean
  | corrected (pattern : ErrPat)
  | bad
deriving DecidableEq, Repr

/-- Decode a codeword that differs by `e` from what was written. -/
def rsDecode (e : ErrPat) : Decoded :=
  let syn := (List.range 4).map (syndrome e)
  if syn.all (· = 0) then .clean
  else match (oneSymbol syn).find? fun p => fits p syn with
    | some p => .corrected p
    | none =>
      match (twoSymbols syn).find? fun p => fits p syn && p.all fun x => decide (x.2 ≠ 0) with
      | some p => .corrected p
      | none => .bad

/-- Check symbols of 32 data bytes (R526): the remainder of the data polynomial shifted by x⁴, by
division through g(x) = (x − 1)(x − α)(x − α²)(x − α³). -/
def rsCheck (data : List Byte) : List Nat :=
  let g3 := 1 ^^^ gfExp 1 ^^^ gfExp 2 ^^^ gfExp 3
  let g2 := gfExp 1 ^^^ gfExp 2 ^^^ gfExp 3 ^^^ gfExp 3 ^^^ gfExp 4 ^^^ gfExp 5
  let g1 := gfExp 3 ^^^ gfExp 4 ^^^ gfExp 5 ^^^ gfExp 6
  let g0 := gfExp 6
  data.foldl (fun r b =>
    let q := b.toNat ^^^ r.getD 0 0
    [(r.getD 1 0) ^^^ gfMul q g3, (r.getD 2 0) ^^^ gfMul q g2, (r.getD 3 0) ^^^ gfMul q g1, gfMul q g0])
    [0, 0, 0, 0]

namespace State

/-! ### Errors of the devices -/

/-- The error pattern of a codeword. -/
def errPat (s : State) (cw : Nat) : ErrPat :=
  (s.mem.errs.filter fun e => decide (e.1 / 36 = cw)).map fun e => (e.1 % 36, e.2.toNat)

/-- Symbols go wrong in the devices: each entry flips bits of symbol `e.1 % 36` of codeword `e.1 / 36`. -/
def addErrs (s : State) (es : List (Nat × Byte)) : State :=
  let errs := es.foldl (fun m e => memWr 0 m e.1 (memRd 0 m e.1 ^^^ e.2)) s.mem.errs
  { s with mem := { s.mem with errs := errs } }

/-- The codeword holds no wrong symbol. -/
def clearErrs (s : State) (cw : Nat) : State :=
  let errs := s.mem.errs.filter fun e => decide (e.1 / 36 ≠ cw)
  { s with mem := { s.mem with errs := errs } }

/-- Change the data symbols of a codeword by a pattern. -/
def xorData (s : State) (cw : Nat) (p : ErrPat) : State :=
  let dram := (p.filter fun x => decide (x.1 < 32)).foldl (fun m x =>
    memWr Config.dramBlank m (32 * cw + x.1)
      (memRd Config.dramBlank m (32 * cw + x.1) ^^^ BitVec.ofNat 8 x.2)) s.dram
  { s with dram := dram }

/-! ### Regions (R536) -/

/-- Base of region `r` in force, in bytes. -/
def regionBase (s : State) (r : Nat) : Nat := s.fld Reg.MEM_REGION_BASE_MIB 0 r * 0x100000

/-- End of the usable memory, in bytes (R524). -/
def usableBytes (s : State) : Nat := s.fld Reg.MEM_USABLE_MIB * 0x100000

/-- The region of an offset below USABLE: the last one whose base is not above it and that is not empty. -/
def regionOf (s : State) (a : Nat) : Nat :=
  if a < s.regionBase 1 then 0
  else if a < s.regionBase 2 then 1
  else if a < s.regionBase 3 then 2
  else if a < s.regionBase 4 then 3
  else if a < s.regionBase 5 then 4
  else 5

/-! ### Access to a codeword (R527, R528) -/

/-- Record a corrected codeword (R528 Table 2, R546). -/
def noteCe (s : State) (cw n : Nat) (scrub : Bool) : State :=
  let a := 32 * cw
  let s := s.bumpSat Reg.MEM_CE_COUNT_CE 0 0
  let hi := a / 0x100000000 + 4 * s.regionOf a + 0x20 * b2n scrub + 0x40 * n
  let s := { s with regs := regWr (regWr s.regs 0x8015C (w32 a)) 0x80160 (w32 hi) }
  let s := if scrub then { s with mem := { s.mem with ceInPass := s.mem.ceInPass + 1 } } else s
  let due := match s.mem.lastCe with
    | some t => decide (t + 100000000 * Config.unitsPerNs ≤ s.life)
    | none => true
  if due then
    ({ s with mem := { s.mem with lastCe := some s.life } }).raise .MEM 0 0 (w32 a).toNat hi
  else s

/-- Record an uncorrectable codeword (R528 Table 2). -/
def noteUe (s : State) (cw : Nat) (scrub write : Bool) : State :=
  let a := 32 * cw
  let s := s.bumpSat Reg.MEM_UE_COUNT_UE 0 0
  let hi := a / 0x100000000 + 4 * s.regionOf a + 0x20 * b2n scrub + 0x40 * b2n write
  let s := { s with regs := regWr (regWr s.regs 0x80164 (w32 a)) 0x80168 (w32 hi) }
  s.raise .MEM 0 1 (w32 a).toNat hi

/-- Read and decode one codeword (R528): whether its data is good. A corrected codeword is rewritten. -/
def touch (s : State) (cw : Nat) (scrub write : Bool) : State × Bool :=
  let e := s.errPat cw
  match rsDecode e with
  | .clean => (s, true)
  | .corrected p =>
    let s := ((s.xorData cw e).xorData cw p).clearErrs cw
    (s.noteCe cw p.length scrub, true)
  | .bad => (s.noteUe cw scrub write, false)

/-- The byte at an offset as the devices hold it. -/
def storedByte (s : State) (a : Nat) : Byte :=
  memRd Config.dramBlank s.dram a ^^^ memRd 0 s.mem.errs (36 * (a / 32) + a % 32)

/-- Codewords that a run of `n` bytes from `a` touches. -/
def codewords (a n : Nat) : List Nat :=
  if n = 0 then [] else (List.range ((a + n - 1) / 32 - a / 32 + 1)).map fun i => a / 32 + i

/-- Read `n` bytes at an offset (R527, R528): the bytes, and whether every codeword was good. -/
def dramRead (s : State) (a n : Nat) : State × List Byte × Bool :=
  let r := (codewords a n).foldl (fun (acc : State × Bool) cw =>
    let t := acc.1.touch cw false false
    (t.1, acc.2 && t.2)) (s, true)
  (r.1, (List.range n).map (fun i => r.1.storedByte (a + i)), r.2)

/-- Write bytes at an offset (R527): whole codewords as they are, the others by read-modify-write; a
partial write to an uncorrectable codeword is dropped (R528 Table 2). -/
def dramWrite (s : State) (a : Nat) (bs : List Byte) : State :=
  (codewords a bs.length).foldl (fun s cw =>
    let lo := max a (32 * cw)
    let hi := min (a + bs.length) (32 * cw + 32)
    let part := (bs.drop (lo - a)).take (hi - lo)
    let store := fun (s : State) =>
      { s.clearErrs cw with dram := memWrs Config.dramBlank s.dram lo part }
    if part.length = 32 then store s
    else
      let t := s.touch cw false true
      if t.2 then store t.1 else t.1) s

/-- Read the little-endian words at some offsets, in their order, and whether each was good: a codeword that several of
them in a row share is read once (R527, R528). `last` is the codeword read last. -/
def dramWords : List Nat → Option (Nat × Bool) → State → State × List (Word × Bool)
  | [], _, s => (s, [])
  | a :: t, last, s =>
    let r := match last with
      | some (cw, ok) => if a / 32 = cw then (s, ok) else s.touch (a / 32) false false
      | none => s.touch (a / 32) false false
    let w := leWord ((List.range 4).map fun i => r.1.storedByte (a + i))
    let rest := dramWords t (some (a / 32, r.2)) r.1
    (rest.1, (w, r.2) :: rest.2)

/-- Read one little-endian word of a region (R450). -/
def dramWord (s : State) (a : Nat) : State × Word × Bool :=
  let r := s.dramRead a 4
  (r.1, leWord r.2.1, r.2.2)

end State
end Sys2Proof.Machine
end

