-- ==== Sys2Proof/Machine/Tim.lean ====
section
/-!
DEFINITION. Network time (R265 to R306): the counter and its rate, the PTP messages and paths, the time
states and the asymmetry decision. Times are in 2⁻¹⁶ ns, rates are (value − 1) × 2⁴¹.
-/
namespace Sys2Proof.Machine

/-- Saturate a value in 2⁻¹⁶ ns to a signed 32-bit word in 2⁻⁸ ns (R304). -/
def toQ8 (x : Int) : Int := clamp (-0x80000000) 0x7FFFFFFF (rdiv x 256)

/-- Saturate a value in 2⁻¹⁶ ns to an unsigned 32-bit word in 2⁻⁸ ns (R304, R306). -/
def toU8 (x : Int) : Nat := (clamp 0 0xFFFFFFFF (rdiv x 256)).toNat

/-- Mean of a list; 0 of the empty one. -/
def meanI (l : List Int) : Int := if l = [] then 0 else rdiv l.sum l.length

/-- The integer square root from below, one bit at a time. -/
def isqrtBits : Nat → Nat → Nat → Nat
  | 0, _, r => r
  | b + 1, n, r => if (r + 2 ^ b) * (r + 2 ^ b) ≤ n then isqrtBits b n (r + 2 ^ b) else isqrtBits b n r

/-- The integer square root, rounded down. -/
def isqrt (n : Nat) : Nat := isqrtBits 40 n 0

/-- The product of two rates near 1, each as (value − 1) × 2⁴¹. -/
def rateMul (a b : Int) : Int := a + b + rdiv (a * b) (2 ^ 41)

/-- Slope of a straight-line fit through (time, value) points: numerator and denominator. -/
def fitSlope (l : List (Int × Int)) : Int × Int :=
  let n : Int := l.length
  let st := (l.map (·.1)).sum
  let sr := (l.map (·.2)).sum
  let stt := (l.map fun e => e.1 * e.1).sum
  let str := (l.map fun e => e.1 * e.2).sum
  (n * str - st * sr, n * stt - st * st)

/-- One hour in 2⁻¹⁶ ns. -/
def hourUnits : Int := 3600 * 1000000000 * 0x10000

/-- Ports that can be a path, in order, with their bits (R276, R303). -/
def pathPorts : List NetPort := [.N, .S, .M]

namespace State

/-- What TIM keeps of a path. -/
def path (s : State) (p : NetPort) : PathState := s.tim.paths.lookD p.ix default

/-- Replace what TIM keeps of a path. -/
def setPath (s : State) (p : NetPort) (v : PathState) : State :=
  { s with tim := { s.tim with paths := s.tim.paths.put p.ix v } }

/-- The time state (R282 Table 3): 0 free, 1 locking, 2 locked, 3 holdover, 4 lost. -/
def timeState (s : State) : Nat := s.fld Reg.TIM_STATUS_STATE

/-- The hub syntonizes (R275). -/
def synton (s : State) : Bool := s.flag Reg.TIM_STATUS_SYNTON

/-- The trusted set T as a port mask (R284, R292): of N, S and M, for T is no path. -/
def trust (s : State) : Nat := s.fld Reg.TIM_STATUS_TRUST &&& 0xB

/-- Path `p` is available (R276). -/
def avail (s : State) (p : NetPort) : Bool := bit (s.fld Reg.TIM_STATUS_AVAIL) p.ix

/-- d(p) of R281. -/
def dPath (s : State) (p : NetPort) : Int := meanI ((s.path p).recent.map (·.1))

/-- o(p) of R281. -/
def oPath (s : State) (p : NetPort) : Int := meanI ((s.path p).recent.map (·.2))

/-- The mean of o(p) over a set of paths. -/
def oMean (s : State) (mask : Nat) : Int :=
  meanI ((pathPorts.filter fun p => bit mask p.ix).map s.oPath)

/-- The sync interval I in 2⁻⁷ s (R268: logSyncInterval −7 to 0). -/
def syncUnits (s : State) : Nat := 2 ^ (7 + s.fldS Reg.TIM_INTERVALS_LOG_SYNC).toNat

/-- The sync interval in 2⁻¹⁶ ns: 2⁻⁷ s is 7,812,500 ns. -/
def syncTm (s : State) : Nat := s.syncUnits * 7812500 * 0x10000

/-- The asymmetry A_x of the link at a port (R278), in 2⁻¹⁶ ns. -/
def asym (s : State) (p : NetPort) : Int :=
  rdiv (s.fldS Reg.TIM_LINK_ASYM_ALPHA 0 p.ix * (s.fld Reg.TIM_LINK_DELAY_D 0 p.ix : Int) * 256) 1000000000

/-- The rate of network time against REFCLK beyond 1, × 2⁴¹, as the time state takes it (R282 Table 3, R290): R, the
holdover rate without a source, and 0 where the hub has none. -/
def netRate (s : State) : Int :=
  let free := match s.tim.lostSyn with
    | some t => s.tim.holdRate + rdiv (s.tim.holdDrift * ((s.life : Int) - t)) hourUnits
    | none => s.tim.holdRate
  match s.timeState with
  | 1 => if s.synton then s.tim.rate else 0
  | 2 => s.tim.rate
  | 3 => if s.synton then s.tim.rate else free
  | 4 => if s.synton then s.tim.rate else free
  | _ => 0

/-- The rate of the counter beyond 1, × 2⁴¹ (R282 Table 3): the correction c is in it while locked. -/
def counterRate (s : State) : Int := if s.timeState = 2 then rateMul s.netRate s.tim.servo else s.netRate

/-- TIM sets the modulator word (R86): locked or in holdover, from the re-anchoring instant on (R87). -/
def modDisc (s : State) : Bool := decide (s.timeState = 2 ∨ s.timeState = 3) && s.tim.reanchor.isNone

/-- The modulator word for a phase steering in 10⁻⁹ (R282 Table 3, R301): W_nom times the counter rate and the steering,
within ±200 ppm (R85); W_nom while TIM does not set it. -/
def wordFor (s : State) (steer : Int) : Int :=
  let n := Config.modNominal
  if s.modDisc then clamp (n - n / 5000) (n + n / 5000) (n + rdiv (n * s.counterRate) (2 ^ 41) + rdiv (n * steer) 1000000000)
  else n

/-- Bring W and CLK_STATUS up to date (R86, R87, R123). -/
def clockStatus (s : State) (steer : Int) : State :=
  let on := s.modDisc
  let s := { s with tim := { s.tim with word := s.wordFor steer, steer := if on then steer else 0 } }
  (s.setFlag Reg.SYS_CLK_STATUS_MOD_DISC 0 0 on).setFldS Reg.SYS_CLK_STATUS_REF_PPM 0 0
    (rdiv (-(s.netRate) * 100000000) (2 ^ 41))

/-- A timestamp at the serdes boundary (R268, R272): the counter at the core cycle, in 2⁻⁸ ns, and what the fine phase
detector adds to it. -/
def stampAt (s : State) (fine : Fin 640) : Tm := (s.now / 256 + fine.val) * 256

/-- ρ − 1 of a port (R272), the mean over the last second, × 2⁴¹; none while its link is down. -/
def rho (s : State) (p : NetPort) : Option Int :=
  if !s.linked p || decide ((s.path p).rhos = []) then none else some (meanI ((s.path p).rhos.map (·.2)))

/-- The rate TLV of a Follow_Up that the hub sends or forwards (R273 Table 2). -/
def rateTlv (s : State) : RateTlv :=
  { tlvType := 3, length := 12, oui := Config.oui, subType := 1, rate := clamp (-0x80000000) 0x7FFFFFFF s.tim.rate
    flags := BitVec.ofNat 16 (b2n (decide (s.timeState = 2)) + 2 * b2n (decide (s.timeState = 3)) + 4 * b2n s.synton) }

/-- One core cycle of the counter (R265): 2.5 ns times the rate, what falls below the fraction kept. -/
def tick (s : State) : State :=
  if !s.tim.running then s
  else
    let q : Int := Config.coreUnits * s.counterRate + s.tim.sub
    let step := (Config.coreUnits : Int) + q / 2 ^ 41
    { s with tim := { s.tim with
        counter := s.tim.counter + BitVec.ofInt 80 step, sub := (q % 2 ^ 41).toNat } }

/-- Enter a time state, with EV_TIM_STATE (R306). -/
def enterTime (s : State) (st : Nat) (o : Int) : State :=
  let old := s.timeState
  let s := s.setFld Reg.TIM_STATUS_STATE 0 0 st
  s.raise .TIM 0 0 (st + 16 * old + 256 * s.trust) (w32s (toQ8 o)).toNat

/-- TIM leaves free for locking (R116, R283): at the earliest at the end of boot. -/
def leaveFree (s : State) : State :=
  if s.timeState = 0 ∧ s.booted ∧ (s.flag Reg.SYS_JOIN_STATUS_JOINED ∨ s.flag Reg.SYS_ADDR_TOP) then
    s.enterTime 1 0 else s

/-- An epoch comes into force (R297). -/
def setEpoch (s : State) (e : Nat) : State :=
  let s := (s.setBoth Reg.TIM_EPOCH_LO_EPOCH 0 0 e).setBoth Reg.TIM_EPOCH_HI_EPOCH 0 0 (e / 0x100000000)
  let s := { s with tim := { s.tim with epoch := BitVec.ofNat 64 e } }
  (s.setFlag Reg.TIM_STATUS_EPOCH_VALID 0 0 true).raise .TIM 0 6 (w32 e).toNat (w32 (e / 0x100000000)).toNat

/-- Every stream, window and capture learns of a discontinuity of time (R289, R37, R490). -/
def markDisc (s : State) : State :=
  let s := s.endBlocks true
  let windows := s.tal.windows.map fun e => (e.1, e.2.map fun w => if w.kClose.isNone then { w with disc := true } else w)
  let caps := s.cap.map fun e => (e.1, { e.2 with cap := e.2.cap.map fun r => { r with disc := true } })
  { s with tal := { s.tal with windows := windows }, cap := caps }

/-- EV_TIM_PATH (R306): `code` says what happened to path `p`, which its number names (log 61). -/
def pathEvent (s : State) (p : NetPort) (code : Nat) : State :=
  s.raise .TIM 0 3 (p.ix + 16 * code + 256 * s.trust) (toU8 (s.dPath p))

/-- Trust a set of paths. -/
def setTrust (s : State) (mask : Nat) : State := s.setFld Reg.TIM_STATUS_TRUST 0 0 mask

/-- PATH_REF(p) := d(p). -/
def refPath (s : State) (p : NetPort) : State :=
  s.setFld Reg.TIM_PATH_REF_D 0 p.ix (toU8 (s.dPath p))

/-- Accept one path as the sole trusted one (R294, R295). -/
def acceptPath (s : State) (p : NetPort) (code : Nat) : State :=
  let s := (s.setTrust (2 ^ p.ix)).refPath p
  let sus := s.fld Reg.TIM_STATUS_SUSPECT
  let s := s.setFld Reg.TIM_STATUS_SUSPECT 0 0 (if bit sus p.ix then sus - 2 ^ p.ix else sus)
  s.pathEvent p code

/-- Availability of a path now (R276). -/
def availNow (s : State) (p : NetPort) : Bool :=
  decide (p ≠ .M ∨ s.isManager) && (decide (p = .M) || !s.isManager) && s.linked p &&
    match (s.path p).doneAt with
    | some t => decide (s.life ≤ t + 4 * s.syncTm)
    | none => false

/-- A write of CTRL.ACCEPT for a path (R294). -/
def accept (s : State) (p : NetPort) : State :=
  if !s.availNow p then s.err .TIM 0 0x13
  else
    let s := s.acceptPath p 3
    { s with tim := { s.tim with acceptPath := if s.timeState = 1 then some p.ix else s.tim.acceptPath, acceptNow := decide (s.timeState = 3) } }

/-- SNAP: the counter into SNAP_LO, SNAP_HI and SNAP_FRAC (R267). -/
def snapNow (s : State) : State :=
  let c := s.now
  let s := s.setFld Reg.TIM_SNAP_LO_NS 0 0 (c / 0x10000)
  (s.setFld Reg.TIM_SNAP_HI_NS 0 0 (c / 0x1000000000000)).setFld Reg.TIM_SNAP_FRAC_FRAC 0 0 c

/-! ### PTP messages -/

/-- Whether a PTP message on a port is admitted (R268, R269, R270). -/
def ptpAdmits (s : State) (p : NetPort) (domain version : Nat) : Bool :=
  decide (p ≠ .T) && (decide (p ≠ .M) || s.isManager) && decide (version = 2)
    && decide (domain = s.fld Reg.TIM_DOMAIN)

/-- A PTP message arrives: dropped and counted unless admitted (R269). -/
def ptpArrive (s : State) (p : NetPort) (domain version : Nat) (handle : State → State) : State :=
  if !s.booted || !s.linked p then s
  else
    let s := s.bump Reg.NET_RX_FRAMES_FRAMES p.ix 0
    if s.ptpAdmits p domain version then handle s
    else (s.bump Reg.NET_DROPS_A_DROP_TYPE p.ix 0).bumpSat Reg.TIM_PTP_DROP_DROPS 0 0

/-- The port on which a worker forwards a PTP message that came by `p` (R271): the other ring port, or `p` again where
the ring is broken. -/
def ptpOut (s : State) (p : NetPort) : NetPort := if s.usable p.other then p.other else p

/-- Forward a PTP message between the ring ports of a worker (R271). -/
def ptpForward (s : State) (p : NetPort) (type : Nat) (m : PtpMsg) (corr : Int) (tlv : Option RateTlv) : State :=
  if s.isManager then s else s.sendPtp (s.ptpOut p) type m.seq corr m.stamp tlv

/-- Sync and its precise origin time make one half of an exchange (R280), and a point of R274 on M. -/
def syncDone (s : State) (p : NetPort) (t1 t2 : Tm) (corr : Int) : State :=
  let q := s.path p
  s.setPath p { q with
    sync := none
    t12 := some (t1, t2, corr + s.asym p)
    origins := if p = .M then ((t1, t2) :: q.origins).take 16 else q.origins
    syncAt := some s.life }

/-- What happened at `t` is fresh within four sync intervals (R275, R276). -/
def fresh (s : State) (t : Tm) : Bool := decide (s.life ≤ t + 4 * s.syncTm)

/-- R_x of a port (R274), when it has a fresh one (R275). On port M without layer 1 it is measured over the last 16
Syncs. -/
def rateOf (s : State) (p : NetPort) : Option Int :=
  if p = .M then
    if s.flag Reg.TIM_DOMAIN_L1_M then s.rho p
    else match (s.path p).origins.head?, (s.path p).origins[15]?, (s.path p).syncAt with
      | some b, some a, some t =>
        let counter : Int := (b.2 : Int) - a.2
        if counter ≤ 0 || !s.fresh t then none
        else some (rdiv (((b.1 : Int) - a.1 - counter) * 2 ^ 41) counter)
      | _, _, _ => none
  else match s.rho p, (s.path p).tlv with
    | some r, some (tlv, t) => if s.fresh t then some (rateMul tlv r) else none
    | _, _ => none

/-! ### The evaluation (R281 to R296) -/

/-- Bring STATUS.AVAIL, PATH_DELAY and PATH_OFFSET of a path up to date; a path that is not available leaves T (R292). -/
def evalPath (s : State) (p : NetPort) : State :=
  let a := s.availNow p
  let s := s.setFld Reg.TIM_PATH_DELAY_D 0 p.ix (toU8 (s.dPath p))
  let s := s.setFldS Reg.TIM_PATH_OFFSET_O 0 p.ix (toQ8 (s.oPath p))
  let s := if p = .M ∧ s.isManager then s.setFld Reg.TIM_LINK_DELAY_D 0 3 (toU8 (s.dPath .M)) else s
  let t := s.trust
  let s := if !a && bit t p.ix then s.setTrust (t - 2 ^ p.ix) else s
  if a = s.avail p then s
  else
    let m := s.fld Reg.TIM_STATUS_AVAIL
    let s := s.setFld Reg.TIM_STATUS_AVAIL 0 0 (if a then m + 2 ^ p.ix else m - 2 ^ p.ix)
    s.pathEvent p (if a then 6 else 5)

/-- The ratios measured since the last evaluation join those of the last second (R272). -/
def takeRho (s : State) (rho : List (Nat × Int)) : State :=
  netPorts.foldl (fun s p =>
    let new := (rho.filter fun e => decide (e.1 = p.ix) && s.linked p).map fun e => (s.life, e.2)
    let old := (s.path p).rhos.filter fun e => s.linked p && decide ((s.life : Int) - e.1 < 1000000000 * 0x10000)
    s.setPath p { s.path p with rhos := new ++ old }) s

/-- The ports of a set of candidate paths in the order of R275. -/
def sourceOrder (s : State) : List NetPort :=
  (pathPorts.filter fun p => bit s.trust p.ix) ++ (pathPorts.filter fun p => s.avail p)

/-- Choose the syntonization source and take its rate (R275), and learn the drift (R290). -/
def evalSynton (s : State) : State :=
  match s.sourceOrder.head?.bind fun p => (s.rateOf p).map fun r => (p, r) with
  | some (p, r) =>
    let told := s.synton && decide (s.fld Reg.TIM_STATUS_SYN_SRC = p.ix)
    let hold := (s.path p).upHold
    let rates := ((s.life, r) :: s.tim.rates).filter fun e => decide (((s.life : Int) - e.1) ≤ hourUnits)
    let recent := (rates.filter fun e => decide ((s.life : Int) - e.1 ≤ hourUnits / 60)).map (·.2)
    let slope := fitSlope (rates.map fun e => ((e.1 : Int), e.2))
    let drift := if slope.2 ≤ 0 then 0 else rdiv (slope.1 * hourUnits) slope.2
    let s := { s with tim := { s.tim with
      rate := r, rates := rates, holdRate := meanI recent, holdDrift := drift, lostSyn := none } }
    let s := (s.setFldS Reg.TIM_RATE_SYN_R 0 0 r).setFldS Reg.TIM_DRIFT_D 0 0 drift
    let s := (s.setFlag Reg.TIM_STATUS_SYNTON 0 0 true).setFld Reg.TIM_STATUS_SYN_SRC 0 0 p.ix
    let s := s.setFlag Reg.TIM_STATUS_UP_HOLD 0 0 hold
    if told then s else s.raise .TIM 0 4 (p.ix + 4) (w32s r).toNat
  | none =>
    if !s.synton then s
    else
      let s := { s with tim := { s.tim with lostSyn := some s.life } }
      let s := (s.setFlag Reg.TIM_STATUS_SYNTON 0 0 false).setFlag Reg.TIM_STATUS_UP_HOLD 0 0 false
      s.raise .TIM 0 4 (s.fld Reg.TIM_STATUS_SYN_SRC) (regRd s.regs 0x10180).toNat

/-- chg(p) of R292: the delay of an available path has moved from PATH_REF by more than DTHR. -/
def chg (s : State) (p : NetPort) : Bool :=
  s.avail p &&
    decide (((toU8 (s.dPath p) : Int) - s.fld Reg.TIM_PATH_REF_D 0 p.ix).natAbs > s.fld Reg.TIM_ASYM_THR_DTHR)

/-- The two offsets of a ring hub agree within THR (R292). -/
def agree (s : State) (a b : Int) : Bool := decide ((rdiv (a - b) 256).natAbs ≤ s.fld Reg.TIM_ASYM_THR_THR)

/-- Ports of a mask, as a mask of those that satisfy `f`. -/
def maskOf (f : NetPort → Bool) : Nat := ((pathPorts.filter f).map fun p => 2 ^ p.ix).sum

/-- o_hold(p) := o(p) for the paths of a mask, and d at the start of a holdover for all (R292, R295). -/
def holdPaths (s : State) (mask : Nat) (entry : Bool) : State :=
  pathPorts.foldl (fun s p =>
    let q := s.path p
    s.setPath p { q with
      oHold := if bit mask p.ix then s.oPath p else q.oHold
      dHold := if entry then s.dPath p else q.dHold }) s

/-- Record the correction c in force (R287, R304). -/
def setServo (s : State) (c : Int) : State :=
  ({ s with tim := { s.tim with servo := c } }).setFldS Reg.TIM_RATE_SERVO_C 0 0 c

/-- The servo starts again from c = 0 (R283, R289), with nothing in its integral. -/
def restServo (s : State) : State := { s.setServo 0 with tim := { (s.setServo 0).tim with integ := 0 } }

/-- The servo at an evaluation (R287): a proportional-integral loop on o, whose correction stays within 10 ppm and
changes by at most 1 ppm per second. -/
def runServo (s : State) (o : Int) : State :=
  let s := { s with tim := { s.tim with integ := s.tim.integ + o * s.syncUnits } }
  let bw := s.fld Reg.TIM_INTERVALS_LOOP_BW
  let c := rdiv (-(Config.servoP bw * o + Config.servoI bw * s.tim.integ)) (2 ^ 32)
  let slew : Int := 2199023 * s.syncUnits / 128
  s.setServo (clamp (-21990232) 21990232 (clamp (s.tim.servo - slew) (s.tim.servo + slew) c))

/-- Enter holdover (R283). -/
def enterHoldover (s : State) (o : Int) : State :=
  let s := s.restServo.bump Reg.TIM_COUNTS_HOLDOVERS 0 0
  let s := { s with tim := { s.tim with qual := 0, singleQual := 0, acceptNow := false, holdSince := some s.life } }
  (s.setFld Reg.TIM_HOLD_TIME_S 0 0 0).enterTime 3 o

/-- Declare time lost and go on to locking in the same evaluation (R289). -/
def loseTime (s : State) (o : Int) : State :=
  let s := (s.restServo.bump Reg.TIM_COUNTS_LOSTS 0 0).enterTime 4 o
  let s := s.markDisc
  let s := { s with tim := { s.tim with holdSince := none, lostNow := true, acceptNow := false, acceptPath := none } }
  s.enterTime 1 o

/-- A counter value moved by a step of the counter. -/
def shiftTm (d : Int) (t : Tm) : Tm := ((t : Int) + d).toNat

/-- A piece of a rod's trajectory moved by a step of the counter. -/
def shiftSeg (d : Int) : RodSeg → RodSeg
  | .slide ta pa pb p0 t0 vn vd => .slide (shiftTm d ta) pa pb p0 (shiftTm d t0) vn vd
  | .jump t pa pb => .jump (shiftTm d t) pa pb
  | .load t p dir => .load (shiftTm d t) p dir

/-- A rod whose times are moved by a step of the counter. -/
def shiftRod (d : Int) (q : RodState) : RodState :=
  { q with
    te := shiftTm d q.te, lastEvent := q.lastEvent.map (shiftTm d), waiting := q.waiting.map (shiftTm d)
    qwait := q.qwait.map fun (x : Tm × Bool × Int) => (shiftTm d x.1, x.2)
    segs := q.segs.map (shiftSeg d), evalT := shiftTm d q.evalT }

/-- An input whose times are moved by a step of the counter. -/
def shiftInput (d : Int) (x : InputState) : InputState :=
  { x with
    hist := x.hist.map fun (e : Tm × Bool) => (shiftTm d e.1, e.2), lastEdge := x.lastEdge.map (shiftTm d)
    activeSince := x.activeSince.map (shiftTm d) }

/-- A capture unit whose waiting times are moved by a step of the counter. -/
def shiftCap (d : Int) (c : CapState) : CapState :=
  { c with
    occs := c.occs.map fun (o : Occ) => { o with t := shiftTm d o.t }
    tArm := shiftTm d c.tArm, rearmArm := shiftTm d c.rearmArm }

/-- The events that the hub has noted at counter values keep their distance to now when the counter steps by `d` (R285):
the offsets of the exchanges, the rods and inputs, and what waits for its instant. -/
def shiftTimes (s : State) (d : Int) : State :=
  let paths := s.tim.paths.map fun (e : Nat × PathState) => (e.1, { e.2 with
    recent := e.2.recent.map fun (x : Int × Int) => (x.1, x.2 + d), offsets := e.2.offsets.map (· + d)
    sync := e.2.sync.map fun (x : BitVec 16 × Tm × Int) => (x.1, shiftTm d x.2.1, x.2.2)
    t12 := e.2.t12.map fun (x : Tm × Tm × Int) => (x.1, shiftTm d x.2.1, x.2.2)
    t3 := e.2.t3.map fun (x : BitVec 16 × Tm) => (x.1, shiftTm d x.2), origins := e.2.origins.map fun (x : Tm × Tm) => (x.1, shiftTm d x.2) })
  let rods := s.abc.rods.map fun (e : Nat × RodState) => (e.1, shiftRod d e.2)
  let inputs := s.abc.inputs.map fun (e : Nat × InputState) => (e.1, shiftInput d e.2)
  let exposures := s.abc.exposures.map fun (e : Nat × (Tm × Option Tm)) => (e.1, (shiftTm d e.2.1, e.2.2.map (shiftTm d)))
  let trigs := s.abc.trigs.map fun (x : Nat × Nat × Tm) => (x.1, x.2.1, shiftTm d x.2.2)
  let flt := s.flt.map fun (e : Nat × FltState) => (e.1, { e.2 with syncAt := e.2.syncAt.map (shiftTm d) })
  let cap := s.cap.map fun (e : Nat × CapState) => (e.1, shiftCap d e.2)
  let tim := { s.tim with paths := paths, steps := s.tim.steps + d }
  { s with tim := tim, abc := { s.abc with rods := rods, inputs := inputs, exposures := exposures, trigs := trigs }, flt := flt, cap := cap }

/-- The step of R285: once, by −o; the grid in force keeps its instants, and the sync-epoch grid waits
for its first instant after the step (R36). -/
def lockStep (s : State) (trusted : Nat) : State :=
  let o := s.oMean trusted
  let s := pathPorts.foldl (fun s p => if bit trusted p.ix then s.refPath p else s) (s.setTrust trusted)
  let e : Int := s.tim.epoch.toNat * 0x10000
  let c : Int := (s.now : Int) - o
  let next := e + ((c - e) / Config.baseUnits + 1) * Config.baseUnits
  let s := s.shiftTimes (-o)
  let s := { s with tim := { s.tim with
    counter := BitVec.ofInt 80 c, anchor := s.tim.anchor - o, reanchor := some next, asymTold := false, acceptPath := none
    acceptNow := false } }
  let step := toField 64 (rdiv (-o) 0x10000)
  let s := (s.setFld64 Reg.TIM_STEP_LO_STEP Reg.TIM_STEP_HI_STEP 0 0 step).setFlag Reg.TIM_STATUS_EVER_LOCKED 0 0 true
  let s := s.enterTime 2 o
  s.occur .TIM 0 1 false true (w32 step) (w32 (step / 0x100000000))

/-- The lock conditions of R284 but the fifth. -/
def lockReady (s : State) : Bool :=
  let ps := pathPorts.filter s.avail
  let n := s.fld Reg.TIM_LOCK_CFG_COUNT
  let w : Int := s.fld Reg.TIM_LOCK_CFG_WIN * 0x10000
  s.flag Reg.TIM_STATUS_EPOCH_VALID && s.synton && !ps.isEmpty &&
    decide ((s.tim.epoch.toNat * 0x10000 : Int) ≤ (s.now : Int) - s.oMean (s.fld Reg.TIM_STATUS_AVAIL)) &&
    ps.all fun p =>
      let l := (s.path p).offsets.take n
      decide (l.length = n) && l.all fun o => decide ((o - meanI l).natAbs ≤ w.natAbs)

/-- The evaluation in locking (R284). -/
def evalLocking (s : State) : State :=
  if !s.lockReady then s
  else
    let host := (s.tim.acceptPath.bind fun i => pathPorts.find? fun p => p.ix = i).filter s.avail
    match host with
    | some p => s.lockStep (2 ^ p.ix)
    | none =>
      if s.avail .N && s.avail .S && !s.agree (s.oPath .N) (s.oPath .S) then
        if s.tim.asymTold then s
        else
          let s := { s with tim := { s.tim with asymTold := true } }
          s.raise .TIM 0 2 (s.fld Reg.TIM_STATUS_SUSPECT) (w32s (toQ8 (s.oPath .N - s.oPath .S))).toNat
      else s.lockStep (s.fld Reg.TIM_STATUS_AVAIL)

/-- Readmission of an available path outside T (R293). -/
def readmit (s : State) : State :=
  let ot := s.oMean s.trust
  pathPorts.foldl (fun s p =>
    if bit s.trust p.ix || !s.avail p || decide (s.trust = 0) then s.setPath p { s.path p with readmit := 0 }
    else if !s.agree (s.oPath p) ot then s.setPath p { s.path p with readmit := 0 }
    else
      let n := (s.path p).readmit + s.syncUnits
      let s := s.setPath p { s.path p with readmit := n }
      if n < s.fld Reg.TIM_ASYM_QUAL_QUAL * 128 then s
      else
        let sus := s.fld Reg.TIM_STATUS_SUSPECT
        let s := s.setFld Reg.TIM_STATUS_SUSPECT 0 0 (if bit sus p.ix then sus - 2 ^ p.ix else sus)
        ((s.refPath p).setTrust (s.trust + 2 ^ p.ix)).pathEvent p 2) s

/-- The evaluation in locked: time lost, the decision of R292, the servo and readmission. -/
def evalLocked (s : State) : State :=
  let t := s.trust
  let o := s.oMean t
  if t ≠ 0 ∧ 1000000 * 0x10000 < o.natAbs then s.loseTime o
  else
    let both := decide (t = 3)
    let bad := (both && !s.agree (s.oPath .N) (s.oPath .S)) || pathPorts.any fun p => bit t p.ix && s.chg p
    if bad ∨ t = 0 then
      let keep := maskOf fun p => bit t p.ix && !s.chg p
      let keep := if t = 3 ∧ keep = 3 then 0 else keep
      let gone := pathPorts.filter fun p => bit t p.ix && !bit keep p.ix
      let s := s.setFld Reg.TIM_STATUS_SUSPECT 0 0 (s.fld Reg.TIM_STATUS_SUSPECT ||| (t - keep))
      let s := (s.setTrust keep).holdPaths keep true
      let s := gone.foldl (fun s p => s.pathEvent p 1) s
      let s := s.enterHoldover o
      s.raise .TIM 0 2 (s.fld Reg.TIM_STATUS_SUSPECT + 16 * keep) (w32s (toQ8 (s.oPath .N - s.oPath .S))).toNat
    else (s.runServo o).readmit

/-- Back to locked from holdover (R283): the servo resumes from 0. -/
def relock (s : State) : State :=
  let s := { s with tim := { s.tim with qual := 0, singleQual := 0, acceptNow := false } }
  s.restServo.enterTime 2 (s.oMean s.trust)

/-- The evaluation in holdover (R292, R294, R295). -/
def evalHoldover (s : State) : State :=
  let ps := pathPorts.filter s.avail
  let s := match s.tim.holdSince with
    | some t => s.setFld Reg.TIM_HOLD_TIME_S 0 0 ((s.life - t) / (1000000000 * 0x10000))
    | none => s
  if !ps.isEmpty && ps.all fun p => decide (1000000 * 0x10000 < (s.oPath p).natAbs) then
    s.loseTime (s.oMean (maskOf s.avail))
  else if s.tim.acceptNow then s.relock
  else
    let sound := maskOf fun p => s.avail p && !s.chg p && !bit (s.fld Reg.TIM_STATUS_SUSPECT) p.ix
    let s := if s.trust = 0 then (s.setTrust sound).holdPaths sound false else s
    let t := s.trust
    let good := t ≠ 0 && (pathPorts.filter fun p => bit t p.ix).all fun p =>
      !s.chg p && s.agree (s.oPath p) (s.path p).oHold
    let ring := decide (t = 0) && s.avail .N && s.avail .S && s.agree (s.oPath .N) (s.oPath .S)
    let q := if good || ring then s.tim.qual + s.syncUnits else 0
    let near := s.isManager && s.flag Reg.TIM_DOMAIN_SINGLE_AUTO && s.avail .M &&
      decide ((rdiv (s.dPath .M - (s.path .M).dHold) 256).natAbs ≤ s.fld Reg.TIM_ASYM_THR_DTHR)
    let sq := if near then s.tim.singleQual + s.syncUnits else 0
    let s := { s with tim := { s.tim with qual := q, singleQual := sq } }
    let need := s.fld Reg.TIM_ASYM_QUAL_QUAL * 128
    if need ≤ q then
      let s := if t = 0 then
          (((s.setTrust 3).refPath .N).refPath .S).setFld Reg.TIM_STATUS_SUSPECT 0 0 0 else s
      s.relock
    else if need ≤ sq then
      let s := s.acceptPath .M 4
      { s with tim := { s.tim with acceptNow := true } }
    else s

/-- The run of R293 ends with the locked state. -/
def endReadmit (s : State) : State := pathPorts.foldl (fun s p => s.setPath p { s.path p with readmit := 0 }) s

/-- The evaluation of the time state (R283, R292). -/
def evalState (s : State) : State :=
  match s.timeState with
  | 1 => s.evalLocking
  | 2 => s.evalLocked
  | 3 => s.evalHoldover
  | _ => s

/-- STATUS.SLEW (R288). -/
def showSlew (s : State) : State :=
  s.setFlag Reg.TIM_STATUS_SLEW 0 0 (decide (s.timeState = 2) && decide (20 * 0x10000 < (s.oMean s.trust).natAbs))

/-- One evaluation (R281, R292). -/
def evaluate (s : State) (e : TimeEnv) : State :=
  let s := ((pathPorts.foldl (fun s p => s.evalPath p) s).takeRho e.rho).evalSynton.evalState
  let s := if s.timeState = 2 then s else s.endReadmit
  s.showSlew.clockStatus s.tim.steer

end State

/-- An Announce is better than another by the default BMCA (R268; PRESUMED from IEEE 1588-2019, log 140): of one
grandmaster by its steps and its sender, of two by priority1, clockClass, clockAccuracy, offsetScaledLogVariance,
priority2 and identity. -/
def announceBetter (a b : PtpAnnounceMsg) : Bool :=
  let key := fun (m : PtpAnnounceMsg) =>
    if a.gmId = b.gmId then [m.steps.toNat, m.sender.toNat]
    else [m.prio1.toNat, m.clockClass.toNat, m.accuracy.toNat, m.variance.toNat, m.prio2.toNat, m.gmId.toNat]
  (((key a).zip (key b)).find? fun e => decide (e.1 ≠ e.2)).any fun e => decide (e.1 < e.2)

/-- The Announce is of the master that port M follows (R268): the one it follows already, a better one, or any when that
one has been silent for three announce intervals (PRESUMED, log 140). -/
def State.bestMaster (s : State) (m : PtpAnnounceMsg) : Bool :=
  match s.tim.gm with
  | none => true
  | some (g, t) =>
    let interval := 2 ^ (3 + s.fldS Reg.TIM_INTERVALS_LOG_ANNOUNCE).toNat * 125000000 * 0x10000
    decide (g.sender = m.sender) || announceBetter m g || decide (t + 3 * interval < s.life)

/-- The hub takes time from a message on this port (R268, R276): from the manager's messages on the ring ports of a
worker, and on port M of a manager from the master it follows, or from any before the first Announce (log 140). -/
def State.hears (s : State) (p : NetPort) (sender : BitVec 80) : Bool :=
  if p = .M then (match s.tim.gm with
    | some (g, _) => decide (g.sender = sender)
    | none => true)
  else !s.isManager

/-- What a master port announces (R268): the grandmaster it follows, one step further, or the hub's own clock. -/
def State.announced (s : State) : PtpAnnounceMsg :=
  match s.tim.gm with
  | some (g, _) => { g with steps := g.steps + 1 }
  | none => Config.ownClock

/-- PTP_SYNC on a path (R276, R280): timestamped, and forwarded on a worker with the residence time and
A_x added (R271, R279). One-step is admitted only on M of a manager (R268). -/
def execPtpSync (np : NetPort) (m : PtpMsg) (residence : Int) (s : State) : Host.Outcome State Fault Refusal :=
  .next (s.ptpArrive np m.domain.toNat m.version fun s =>
    if m.oneStep && decide (np ≠ .M) then
      (s.bump Reg.NET_DROPS_A_DROP_TYPE np.ix 0).bumpSat Reg.TIM_PTP_DROP_DROPS 0 0
    else
      let t2 := s.stampAt m.fine
      let s1 := if !s.hears np m.sender then s
        else if m.oneStep then s.syncDone np m.stamp t2 m.correction
        else s.setPath np { s.path np with sync := some (m.seq, t2, m.correction) }
      if np = .M then s1 else s1.ptpForward np 0 m (m.correction + residence + s.asym np) none).finish

/-- PTP_FOLLOW_UP: the rate TLV is taken, the Sync completed, and the message forwarded with the hub's own
rate ratio (R273, R280). -/
def execPtpFollowUp (np : NetPort) (m : PtpMsg) (s : State) : Host.Outcome State Fault Refusal :=
  .next (s.ptpArrive np m.domain.toNat m.version fun s =>
    let q := { s.path np with upHold := bit m.tlvFlags.toNat 1 }
    let q := if bit m.tlvFlags.toNat 2 then { q with tlv := some (m.tlvRate, s.life) } else q
    let heard := s.hears np m.sender
    let s := if heard then s.setPath np q else s
    let s := match heard, q.sync with
      | true, some (seq, t2, c) => if seq = m.seq then s.syncDone np m.stamp t2 (c + m.correction) else s
      | _, _ => s
    if np = .M then s else s.ptpForward np 8 m m.correction (some s.rateTlv)).finish

/-- PTP_DELAY_REQ: forwarded by a worker, answered by a master (R268, R271, R279). -/
def execPtpDelayReq (np : NetPort) (m : PtpMsg) (residence : Int) (s : State) : Host.Outcome State Fault Refusal :=
  .next (s.ptpArrive np m.domain.toNat m.version fun s =>
    if s.isManager then
      if np = .M then s else s.sendPtp np 9 m.seq m.correction (s.stampAt m.fine) none
    else s.ptpForward np 1 m (m.correction + residence - s.asym (s.ptpOut np)) none).finish

/-- PTP_DELAY_RESP: completes the exchange it answers (R280), or is forwarded (R271). -/
def execPtpDelayResp (np : NetPort) (m : PtpMsg) (s : State) : Host.Outcome State Fault Refusal :=
  .next (s.ptpArrive np m.domain.toNat m.version fun s =>
    let q := s.path np
    if !m.forUs then (if np = .M then s else s.ptpForward np 9 m m.correction none)
    else match q.t12, q.t3 with
      | some (t1, t2, cs), some (seq, t3) =>
        if seq ≠ m.seq then s else
        let cd := m.correction - s.asym np
        let a := (t2 : Int) - t1 - cs
        let mpd := rdiv (a + ((m.stamp : Int) - t3 - cd)) 2
        let o := a - mpd
        s.setPath np { q with
          recent := ((mpd, o) :: q.recent).take 16, offsets := (o :: q.offsets).take 255
          doneAt := some s.life, t12 := none, t3 := none }
      | _, _ => s).finish

/-- PTP_ANNOUNCE on port M of a manager (R268): grandmaster identity and quality, of the best master. -/
def execPtpAnnounce (np : NetPort) (m : PtpAnnounceMsg) (s : State) : Host.Outcome State Fault Refusal :=
  .next (s.ptpArrive np m.domain.toNat m.version fun s =>
    if np ≠ .M || !s.bestMaster m then s
    else
      let s := { s with tim := { s.tim with gm := some (m, s.life) } }
      let same := decide (s.fld64 Reg.TIM_GM_ID_LO_ID Reg.TIM_GM_ID_HI_ID = m.gmId.toNat)
        && decide (s.fld Reg.TIM_GM_QUAL_CLASS = m.clockClass.toNat)
      let s := s.setFld64 Reg.TIM_GM_ID_LO_ID Reg.TIM_GM_ID_HI_ID 0 0 m.gmId.toNat
      let s := (s.setFld Reg.TIM_GM_QUAL_CLASS 0 0 m.clockClass.toNat).setFld Reg.TIM_GM_QUAL_ACCURACY 0 0 m.accuracy.toNat
      let s := s.setFld Reg.TIM_GM_QUAL_VARIANCE 0 0 m.variance.toNat
      let s := (s.setFld Reg.TIM_UTC_OFFSET 0 0 m.utcOffset.toNat).setFlag Reg.TIM_UTC_VALID 0 0 m.utcValid
      if same then s else s.raise .TIM 0 5 (w32 m.gmId.toNat).toNat (w32 (m.gmId.toNat / 0x100000000)).toNat).finish

/-- SYNC_INTERVAL_TIMER: a master port sends Sync and Follow_Up, a slave port Delay_Req (R268, R279); `fine` refines the
time of departure (R272). -/
def execSyncIntervalTimer (d : SyncDue) (s : State) : Host.Outcome State Fault Refusal :=
  let np := d.port
  if !s.booted || !s.linked np || decide (np = .T) || (decide (np = .M) && !s.isManager) then .next s.finish
  else
    let q := s.tim.seq
    let s1 := { s with tim := { s.tim with seq := q + 1 } }
    if s.isManager ∧ np ≠ .M then
      .next ((s1.sendPtp np 0 q 0 0 none).sendPtp np 8 q 0 (s.stampAt d.fine) (some s.rateTlv)).finish
    else
      .next ((s1.setPath np { s1.path np with t3 := some (q, s.stampAt d.fine) }).sendPtp np 1 q (-(s.asym np)) 0 none).finish

/-- PTP_ANNOUNCE_TIMER: a master port sends Announce (R268), with the grandmaster's identity and quality. -/
def execPtpAnnounceTimer (np : NetPort) (s : State) : Host.Outcome State Fault Refusal :=
  if s.booted && s.linked np && s.isManager && np.ring then
    let q := s.tim.seq
    .next ({ s with tim := { s.tim with seq := q + 1 } }.sendPtp np 0xB q 0 s.now none (some s.announced)).finish
  else .next s.finish

/-- TIME_EVALUATION, once per sync interval (R281, R292). -/
def execTimeEvaluation (e : TimeEnv) (s : State) : Host.Outcome State Fault Refusal :=
  .next (if s.booted then s.evaluate e else s).finish

end Sys2Proof.Machine
end

