-- ==== Sys2Proof/Machine/Afe.lean ====
section
/-!
DEFINITION. The sensor front end (R179 to R223, R717, R718): presence, wire breaks, guards, the excitation
controllers and the TEDS lines. Excitation levels are in 2⁻¹⁶ of the unit of EXC_SET.LEVEL.
-/
namespace Sys2Proof.Machine
namespace State

/-- What AFE keeps of a bank. -/
def afeOf (s : State) (b : Nat) : AfeState := s.afe.lookD b default

/-- Replace what AFE keeps of a bank. -/
def setAfe (s : State) (b : Nat) (v : AfeState) : State := { s with afe := s.afe.put b v }

/-- Replace the excitation controller of a bank. -/
def setExc (s : State) (b : Nat) (e : ExcState) : State := s.setAfe b { s.afeOf b with exc := e }

/-! ### Presence (R186 to R189, R717) -/

/-- The channels of a bank with presence checking in force, as a mask. -/
def presEn (s : State) (b : Nat) : Nat :=
  ((List.range 16).filter fun p => s.flag Reg.AFE_CH_PRES_EN b p).foldl (fun m p => m + 2 ^ p) 0

/-- Bring PRES_STATUS.PRESENT up to date: the positions that changed set STICKY.LOST and raise one
EV_AFE_PRESENCE (R187, R188, R222, R223); `quiet` raises nothing (R717). -/
def refreshPresent (s : State) (b : Nat) (quiet : Bool) : State :=
  let lost := ((s.afeOf b).lostWin ||| (s.afeOf b).lostExc) &&& s.presEn b
  let old := s.fld Reg.AFE_PRES_STATUS_PRESENT b
  let new := 0xFFFF - lost
  let diff := old ^^^ new
  if diff = 0 then s
  else
    let s := s.setFld Reg.AFE_PRES_STATUS_PRESENT b 0 new
    if quiet then s
    else (s.orFld Reg.AFE_STICKY_LOST b 0 (diff &&& lost)).raise .AFE b 1 (diff + 0x10000 * new) 0

/-- A measurement in µV rounded to 10 mV, ties upward (R186). -/
def roundCm (uv : Int) : Int := (uv + 5000) / 10000 * 10

/-- One measurement of a channel extends its run or starts a new one (R187). -/
def presMeasure (s : State) (b : Nat) (p : Nat) (uv : Int) : State :=
  let a := s.afeOf b
  let a := { a with cm := a.cm.put p uv }
  if !s.flag Reg.AFE_CH_PRES_EN b p then s.setAfe b a
  else
    let v := roundCm uv
    let inside := decide ((s.fld Reg.AFE_PRES_WIN_CM_LO b : Int) ≤ v ∧ v ≤ s.fld Reg.AFE_PRES_WIN_CM_HI b)
    let run : PresRun := match a.runs.look p with
      | some r => if r.inside = inside then { r with n := r.n + 1 } else ⟨inside, 1⟩
      | none => ⟨inside, 1⟩
    s.setAfe b { a with runs := a.runs.put p run }

/-- The positions whose run has lasted PRES_TIME milliseconds at 16 kS/s, on the side named. -/
def presDue (s : State) (b : Nat) (inside : Bool) : Nat :=
  let need := 16 * s.fld Reg.AFE_PRES_TIME_MS b
  (((s.afeOf b).runs.filter fun e => decide (e.2.inside = inside ∧ need ≤ e.2.n)).foldl
    (fun m e => m ||| 2 ^ e.1) 0) &&& s.presEn b

/-- The controller of a bank drives EXCb_DRV above 0 V (R208, R209, R206): along a ramp or at a target other than 0, and
not in a break-before-make interval or a fault. -/
def excDriven (s : State) (b : Nat) : Bool :=
  let e := (s.afeOf b).exc
  match e.phase with
  | .idle => decide (e.toQ ≠ 0)
  | .ramp => true
  | .disable => true
  | .revRamp => true
  | .revUp => true
  | .revOff => false
  | .revTurn => false
  | .bbm => false
  | .turnLate => false
  | .fault => false

/-- Presence by the excitation (R188): lost at once while it is latched in fault, or off with MODE ≠ 0; back once it is in
regulation and the window test of R187 holds. A channel that no longer depends on it stays absent until the window test
holds (R717). -/
def presExc (s : State) (b : Nat) : State :=
  let sel := ((List.range 16).filter fun p => s.flag Reg.AFE_CH_PRES_EXC b p).foldl (fun m p => m + 2 ^ p) 0 &&& s.presEn b
  let bad := s.flag Reg.AFE_STATUS_EXC_FAULT b || (decide (s.fld Reg.AFE_EXC_MODE_MODE b ≠ 0) && !s.excDriven b)
  let a := s.afeOf b
  let win := a.lostWin ||| (a.lostExc - (a.lostExc &&& sel))
  let held := a.lostExc &&& sel
  let exc := if bad then sel
    else if s.flag Reg.AFE_STATUS_EXC_REG b then held - (held &&& s.presDue b true) else held
  if exc = a.lostExc ∧ win = a.lostWin then s
  else (s.setAfe b { a with lostWin := win, lostExc := exc }).refreshPresent b false

/-! ### Wire breaks (R183, R193 to R195, R223) -/

/-- A pin is at a rail (R183): above 4.90 V or below 0.10 V, in µV. -/
def pinAtRail (uv : Int) : Bool := decide (4900000 < uv ∨ uv < 100000)

/-- A decision counts as out of range (R193). -/
def outOfRange (d : PinDec) : Bool := d.atEnd && (pinAtRail d.vp || pinAtRail d.vn)

/-- One decision of a channel: its run and whether it is broken, after it (R193, R194). -/
def brkStep (broken : Bool) (run : Nat) (out : Bool) : Nat × Bool :=
  if out = broken then (0, broken)
  else if run + 1 = (if broken then 4096 else 64) then (0, !broken)
  else (run + 1, broken)

/-- The decisions of a channel, the first of index `d`: its run and whether it is broken after them, and the indices at
which that changed. -/
def brkRun (broken : Bool) (run : Nat) (d : Int) : List PinDec → (Nat × Bool) × List Int
  | [] => ((run, broken), [])
  | x :: t =>
    let r := brkStep broken run (outOfRange x)
    let u := brkRun r.2 r.1 (d + 1) t
    (u.1, if r.2 = broken then u.2 else d :: u.2)

/-- A channel's break is declared, or the channel is declared whole, at decision `d` (R193 to R195). -/
def brkTurn (s : State) (b p : Nat) (d : Int) : State :=
  let a := s.afeOf b
  let l := a.breaks.lookD p []
  if bit (s.fld Reg.AFE_BRK_STATUS_BREAK b) p then
    let l := match l with
      | x :: t => { x with last := some d } :: t
      | [] => []
    (s.setAfe b { a with breaks := a.breaks.put p l }).setFld Reg.AFE_BRK_STATUS_BREAK b 0
      (s.fld Reg.AFE_BRK_STATUS_BREAK b - 2 ^ p)
  else
    let s := s.setAfe b { a with breaks := a.breaks.put p (⟨d - 63, none⟩ :: l) }
    (s.orFld Reg.AFE_BRK_STATUS_BREAK b 0 (2 ^ p)).orFld Reg.AFE_STICKY_BROKE b 0 (2 ^ p)

/-- The channels of a bank that change at decision `d`, in one occurrence of EV_AFE_BREAK (R222, R223). -/
def brkTogether (s : State) (b : Nat) (d : Int) (turns : List (Nat × List Int)) : State :=
  let ps := (turns.filter fun e => e.2.contains d).map (·.1)
  if ps = [] then s
  else
    let s := ps.foldl (fun s p => s.brkTurn b p d) s
    s.raise .AFE b 0 ((ps.map fun p => 2 ^ p).sum + 0x10000 * s.fld Reg.AFE_BRK_STATUS_BREAK b) 0

/-- Index of the next decision of which the detectors of a bank are told: those of the sample after `k` come first. -/
def brkNext (s : State) (b : Nat) : Int := 96 * (s.tim.k + 1) + 1 + (s.afeOf b).told

/-- The detectors of a bank are told `n` more decisions, the first of index `d` (R193, R194); of a channel without an entry
every one is in range. A run goes on across commits (R717). -/
def brkTell (s : State) (b n : Nat) (d : Int) (pins : List (Nat × List PinDec)) : State :=
  let broken := s.fld Reg.AFE_BRK_STATUS_BREAK b
  let runs := (List.range 16).filterMap fun p =>
    let run := (s.afeOf b).brk.lookD p 0
    let l := ((pins.find? fun e => decide (e.1 = p)).map (·.2)).getD []
    if l = [] && decide (run = 0) && !bit broken p then none
    else some (p, brkRun (bit broken p) run d ((l ++ List.replicate n default).take n))
  if runs = [] then s
  else
    let brk : SMap Nat := (runs.filter fun e => decide (e.2.1.1 ≠ 0)).map fun e => (e.1, e.2.1.1)
    let turns := (runs.filter fun e => decide (e.2.2 ≠ [])).map fun e => (e.1, e.2.2)
    let s := s.setAfe b { s.afeOf b with brk := brk }
    if turns = [] then s else (List.range n).foldl (fun s (i : Nat) => s.brkTogether b (d + i) turns) s

/-- The detectors of a bank are told of decisions before the instant that brings the rest. -/
def brkEarly (s : State) (b : Nat) (pins : List (Nat × List PinDec)) : State :=
  let told := (s.afeOf b).told
  let n := min ((pins.map fun e => e.2.length).foldl max 0) (96 - told)
  let s := s.brkTell b n (s.brkNext b) pins
  s.setAfe b { s.afeOf b with told := told + n }

/-- At base-rate instant `k` the detectors of a bank are told the rest of decisions 96k + 1 to 96k + 96 (R196). -/
def brkInstant (s : State) (b : Nat) (k : Int) (pins : List (Nat × List PinDec)) : State :=
  let told := (s.afeOf b).told
  let s := s.brkTell b (96 - told) (96 * k + 1 + told) pins
  if told = 0 then s else s.setAfe b { s.afeOf b with told := 0 }

/-! ### Guards (R198 to R200) -/

/-- Mean common mode of the contributing channels of guard `i` of a bank, in µV (R198). -/
def guardLevel (s : State) (b i : Nat) : Int :=
  let ps := ((List.range 4).map fun j => 4 * i + j).filter fun p =>
    s.flag Reg.AFE_CH_GRD_SRC b p && !bit (s.fld Reg.AFE_BRK_STATUS_BREAK b) p
      && bit (s.fld Reg.AFE_PRES_STATUS_PRESENT b) p
  if ps = [] then (s.fld Reg.AFE_GRD_CTRL_DEFAULT b : Int) * 1000
  else rdiv ((ps.map fun p => (s.afeOf b).cm.lookD p 0).sum) ps.length

/-- The single-pole filter of a guard over one base sample (R199), in 2⁻¹⁶ µV. -/
def guardFilter (y x : Int) : Int := y + rdiv ((x - y) * Config.guardPole) (2 ^ 32)

/-- One base-rate update of the guards of a bank (R199). The filter of a guard that is enabled starts at the level of its
group (DESIGN CHOICE, log 17). -/
def guardTick (s : State) (b : Nat) : State :=
  let en := s.fld Reg.AFE_GRD_CTRL_EN b
  let a := s.afeOf b
  if en = 0 ∧ a.guards = [] then s
  else
    let new := (List.range 4).foldl (fun g i =>
      if bit en i then
        let x := s.guardLevel b i * 0x10000
        g.put i (guardFilter (g.lookD i x) x)
      else g.del i) a.guards
    if new = a.guards then s else s.setAfe b { a with guards := new }

/-- What GRDg of guard `i` of a bank is driven at, in µV; none while it is high-impedance (R199, R200). -/
def guardDrive (s : State) (b i : Nat) : Option Int :=
  if s.twn.drive && bit (s.fld Reg.AFE_GRD_CTRL_EN b) i then
    ((s.afeOf b).guards.look i).map fun y => clamp 200000 4800000 (y / 0x10000)
  else none

/-! ### Test currents (R190, R191) -/

/-- The test current into INn_P, and out of INn_N, of a channel in nA; none on a member that does not drive. -/
def testCurrent (s : State) (b p : Nat) : Nat :=
  if !s.twn.drive then 0
  else match s.fld Reg.AFE_CH_BRK_I b p with
    | 0 => 0
    | 1 => 10
    | 2 => 100
    | _ => 1000

/-! ### Excitation (R202 to R212, R718) -/

/-- The target in force (R202). -/
def excTarget (s : State) (b : Nat) : Int :=
  if s.fld Reg.AFE_EXC_MODE_MODE b = 0 then 0 else (s.fld Reg.AFE_EXC_SET_LEVEL b : Int) * 0x10000

/-- RAMP in force, in 2⁻¹⁶ ns. -/
def excRampTm (s : State) (b : Nat) : Nat := s.fld Reg.AFE_EXC_TIME_RAMP b * 1000 * 0x10000

/-- The excitation current in µA, from the voltage across R_ISENSE (R202). -/
def excCurr (s : State) (b : Nat) : Int := rdiv ((s.afeOf b).exc.isense * 1000) (max 1 (s.fld Reg.AFE_ISENSE_R_MOHM b))

/-- The regulated quantity as it was last read (R202 Table 5). -/
def excQuantity (s : State) (b : Nat) : Int :=
  if s.fld Reg.AFE_EXC_MODE_MODE b = 1 then (s.afeOf b).exc.volt else s.excCurr b

/-- The limited quantity as it was last read reaches its limit (R202 Table 5, R204). -/
def excAtLimit (s : State) (b : Nat) : Bool :=
  match s.fld Reg.AFE_EXC_MODE_MODE b with
  | 1 => decide ((s.fld Reg.AFE_EXC_LIM_ILIM b : Int) ≤ s.excCurr b)
  | 2 => decide ((s.fld Reg.AFE_EXC_LIM_VLIM b : Int) ≤ (s.afeOf b).exc.volt)
  | _ => false

/-- What the controller holds the limited quantity at while it is limiting (R204): ILIM in µA in mode 1, VLIM in mV in
mode 2. -/
def excHolds (s : State) (b : Nat) : Option Nat :=
  if !s.flag Reg.AFE_STATUS_EXC_LIMIT b then none
  else some (if s.fld Reg.AFE_EXC_MODE_MODE b = 1 then s.fld Reg.AFE_EXC_LIM_ILIM b else s.fld Reg.AFE_EXC_LIM_VLIM b)

/-- The excitation is in regulation (R203): within 0.5 % of the target in force, or 2 units, whichever is wider. -/
def excRegulated (s : State) (b : Nat) : Bool :=
  let t := s.excTarget b / 0x10000
  let d := (s.excQuantity b - t).natAbs
  decide (s.fld Reg.AFE_EXC_MODE_MODE b ≠ 0) && s.excDriven b && decide (d * 200 ≤ t.natAbs ∨ d ≤ 2)

/-- Limiting ends. -/
def endLimit (s : State) (b : Nat) : State :=
  (s.setExc b { (s.afeOf b).exc with limAt := none }).setFlag Reg.AFE_STATUS_EXC_LIMIT b 0 false

/-- Bring EXC_ON, EXC_REG and the presence that depends on them up to date (R188, R203, R219). A member that follows has
the regulation from its twin (R593). -/
def showExc (s : State) (b : Nat) : State :=
  let on := s.excDriven b
  let s := s.setFlag Reg.AFE_STATUS_EXC_ON b 0 (on && s.twn.drive)
  let s := if s.follows then s
    else
      let s := s.setFlag Reg.AFE_STATUS_EXC_REG b 0 (s.excRegulated b)
      if !on && s.flag Reg.AFE_STATUS_EXC_LIMIT b then s.endLimit b else s
  s.presExc b

/-- The output of the controller now: along a ramp, or where it stands (R208); what the regulated quantity reads while the
limit holds it back (R204). -/
def excLevel (s : State) (b : Nat) : Int :=
  let e := (s.afeOf b).exc
  if s.flag Reg.AFE_STATUS_EXC_LIMIT b && s.excDriven b then s.excQuantity b * 0x10000 else
  let ramp := fun (_ : Unit) =>
    let n := min (s.life - e.t0) (s.excRampTm b)
    e.fromQ + rdiv ((e.toQ - e.fromQ) * n) (max 1 (s.excRampTm b))
  match e.phase with
  | .idle => e.toQ
  | .ramp => ramp ()
  | .disable => ramp ()
  | .revRamp => ramp ()
  | .revUp => ramp ()
  | .revOff => 0
  | .revTurn => 0
  | .bbm => 0
  | .turnLate => 0
  | .fault => 0

/-- EV_AFE_EXC with a code of R222 Table 11. -/
def excEvent (s : State) (b code : Nat) : State :=
  s.raise .AFE b 2 (code + 0x10000 * s.fld Reg.AFE_EXC_NOW_TARGET b)
    (s.fld Reg.AFE_EXC_MEAS_VOLT b + 0x10000 * s.fld Reg.AFE_EXC_MEAS_CURR b)

/-- Enter a phase of the controller at this instant, along a ramp from the present output to `to_`; regulation and presence
follow at once (R188, R203). -/
def excEnter (s : State) (b : Nat) (ph : ExcPhase) (from_ to_ : Int) (toggles : Bool) : State :=
  let e := (s.afeOf b).exc
  let s := s.setExc b { e with phase := ph, fromQ := from_, toQ := to_, t0 := s.life, toggles := toggles }
  let s := s.setFld Reg.AFE_EXC_NOW_TARGET b 0 (s.excTarget b / 0x10000).toNat
  (s.setFlag Reg.AFE_EXC_NOW_CHANGING b 0 true).showExc b

/-- A change ends: CHANGING clears and EV_AFE_EXC DONE is raised (R209 step 5, R210). -/
def excDone (s : State) (b : Nat) : State :=
  let e := (s.afeOf b).exc
  let s := s.setExc b { e with phase := .idle, fromQ := e.toQ, changeEnd := some s.life }
  ((s.setFlag Reg.AFE_EXC_NOW_CHANGING b 0 false).showExc b).excEvent b 5

/-- EXCb_REV takes the REV in force. -/
def excTurn (s : State) (b : Nat) : State :=
  s.setFld Reg.AFE_EXC_NOW_REV b 0 (s.fld Reg.AFE_EXC_MODE_REV b)

/-- A level change at this instant (R208, R211). -/
def excChangeLevel (s : State) (b : Nat) : State :=
  let e := (s.afeOf b).exc
  let t := s.excTarget b
  let s := s.setFld Reg.AFE_EXC_NOW_TARGET b 0 (t / 0x10000).toNat
  if s.fld Reg.AFE_EXC_MODE_MODE b = 0 then s
  else match e.phase with
    | .idle => s.excEnter b .ramp (s.excLevel b) t false
    | .ramp => s.excEnter b .ramp (s.excLevel b) t false
    | .revUp => s.excEnter b .revUp (s.excLevel b) t e.toggles
    | .revRamp => s.showExc b
    | .revOff => s
    | .revTurn => s
    | .bbm => s
    | .disable => s
    | .turnLate => s
    | .fault => s

/-- A reversal at this instant, REV in force being toggled already (R209, R211, R718). -/
def excReverse (s : State) (b : Nat) : State :=
  let e := (s.afeOf b).exc
  let lv := s.excLevel b
  let fresh := s.excEnter b .revRamp lv 0 true
  match e.phase with
  | .fault => s
  | .disable => s.setExc b { e with late := !e.late }
  | .turnLate => (s.setExc b { e with phase := .idle, late := false }).excTurn b
  | .idle => if s.fld Reg.AFE_EXC_MODE_MODE b = 0 then s.excTurn b else fresh
  | .ramp => fresh
  | .revRamp => if e.toggles then s.excEnter b .ramp lv (s.excTarget b) false
      else s.setExc b { e with toggles := true }
  | .revOff => if e.toggles then s.excEnter b .ramp lv (s.excTarget b) false
      else s.setExc b { e with toggles := true }
  | .revTurn => fresh
  | .revUp => fresh
  | .bbm => fresh

/-- A disable: a ramp to 0 from the present output (R208, R211). -/
def excDisable (s : State) (b : Nat) : State :=
  match (s.afeOf b).exc.phase with
  | .fault => s.setFld Reg.AFE_EXC_NOW_TARGET b 0 0
  | _ =>
    let s := s.excEnter b .disable (s.excLevel b) 0 false
    s.setExc b { (s.afeOf b).exc with late := false }

/-- An enable from MODE 0 (R208, R718): where EXCb_REV differs it takes REV at once, even while a disable ramp is running, and
the ramp starts BBM later, EXCb_DRV at 0 V until then (DESIGN CHOICE, log 141). -/
def excEnable (s : State) (b : Nat) : State :=
  let e := (s.afeOf b).exc
  let t := s.excTarget b
  match e.phase with
  | .fault => s.setFld Reg.AFE_EXC_NOW_TARGET b 0 (t / 0x10000).toNat
  | _ =>
    let s := s.setExc b { e with late := false }
    if s.fld Reg.AFE_EXC_NOW_REV b = s.fld Reg.AFE_EXC_MODE_REV b then s.excEnter b .ramp (s.excLevel b) t false
    else (s.excTurn b).excEnter b .bbm 0 t false

/-- A change of MODE between 1 and 2: a reversal without the toggle (R208). -/
def excSwapMode (s : State) (b : Nat) : State :=
  let e := (s.afeOf b).exc
  match e.phase with
  | .fault => s
  | .revRamp => s
  | .revOff => s
  | _ => s.excEnter b .revRamp (s.excLevel b) 0 false

/-- A fault latches (R204, R205): EXCb_DRV at 0 V at once, the change abandoned. -/
def excFault (s : State) (b cause : Nat) : State :=
  let e := (s.afeOf b).exc
  let s := s.setExc b { e with phase := .fault, fromQ := 0, toQ := 0, t0 := s.life, drv := 0, satAt := none, limAt := none }
  let s := (s.setFlag Reg.AFE_STATUS_EXC_FAULT b 0 true).setFld Reg.AFE_STATUS_FAULT_CAUSE b 0 cause
  let s := (s.setFlag Reg.AFE_STATUS_EXC_LIMIT b 0 false).setFlag Reg.AFE_EXC_NOW_CHANGING b 0 true
  (s.excEvent b (cause + 1)).showExc b

/-- The clearing of a fault takes effect at a base-rate instant (R206). -/
def excClear (s : State) (b : Nat) : State :=
  let e := (s.afeOf b).exc
  if !e.clearReq then s
  else
    let s := s.setExc b { e with clearReq := false }
    if e.phase ≠ .fault then s
    else
      let s := (s.setFlag Reg.AFE_STATUS_EXC_FAULT b 0 false).setFld Reg.AFE_STATUS_FAULT_CAUSE b 0 0
      let t := s.excTarget b
      let turn := decide (s.fld Reg.AFE_EXC_NOW_REV b ≠ s.fld Reg.AFE_EXC_MODE_REV b)
      if s.fld Reg.AFE_EXC_MODE_MODE b = 0 then
        let s := s.setExc b { (s.afeOf b).exc with phase := .idle, changeEnd := some s.life }
        ((if turn then s.excTurn b else s).setFlag Reg.AFE_EXC_NOW_CHANGING b 0 false).showExc b
      else if turn then (s.excTurn b).excEnter b .bbm 0 t false
      else s.excEnter b .ramp 0 t false

/-- The controller at a base-rate instant (R203 to R205, R220): what it has read, EXC_MEAS every 1 ms, regulation, the end
of limiting, and EXCb_DRV, whose time at 4.5 V out of regulation counts towards a SAT fault. A member that follows reads
its own sense lines and nothing else (R593). -/
def excMeasure (s : State) (b : Nat) (k : Int) (x : Option ExcRead) : State :=
  let e := (s.afeOf b).exc
  if x.isNone && !s.excDriven b && decide (k % 256 ≠ 0) then s
  else
    let r := x.getD ⟨e.volt, e.isense⟩
    let s := s.setExc b { e with volt := r.volt, isense := r.isense }
    let s := if k % 256 ≠ 0 then s
      else (s.setFldS Reg.AFE_EXC_MEAS_VOLT b 0 r.volt).setFldS Reg.AFE_EXC_MEAS_CURR b 0 (s.excCurr b)
    if s.follows then s
    else
      let s := if s.flag Reg.AFE_STATUS_EXC_LIMIT b && !s.excAtLimit b then s.endLimit b else s
      let s := s.showExc b
      let e := (s.afeOf b).exc
      let drv := if s.excDriven b then
          clamp 0 4500 (Config.excLoop e.drv (s.excLevel b / 0x10000) (s.excQuantity b))
        else 0
      let sat := if drv = 4500 ∧ !s.flag Reg.AFE_STATUS_EXC_REG b then some (e.satAt.getD s.life) else none
      s.setExc b { e with drv := drv, satAt := sat }

/-- FAULT_MS has passed since a time (R204, R205). -/
def faultDue (s : State) (b : Nat) (t : Tm) : Bool :=
  decide (t + s.fld Reg.AFE_EXC_TIME_FAULT_MS b * 1000000 * 0x10000 ≤ s.life)

/-! ### Commits (R185, R207, R208, R717, R221) -/

/-- The commit checks of AFE[b] on a configuration (R221): the causes that fail. -/
def afeChecks (c : SMap Word) (b : Nat) : List Nat :=
  let mode := Reg.AFE_EXC_MODE_MODE.rd c b 0
  let level := Reg.AFE_EXC_SET_LEVEL.rd c b 0
  let r := Reg.AFE_ISENSE_R_MOHM.rd c b 0
  let lim := 2500000000
  (if (mode = 1 ∧ ¬ (500 ≤ level ∧ level ≤ 10000)) ∨ (mode = 2 ∧ ¬ (100 ≤ level ∧ level ≤ 20000)) then [0x10] else []) ++
  (if lim < r * Reg.AFE_EXC_LIM_ILIM.rd c b 0 ∨ (mode = 2 ∧ lim < r * level) then [0x11] else []) ++
  (if Reg.AFE_PRES_WIN_CM_HI.rd c b 0 ≤ Reg.AFE_PRES_WIN_CM_LO.rd c b 0 ∧
      (List.range 16).any (fun p => decide (Reg.AFE_CH_PRES_EN.rd c b p ≠ 0)) then [0x12] else [])

/-- The excitation requests of a commit, the new values being in force (R208). -/
def excCommit (s : State) (old : SMap Word) (b : Nat) : State :=
  let m0 := Reg.AFE_EXC_MODE_MODE.rd old b 0
  let m1 := s.fld Reg.AFE_EXC_MODE_MODE b
  let lvl := decide (Reg.AFE_EXC_SET_LEVEL.rd old b 0 ≠ s.fld Reg.AFE_EXC_SET_LEVEL b)
  let rev := decide (Reg.AFE_EXC_MODE_REV.rd old b 0 ≠ s.fld Reg.AFE_EXC_MODE_REV b)
  if m0 ≠ 0 ∧ m1 = 0 then
    let s := s.excDisable b
    if rev then s.excReverse b else s
  else if m0 = 0 ∧ m1 ≠ 0 then s.excEnable b
  else
    let s := if m0 ≠ m1 then s.excSwapMode b else s
    let s := if lvl then s.excChangeLevel b else s
    if rev then s.excReverse b else s

/-- Presence across a commit (R717). -/
def presCommit (s : State) (old : SMap Word) (b : Nat) : State :=
  let s := (List.range 16).foldl (fun s p =>
    let was := decide (Reg.AFE_CH_PRES_EN.rd old b p ≠ 0)
    if was = s.flag Reg.AFE_CH_PRES_EN b p then s
    else
      let a := s.afeOf b
      let drop := fun m : Nat => if bit m p then m - 2 ^ p else m
      s.setAfe b { a with runs := a.runs.del p, lostWin := drop a.lostWin, lostExc := drop a.lostExc }) s
  s.refreshPresent b true

/-! ### TEDS (R213 to R218) -/

/-- Insert an identity in ascending order, once. -/
def insId (x : Nat) : List Nat → List Nat
  | [] => [x]
  | y :: t => if x < y then x :: y :: t else if x = y then y :: t else y :: insId x t

/-- TEDS presence of the channels of a bank, as a mask (R215). -/
def tedsPresence (s : State) (b : Nat) : Nat :=
  let found := (List.range (s.fld Reg.AFE_TEDS_STAT_FOUND b)).map fun i =>
    s.fld64 Reg.AFE_TEDS_FOUND_ID_LO Reg.AFE_TEDS_FOUND_ID_HI b i
  ((List.range 16).filter fun p => s.flag Reg.AFE_CH_TEDS_EN b p &&
    found.contains (s.fld64 Reg.AFE_TEDS_EXP_ID_LO Reg.AFE_TEDS_EXP_ID_HI b p)).foldl (fun m p => m + 2 ^ p) 0

/-- What a commit of AFE[b] changes besides the registers. -/
def afeCommit (s : State) (old : SMap Word) (b : Nat) : State :=
  let s := ((s.presCommit old b).excCommit old b).showExc b
  s.setFld Reg.AFE_PRES_STATUS_TEDS b 0 (s.tedsPresence b)

/-- TEDS_STAT's error flags as EV_AFE_TEDS carries them (R222). -/
def tedsFlags (s : State) (b : Nat) : Nat :=
  0x10000 * s.fld Reg.AFE_TEDS_STAT_OVERFLOW b + 0x20000 * s.fld Reg.AFE_TEDS_STAT_SHORT b
    + 0x40000 * s.fld Reg.AFE_TEDS_STAT_CRCERR b

/-- Start a scan, unless the line is busy or the member does not drive it (R214, R218). -/
def tedsStart (s : State) (b : Nat) : State :=
  if !s.twn.drive || s.flag Reg.AFE_STATUS_TEDS_BUSY b then s
  else (s.setAfe b { s.afeOf b with tedsScanning := true }).setFlag Reg.AFE_STATUS_TEDS_BUSY b 0 true

/-- A write of CTRL.TEDS_READ = 1 (R217, R218): the device TEDS_FOUND[DEV] is selected. -/
def tedsReadStart (s : State) (b : Nat) : State :=
  if s.flag Reg.AFE_STATUS_TEDS_BUSY b then s.err .AFE b 0x13
  else if !s.twn.drive then s
  else
    let id := s.fld64 Reg.AFE_TEDS_FOUND_ID_LO Reg.AFE_TEDS_FOUND_ID_HI b (s.fld Reg.AFE_TEDS_RDADDR_DEV b)
    (s.setAfe b { s.afeOf b with tedsReading := some id }).setFlag Reg.AFE_STATUS_TEDS_BUSY b 0 true

/-- A member that no longer drives the TEDS line neither scans nor reads: what is running ends, and TEDS_FOUND and TEDS_STAT
stay (R218). -/
def tedsStop (s : State) (b : Nat) : State :=
  if !(s.afeOf b).tedsScanning && (s.afeOf b).tedsReading.isNone then s
  else (s.setAfe b { s.afeOf b with tedsScanning := false, tedsReading := none }).setFlag Reg.AFE_STATUS_TEDS_BUSY b 0 false

/-- The work of CTRL's WO bits on AFE[b] (R219). -/
def afeCtrl (s : State) (b : Nat) (w : Word) : State :=
  let n := w.toNat
  let s := if bit n 8 then s.setExc b { (s.afeOf b).exc with clearReq := true } else s
  let s := if bit n 9 then s.tedsStart b else s
  if bit n 10 then s.tedsReadStart b else s

end State

/-- PRESENCE_MEASUREMENT: the common modes of a bank, in µV by position (R186). -/
def execPresenceMeasurement (bank : Fin 16) (uv : List Int) (s : State) : Host.Outcome State Fault Refusal :=
  .next (if s.booted then
      (List.range 16).foldl (fun s p => s.presMeasure bank.val p (uv.getD p 0)) s
    else s).finish

/-- PRESENCE_LOSS: the channels that have been outside the window for PRES_TIME (R187). -/
def execPresenceLoss (bank : Fin 16) (s : State) : Host.Outcome State Fault Refusal :=
  let b := bank.val
  let a := s.afeOf b
  .next (if s.booted then
      (s.setAfe b { a with lostWin := a.lostWin ||| s.presDue b false }).refreshPresent b false
    else s).finish

/-- PRESENCE_REGAIN: the absent channels that have been inside the window for PRES_TIME (R187); those that the excitation has
taken also need it in regulation (R188). -/
def execPresenceRegain (bank : Fin 16) (s : State) : Host.Outcome State Fault Refusal :=
  let b := bank.val
  let a := s.afeOf b
  .next (if s.booted then
      ((s.setAfe b { a with lostWin := a.lostWin - (a.lostWin &&& s.presDue b true) }).refreshPresent b false).presExc b
    else s).finish

/-- BREAK_DECLARED: the decisions of a bank up to the 64th in a row that is out of range (R193, R195). -/
def execBreakDeclared (bank : Fin 16) (pins : List (Nat × List PinDec)) (s : State) : Host.Outcome State Fault Refusal :=
  .next (if s.booted then s.brkEarly bank.val pins else s).finish

/-- WHOLE_DECLARED: the decisions of a bank up to the 4,096th in a row that is in range (R194, R195). -/
def execWholeDeclared (bank : Fin 16) (pins : List (Nat × List PinDec)) (s : State) : Host.Outcome State Fault Refusal :=
  .next (if s.booted then s.brkEarly bank.val pins else s).finish

/-- EXC_LIMIT_START: the limited quantity would exceed its limit, and the controller holds it there (R204). -/
def execExcLimitStart (bank : Fin 16) (s : State) : Host.Outcome State Fault Refusal :=
  let b := bank.val
  if s.follows || !s.excDriven b || s.flag Reg.AFE_STATUS_EXC_LIMIT b then .next s.finish
  else
    let s := s.setExc b { (s.afeOf b).exc with limAt := some s.life }
    .next ((s.setFlag Reg.AFE_STATUS_EXC_LIMIT b 0 true).excEvent b 1).finish

/-- EXC_FAULT_LIMIT: limiting has lasted FAULT_MS without a break (R204): ILIM in mode 1, VLIM in mode 2. -/
def execExcFaultLimit (bank : Fin 16) (s : State) : Host.Outcome State Fault Refusal :=
  let b := bank.val
  .next (if s.flag Reg.AFE_STATUS_EXC_LIMIT b && (s.afeOf b).exc.limAt.any (s.faultDue b) then
      s.excFault b (if s.fld Reg.AFE_EXC_MODE_MODE b = 1 then 1 else 2)
    else s).finish

/-- EXC_FAULT_SAT: EXCb_DRV has stood at 4.5 V for FAULT_MS without a break, out of regulation (R205). -/
def execExcFaultSat (bank : Fin 16) (s : State) : Host.Outcome State Fault Refusal :=
  let b := bank.val
  .next (if !s.flag Reg.AFE_STATUS_EXC_REG b && (s.afeOf b).exc.satAt.any (s.faultDue b) then s.excFault b 3 else s).finish

/-- EXC_RAMP_END: a ramp reaches its target (R208, R209). The change of a disable ends with its ramp (R210); a recorded toggle
follows BBM later (R718). -/
def execExcRampEnd (bank : Fin 16) (s : State) : Host.Outcome State Fault Refusal :=
  let b := bank.val
  let e := (s.afeOf b).exc
  .next (match e.phase with
    | .ramp => s.excDone b
    | .revUp => s.excDone b
    | .revRamp => s.excEnter b .revOff 0 0 e.toggles
    | .disable =>
      let s := s.excDone b
      if e.late then s.setExc b { (s.afeOf b).exc with phase := .turnLate, t0 := s.life } else s
    | .idle => s
    | .revOff => s
    | .revTurn => s
    | .bbm => s
    | .turnLate => s
    | .fault => s).finish

/-- EXC_BBM_END: a break-before-make interval expires (R209, R206, R718). -/
def execExcBbmEnd (bank : Fin 16) (s : State) : Host.Outcome State Fault Refusal :=
  let b := bank.val
  let e := (s.afeOf b).exc
  .next (match e.phase with
    | .revOff => (if e.toggles then s.excTurn b else s).excEnter b .revTurn 0 0 e.toggles
    | .revTurn => s.excEnter b .revUp 0 (s.excTarget b) e.toggles
    | .bbm => s.excEnter b .ramp 0 (s.excTarget b) false
    | .turnLate => (s.setExc b { e with phase := .idle, late := false }).excTurn b
    | .idle => s
    | .ramp => s
    | .disable => s
    | .revRamp => s
    | .revUp => s
    | .fault => s).finish

/-- TEDS_SCAN_PERIOD: the PERIOD timer starts a scan (R214). -/
def execTedsScanPeriod (bank : Fin 16) (s : State) : Host.Outcome State Fault Refusal :=
  .next (if s.fld Reg.AFE_TEDS_CTRL_PERIOD bank.val = 0 then s else s.tedsStart bank.val).finish

/-- The CRC-8 of an identity over `n` bits of `v`, least significant first, by the polynomial x⁸ + x⁵ + x⁴ + 1
(PRESUMED, log 142: that of the line of IEEE 1451.4). -/
def lineCrc8 : Nat → Nat → Nat → Nat
  | 0, _, c => c
  | n + 1, v, c => lineCrc8 n (v / 2) (if (v + c) % 2 = 1 then (c / 2) ^^^ 0x8C else c / 2)

/-- An identity is sound (R213): its last byte is the CRC-8 of the seven before it. -/
def idSound (x : BitVec 64) : Bool := decide (lineCrc8 56 x.toNat 0 = x.toNat / 2 ^ 56)

/-- The identities as the line gave them: the 56 bits of each, and the byte that came after them. -/
def scannedIds (ids : List (BitVec 56)) (crcs : List Byte) : List (BitVec 64) := (ids.zip crcs).map fun e => e.2 ++ e.1

/-- TEDS_SCAN_DONE with the identities as the line gave them (R213 to R215): one whose CRC-8 fails is not an identity
found. -/
def execTedsScanDone (bank : Fin 16) (ids : List (BitVec 56)) (crcs : List Byte) (s : State) :
    Host.Outcome State Fault Refusal :=
  let b := bank.val
  let ids := scannedIds ids crcs
  if !(s.afeOf b).tedsScanning then .next s.finish
  else
    let crcErr := ids.any fun x => !idSound x
    let l := (ids.filter idSound).foldl (fun acc x => State.insId x.toNat acc) []
    let s := (List.range 16).foldl (fun s i =>
      s.setFld64 Reg.AFE_TEDS_FOUND_ID_LO Reg.AFE_TEDS_FOUND_ID_HI b i (l.getD i 0)) s
    let s := s.setAfe b { s.afeOf b with tedsScanning := false }
    let s := (s.setFld Reg.AFE_TEDS_STAT_FOUND b 0 (min l.length 16)).setFlag Reg.AFE_STATUS_TEDS_BUSY b 0 false
    let s := (s.setFlag Reg.AFE_TEDS_STAT_OVERFLOW b 0 (decide (16 < l.length))).setFlag Reg.AFE_TEDS_STAT_SHORT b 0 false
    let s := (s.setFlag Reg.AFE_TEDS_STAT_CRCERR b 0 crcErr).bump Reg.AFE_TEDS_STAT_SCANS b 0
    let was := s.fld Reg.AFE_PRES_STATUS_TEDS b
    let now := s.tedsPresence b
    let s := s.setFld Reg.AFE_PRES_STATUS_TEDS b 0 now
    .next (if was ≠ now ∨ crcErr then s.raise .AFE b 3 (now + s.tedsFlags b) 0 else s).finish

/-- TEDS_SHORT: the line has been low for 960 µs; the scan ends and TEDS_FOUND stays (R216). -/
def execTedsShort (bank : Fin 16) (s : State) : Host.Outcome State Fault Refusal :=
  let b := bank.val
  if !(s.afeOf b).tedsScanning then .next s.finish
  else
    let s := s.setAfe b { s.afeOf b with tedsScanning := false }
    let s := (s.setFlag Reg.AFE_TEDS_STAT_SHORT b 0 true).setFlag Reg.AFE_STATUS_TEDS_BUSY b 0 false
    .next (s.raise .AFE b 3 (s.fld Reg.AFE_PRES_STATUS_TEDS b + s.tedsFlags b) 0).finish

/-- TEDS_READ_DONE with the 32 bytes of the device selected and the page's CRC as it was read (R213, R217, R222). -/
def execTedsReadDone (bank : Fin 16) (ws : List Word) (crc : Word) (s : State) : Host.Outcome State Fault Refusal :=
  let b := bank.val
  match (s.afeOf b).tedsReading with
  | none => .next s.finish
  | some id =>
    let bad := decide (crc ≠ Config.tedsPageCrc ws)
    let s := (List.range 8).foldl (fun s i => s.setFld Reg.AFE_TEDS_BUF_DATA b i (ws.getD i 0).toNat) s
    let s := s.setAfe b { s.afeOf b with tedsReading := none }
    let s := (s.setFlag Reg.AFE_TEDS_STAT_CRCERR b 0 bad).setFlag Reg.AFE_STATUS_TEDS_BUSY b 0 false
    .next (s.raise .AFE b 3 (s.fld Reg.AFE_PRES_STATUS_TEDS b + s.tedsFlags b + 0x80000) (w32 id).toNat).finish

end Sys2Proof.Machine
end

