-- ==== Sys2Proof/Machine/Cnv.lean ====
section
/-!
DEFINITION. Converters, corrections, the round and the calibration journal (R224 to R264). Readings and
corrected values are integers in 1/256 LSB.
-/
namespace Sys2Proof.Machine

/-! ### The decimation front (R226) -/

/-- Sum of the first `n` elements of each suffix: a list convolved with `n` ones. -/
def boxcar (n : Nat) (l : List Nat) : List Nat :=
  (List.range (l.length + n - 1)).map fun i =>
    (((l.drop (i + 1 - n)).take (i + 1 - (i + 1 - n))).take n).sum

/-- The 476 weights of the fifth-order sinc filter that decimates by 96; their sum is 96⁵. -/
def sincTaps : List Nat := boxcar 96 (boxcar 96 (boxcar 96 (boxcar 96 (List.replicate 96 1))))

/-- The raw reading of a front whose history is `h`, newest first (R226). -/
def frontReading (h : List Dec) : Int :=
  if h = [] then 0
  else clamp (-2147483647) 2147483647
    (rdiv ((h.zip sincTaps).map fun e => e.1.val * (e.2 : Int)).sum (96 ^ 5))

/-- Put 96 decisions, oldest first, into a front; a front of zeros is the empty list. -/
def frontPush (h ds : List Dec) : List Dec :=
  let l := (ds.reverse ++ h).take 476
  if l.all fun d => decide (d.val = 0) && !d.ovl then [] else l

/-! ### Correction and fit (R228 to R233) -/

/-- The nominal set (R228), with its TEMP 0x8000. -/
def nominalSet : CalPoint := ⟨0, 0x40000000, 0, -0x8000⟩

/-- The corrected value of a raw reading, rounded to 1/256 LSB (R229). -/
def correct (c : CalPoint) (r : Int) : Int :=
  let d := r - c.offset
  rdiv ((c.gain : Int) * d * 2 ^ 30 + c.sq * d * d) (2 ^ 60)

/-- `n ÷ d` rounded to the nearest integer, ties away from zero, for a denominator of either sign. -/
def rdivZ (n d : Int) : Int := if d < 0 then rdiv (-n) (-d) else rdiv n d

/-- What a calibration fits (R232): the set, k as a fraction, and whether a fit exists at all. -/
structure Fit where
  set : CalPoint
  kn : Int
  kd : Int
  exists_ : Bool
deriving DecidableEq, Repr

/-- Target of points P and N in LSB (R230). -/
def targetP : Int := 6291456

/-- Fit the sums of `m` readings per point (R232). `ext` is the reference value in µV and the gain when
point E is measured. -/
def fitPoints (r : CalReadings) (m : Nat) (ext : Option (Int × Nat)) (temp : Int) : Fit :=
  let p := r.p - r.z
  let n := r.n - r.z
  let e := r.e - r.z
  let w : Int := 256 * m
  let den := p * n * (n - p)
  let sq2 := p * p + n * n
  let ce := sq2 * e - (p + n) * (e * e)
  -- k = X_E × den ÷ (X_P × ce), with X_E = µV × G × 2²³ ÷ 2,500,000
  let k : Int × Int := match ext with
    | none => (1, 1)
    | some (uv, g) => (uv * g * 2 ^ 23 * den, targetP * ce * 2500000)
  let ok := decide (den ≠ 0 ∧ k.2 ≠ 0)
  let gain := rdivZ (2 ^ 30 * targetP * sq2 * w * k.1) (den * k.2)
  let sq := rdivZ (-(2 ^ 52 * targetP * (p + n) * w * w * k.1)) (den * k.2)
  ⟨⟨rdiv r.z m, gain.toNat, sq, temp⟩, k.1, k.2, ok⟩

/-- |k − 1| exceeds a limit in ppm (R233). -/
def kFails (f : Fit) (ppm : Nat) : Bool := decide ((ppm * f.kd.natAbs : Nat) < (f.kn - f.kd).natAbs * 1000000)

/-- A point's GAIN lies within ±2 % of 2³⁰ (R233). -/
def gainOk (g : Nat) : Bool := decide (98 * 0x40000000 ≤ 100 * g ∧ 100 * g ≤ 102 * 0x40000000)

/-- The fields of a point lie within R233. -/
def pointOk (c : CalPoint) : Bool :=
  gainOk c.gain && decide (c.offset.natAbs ≤ 10737418) && decide (-32768 ≤ c.sq ∧ c.sq ≤ 32767)

/-! ### Point tables (R236, R237, R262) -/

/-- Insert a point in ascending TEMP. -/
def insPoint (c : CalPoint) : List CalPoint → List CalPoint
  | [] => [c]
  | x :: t => if c.temp < x.temp then c :: x :: t else x :: insPoint c t

/-- Index of the point with TEMP nearest `t`, the lower TEMP on a tie. -/
def nearest (t : Int) : Nat → List CalPoint → Nat
  | _, [] => 0
  | i, [_] => i
  | i, x :: y :: l =>
    let j := nearest t (i + 1) (y :: l)
    match (y :: l).drop (j - i - 1) with
    | b :: _ => if (x.temp - t).natAbs ≤ (b.temp - t).natAbs then i else j
    | [] => i

/-- The table without its point `i`. -/
def dropPoint (l : List CalPoint) (i : Nat) : List CalPoint := l.take i ++ l.drop (i + 1)

/-- Accept a point into a table (R236). -/
def acceptPoint (l : List CalPoint) (c : CalPoint) (span : Nat) : List CalPoint :=
  if l = [] then [c]
  else
    let j := nearest c.temp 0 l
    match l.drop j with
    | x :: _ =>
      if (x.temp - c.temp).natAbs < span ∨ 8 ≤ l.length then insPoint c (dropPoint l j) else insPoint c l
    | [] => insPoint c l

/-- Interpolate between two points (R237). -/
def between (t : Int) (a b : CalPoint) : CalPoint :=
  let g := fun (x y : Int) => rdiv (x * (b.temp - a.temp) + (t - a.temp) * (y - x)) (b.temp - a.temp)
  ⟨g a.offset b.offset, (g a.gain b.gain).toNat, g a.sq b.sq, t⟩

/-- The set of a table at a bank temperature (R237). -/
def setAt (t : Int) : List CalPoint → CalPoint
  | [] => nominalSet
  | [a] => { a with temp := t }
  | a :: b :: l =>
    if t ≤ a.temp then { a with temp := t }
    else if t < b.temp then between t a b
    else setAt t (b :: l)

namespace State

/-- What CNV keeps of a bank. -/
def cnvOf (s : State) (b : Nat) : CnvState := s.cnv.lookD b default

/-- Replace what CNV keeps of a bank. -/
def setCnv (s : State) (b : Nat) (v : CnvState) : State := { s with cnv := s.cnv.put b v }

/-- The round of a bank. -/
def round (s : State) (b : Nat) : RoundState := (s.cnvOf b).round

/-- Replace the round of a bank. -/
def setRound (s : State) (b : Nat) (r : RoundState) : State := s.setCnv b { s.cnvOf b with round := r }

/-- The point table of converter `c` for gain code `j`. -/
def table (s : State) (c j : Nat) : List CalPoint := s.cal.tables.lookD (8 * c + j) []

/-- Replace a point table: its 96 bytes of the coefficient images are three codewords, written whole (R527, R536). -/
def setTable (s : State) (c j : Nat) (l : List CalPoint) : State :=
  let t := 8 * c + j
  let s := { s with cal := { s.cal with tables := if l = [] then s.cal.tables.del t else s.cal.tables.put t l } }
  { s with mem := { s.mem with errs := s.mem.errs.filter fun e => decide (e.1 / 36 / 3 ≠ t) } }

/-- The points of an uncorrectable codeword of the coefficient images are emptied (R529). DESIGN CHOICE (log 151): the table
is written again without them. -/
def emptyPoints (s : State) (cw : Nat) : State :=
  let t := cw / 3
  let o := 32 * (cw % 3)
  let l := s.table (t / 8) (t % 8)
  let kept := (List.range l.length).filter fun i => !decide (o < 12 * i + 12 ∧ 12 * i < o + 32)
  if t < 272 * 8 then s.setTable (t / 8) (t % 8) (kept.filterMap fun i => l[i]?) else s

/-- The value that a pattern adds to a symbol. -/
def ErrPat.at_ (e : ErrPat) (k : Nat) : Nat := e.foldl (fun a x => if x.1 = k then a ^^^ x.2 else a) 0

/-- Read a codeword of the coefficient images (R528): whether it is good. One that the code takes for another gives the
table the bytes that come out. -/
def imageTouch (s : State) (cw : Nat) (scrub : Bool) : State × Bool :=
  let e := s.errPat cw
  let p : ErrPat := match rsDecode e with
    | .corrected p => p
    | _ => []
  let r := s.touch cw scrub false
  if !r.2 then r
  else
    let t := cw / 3
    let wrong := (List.range 32).map fun k => ErrPat.at_ e k ^^^ ErrPat.at_ p k
    if wrong.all (· = 0) ∨ 272 * 8 ≤ t then r
    else
      let l := r.1.table (t / 8) (t % 8)
      let bs := (List.range 8).flatMap fun i => pointBytes l[i]?
      let out := (List.range 96).map fun k =>
        bs.getD k 0 ^^^ BitVec.ofNat 8 (if k / 32 = cw % 3 then wrong.getD (k % 32) 0 else 0)
      (r.1.setTable (t / 8) (t % 8) (bytesTable out), true)

/-- The hub reads the tables that `reads` names from the coefficient images: of their codewords those with a wrong symbol
have an effect (R528, R529). -/
def imagesRead (s : State) (reads : Nat → Bool) : State :=
  ((s.mem.errs.map fun e => e.1 / 36).eraseDups.filter fun cw => decide (cw < 3 * 272 * 8) && reads (cw / 3)).foldl
    (fun s cw =>
      let r := s.imageTouch cw false
      if r.2 then r.1 else r.1.emptyPoints cw) s

/-- The set in force for converter `q` of a bank (R260 Table 11). -/
def coef (s : State) (b q : Nat) : CalPoint :=
  ⟨s.fldS Reg.CNV_COEF_OFFSET b q, s.fld Reg.CNV_COEF_GAIN b q, s.fldS Reg.CNV_COEF_SQ b q, s.fldS Reg.CNV_COEF_TEMP b q⟩

/-- Put a set in force. -/
def setCoef (s : State) (b q : Nat) (c : CalPoint) : State :=
  let s := (s.setFldS Reg.CNV_COEF_OFFSET b q c.offset).setFld Reg.CNV_COEF_GAIN b q c.gain
  (s.setFldS Reg.CNV_COEF_SQ b q c.sq).setFldS Reg.CNV_COEF_TEMP b q c.temp

/-- Gain code that converter `q` runs at (R239). -/
def gainOf (s : State) (b q : Nat) : Nat :=
  if q < 16 then s.fld Reg.AFE_CH_GAIN b q else (s.cnvOf b).spareGain

/-- Bank temperature: the mean of the readings of the last second (R235). -/
def bankTemp (s : State) (b : Nat) : Int := meanI (s.cnvOf b).temps

/-! ### Steps (R238 to R241) -/

/-- A step of a bank: the 17 sets for the temperature `t` come into force together when one of them
differs. Answers whether they did (R240). -/
def bankStepAt (s : State) (b : Nat) (t : Int) : State × Bool :=
  let qs := List.range 17
  let s := s.imagesRead fun x => decide (x / 8 / 17 = b ∧ x % 8 = s.gainOf b (x / 8 % 17))
  let new := qs.map fun q => (q, setAt t (s.table (17 * b + q) (s.gainOf b q)))
  let differs := new.any fun e =>
    let c := s.coef b e.1
    decide (c.offset ≠ e.2.offset ∨ c.gain ≠ e.2.gain ∨ c.sq ≠ e.2.sq)
  let s1 := new.foldl (fun s e => s.setCoef b e.1 e.2) s
  let un := (qs.filter fun q => (s.table (17 * b + q) (s.gainOf b q)).isEmpty).foldl (fun m q => m + 2 ^ q) 0
  let rise := (un &&& (0x1FFFF - s.fld Reg.CNV_UNCAL b)) ≠ 0
  let s1 := (s1.setFld Reg.CNV_UNCAL b 0 un).setFldS Reg.CNV_TEMP_MEAN b 0 t
  (if rise then s1.raise .CNV b 2 un 0 else s1, differs)

/-- A step of a bank for the mean temperature of the last second (R235). -/
def bankStep (s : State) (b : Nat) : State × Bool := s.bankStepAt b (s.bankTemp b)

/-- A step that tags: STEPS counts it when the sets came into force (R240). -/
def countedStep (s : State) (b : Nat) : State × Bool :=
  let r := s.bankStep b
  (if r.2 then r.1.bump Reg.CNV_STEPS b 0 else r.1, r.2)

/-! ### The round (R242 to R250) -/

/-- D of a blend: its mean, to 1/256 LSB (R247). -/
def blendD (r : RoundState) : Int := if r.blendN = 0 then 0 else rdiv r.blendSum r.blendN

/-- Show the round in STATUS (R260). -/
def showRound (s : State) (b : Nat) : State :=
  let r := s.round b
  let s := s.setFlag Reg.CNV_STATUS_ROUND_ON b 0 (decide (r.step ≠ 0))
  (s.setFld Reg.CNV_STATUS_STEP b 0 r.step).setFld Reg.CNV_STATUS_POS b 0 r.pos

/-- Go to a step of Table 3. -/
def toStep (s : State) (b n : Nat) : State := (s.setRound b { s.round b with step := n }).showRound b

/-- A cycle ends: CYCLES and EV_CNV_ROUND (R248, R264). The next cycle may start from `next`. -/
def endCycle (s : State) (b : Nat) (next : Int) : State :=
  let r := s.round b
  let top := r.met.foldl max 0
  let mask := (r.met.filter fun x => decide (1 ≤ x)).foldl (fun m x => m ||| 2 ^ (7 + x)) 0
  let s := s.setRound b { r with
    step := 0, prev := some r.pos, nextAt := next, met := [], unparkReq := false, unparking := false }
  let s := (s.showRound b).bump Reg.CNV_ROUND_COUNT_CYCLES b 0
  s.raise .CNV b 0 (top + 16 * r.pos + mask) (s.fld Reg.CNV_ROUND_DIFF_D b)

/-- EV_CNV_FAULT (R264). -/
def convFault (s : State) (b result q hi : Nat) : State := s.raise .CNV b 1 (result + 16 * q) hi

/-- A ppm value as 16 bits, saturating at ±32,767 (R264). -/
def ppm16 (x : Int) : Nat := toField 16 (clamp (-32767) 32767 x)

/-- The reference that REF_MAP selects for a gain code: its index and value in µV (R230). -/
def reference (s : State) (j : Nat) : Option (Nat × Int) :=
  let sel := s.fld Reg.CAL_REF_MAP_SEL / 8 ^ j % 8
  if 1 ≤ sel ∧ sel ≤ 4 then some (sel - 1, s.fldS Reg.CAL_REF_UV_UV 0 (sel - 1)) else none

/-- Mean bank temperature over a measurement that took `n` base-rate samples: the readings of its last
milliseconds (R232). -/
def tempOver (s : State) (b n : Nat) : Int := meanI ((s.cnvOf b).temps.take (max 1 (n / 256)))

/-- A calibration of converter `q` at gain code `j` completes (R232, R233, R236): answers the result met,
0 when the point is accepted, and the point. An accepted one clears the channel's CHFAIL (R605). -/
def calibrate (s : State) (b q j : Nat) (r : CalReadings) : State × Nat × CalPoint :=
  let m := (s.round b).cycM
  let ref := s.reference j
  let n := if ref.isSome then 4 else 3
  let f := fitPoints r m (ref.map fun e => (e.2, 2 ^ j)) (s.tempOver b (n * (8 + m)))
  let kBad := kFails f (s.fld Reg.CAL_REF_TOL_PPM)
  let bad := !f.exists_ || !pointOk f.set
  if bad || kBad then
    let result := if bad then (if q = 16 then 1 else 2) else 3
    let s := s.orFld Reg.CNV_CONV_FAULT_FAULT b 0 (2 ^ q)
    let gp := rdiv (((f.set.gain : Int) - 0x40000000) * 1000000) 0x40000000
    let kp := rdivZ ((f.kn - f.kd) * 1000000) f.kd
    let s := s.convFault b result q (ppm16 gp + 0x10000 * ppm16 kp)
    let s := if kBad then s.raise .CAL 0 3 ((ref.map (·.1)).getD 0 + 4 * (17 * b + q)) (w32s kp).toNat else s
    (s, result, f.set)
  else
    let s := if q = 16 then s else
        let c := 16 * b + q
        let w := s.fld Reg.TWN_CHFAIL 0 (c / 32)
        if bit w (c % 32) then s.setFld Reg.TWN_CHFAIL 0 (c / 32) (w - 2 ^ (c % 32)) else s
    (s.setTable (17 * b + q) j (acceptPoint (s.table (17 * b + q) j) f.set (s.fld Reg.CAL_TSPAN_SPAN)), 0, f.set)

/-- The blend of a cycle begins with base sample `k` when that is the 8th after its step instant (R244). -/
def blendStart (s : State) (b : Nat) (k : Int) : State :=
  let r := s.round b
  if (r.step = 3 ∨ r.step = 7) ∧ k = r.sRef + 8 then
    (s.setRound b { r with blendN := 0, blendSum := 0, blendVoid := r.unparking }).toStep b (r.step + 1)
  else s

/-- The analog check of R602 that a bank still has to make, or is making. -/
def analogRun (s : State) (b : Nat) : Option SelfRun :=
  s.twn.selfRun.filter fun r => r.analog && !r.ended && decide (r.chan / 16 = b)

/-- The next position that the round serves (R243). -/
def nextPos (s : State) (b : Nat) : Option Nat :=
  let m := s.fld Reg.CNV_ROUND_MASK_MASK b
  let un := s.fld Reg.CNV_UNCAL b
  match (List.range 16).find? fun p => bit m p && bit un p with
  | some p => some p
  | none =>
    let start := ((s.round b).prev.map (· + 1)).getD 0
    ((List.range 16).map fun i => (start + i) % 16).find? fun p => bit m p

/-- The analog check begins at a step instant without a cycle (R602): the spare, at the channel's gain, is switched onto the
pair. It is void where the spare has no table for that gain, and where the spare stands parked on a position (DESIGN CHOICE,
log 144). -/
def analogBegin (s : State) (b : Nat) : State :=
  match s.analogRun b with
  | none => s
  | some r =>
    let j := s.fld Reg.AFE_CH_GAIN b (r.chan % 16)
    let void := (s.table (17 * b + 16) j).isEmpty || s.flag Reg.CNV_STATUS_PARKED b || (s.round b).parkWait
    { s with twn := { s.twn with selfRun := some { r with on := true, taken := 0, sum := 0, void := void, ended := void } } }

/-- The round at a base-rate instant `k`, before the sample is made (R242 to R250). The reference test holds the
spare of a bank at its first step instant without a cycle, the analog check of R602 from such an instant on, and a cycle
waits for the next one (R690). -/
def roundInstant (s : State) (b : Nat) (k : Int) : State :=
  let r := s.round b
  let stepInst := decide (k % 256000 = 0)
  if r.step = 2 ∧ r.sRef < k then s.toStep b 3
  else if r.step = 6 ∧ r.sRef < k then s.toStep b 7
  else if !stepInst then s.blendStart b k
  else if r.parkWait then
    (s.setRound b { r with parkWait := false, spareFeeds := true }).setFlag Reg.CNV_STATUS_PARKED b 0 true
  else if r.unparkReq ∧ s.flag Reg.CNV_STATUS_PARKED b then
    (s.setRound b { r with
        unparkReq := false, unparking := true, sRef := k, blendN := 0, blendSum := 0, blendVoid := true
        cycL := s.fld Reg.CNV_ROUND_LEN_OVERLAP b, cycSpacing := s.fld Reg.CNV_ROUND_CTRL_SPACING b }).toStep b 7
  else if r.step = 1 ∧ r.measured then (s.setRound b { r with sRef := k }).toStep b 2
  else if r.step = 5 ∧ r.measured then (s.setRound b { r with sRef := k }).toStep b 6
  else if r.step = 0 ∧ s.dbg.target = 5 ∧ !bit s.dbg.measured b ∧ !(s.analogRun b).any (·.on) then
    { s with dbg := { s.dbg with measured := s.dbg.measured ||| 2 ^ b } }
  else if r.step = 0 ∧ (s.analogRun b).isSome then s.analogBegin b
  else if r.step = 0 ∧ s.flag Reg.CNV_ROUND_CTRL_EN b ∧ !s.flag Reg.CNV_STATUS_PARKED b ∧ r.nextAt ≤ k then
    match s.nextPos b with
    | none => s
    | some p =>
      (s.setRound b { r with
        pos := p, sRef := k, measured := false, met := [], ownPoint := none, spareFeeds := false
        cycL := s.fld Reg.CNV_ROUND_LEN_OVERLAP b, cycM := s.fld Reg.CNV_ROUND_LEN_MEAS b
        cycSpacing := s.fld Reg.CNV_ROUND_CTRL_SPACING b }).toStep b 1
  else s

/-- Abandon a cycle at grid index `k` (R249, R250): the own converter feeds from this sample and the fronts
are cleared. `gain` says that a gain change asks for it, which also ends the parked state. -/
def roundAbandon (s : State) (b : Nat) (k : Int) (gain : Bool) : State :=
  let r := s.round b
  let inCycle := decide (r.step ≠ 0)
  let parked := s.flag Reg.CNV_STATUS_PARKED b
  let fronts := fun (s : State) => s.setCnv b { s.cnvOf b with fronts := [], cleared := some k }
  if inCycle then
    let s := s.setRound b { r with spareFeeds := false, met := r.met ++ [6], blendN := 0, blendSum := 0 }
    fronts ((s.setFlag Reg.CNV_STATUS_PARKED b 0 false).endCycle b (k + 1))
  else if gain then
    let s := if parked then
        (s.setRound b { r with spareFeeds := false, unparkReq := false, nextAt := k + 1 }).setFlag Reg.CNV_STATUS_PARKED b 0 false
      else s
    fronts s
  else if parked ∨ r.parkWait then s
  else s.setRound b { r with nextAt := k }

/-! ### One base-rate sample of a bank -/

/-- A blend sample (R246). -/
def blendValue (l i : Nat) (out in_ : Int) : Int := rdiv (((l - 1 - i : Nat) : Int) * out + ((i + 1 : Nat) : Int) * in_) l

/-- The corrected values of the 17 fronts of a bank, whose histories end with the decision of the base sample that leaves
its hold (R196, R226). -/
def readFronts (s : State) (b : Nat) : State :=
  let c := s.cnvOf b
  let vals : SMap (Int × Bool) := (List.range 17).filterMap fun q =>
    let h := c.fronts.lookD q []
    let v := correct (s.coef b q) (frontReading h)
    let o := h.any fun d => d.ovl
    if v = 0 ∧ !o then none else some (q, (v, o))
  s.setCnv b { c with last := vals }

/-- The 96 decisions made during the hold enter the 17 fronts of a bank (R196, R226). -/
def pushFronts (s : State) (b : Nat) (dec : List (Nat × List Dec)) : State :=
  let c := s.cnvOf b
  let zeros := List.replicate 96 (default : Dec)
  let fronts : SMap (List Dec) := (List.range 17).filterMap fun q =>
    let ds := ((dec.find? fun e => e.1 = 17 * b + q).map (·.2)).getD zeros
    let h := frontPush (c.fronts.lookD q []) ds
    if h = [] then none else some (q, h)
  s.setCnv b { c with fronts := fronts }

/-- The corrected value and O of converter `q` at this instant. -/
def reading (s : State) (b q : Nat) : Int × Bool := (s.cnvOf b).last.lookD q (0, false)

/-- The 16 corrected samples of a bank, with O, X and C (R226, R240, R246); `sTags` gives the S bits. -/
def bankSamples (s : State) (b : Nat) (cTag : Bool) (sTags : Nat) : List Sample :=
  let r := s.round b
  (List.range 16).map fun p =>
    let own := s.reading b p
    let spare := s.reading b 16
    let mine := decide (r.pos = p)
    let blend := mine && decide (r.step = 4 ∨ r.step = 8) && decide (r.blendN < r.cycL)
    let done := mine && decide (r.step = 4 ∨ r.step = 8) && decide (r.cycL ≤ r.blendN)
    let src := if done then (if r.step = 4 then spare else own)
      else if mine && r.spareFeeds then spare else own
    let v := if blend then
        (if r.step = 4 then blendValue r.cycL r.blendN own.1 spare.1 else blendValue r.cycL r.blendN spare.1 own.1)
      else src.1
    let o := if blend then own.2 || spare.2 else src.2
    ⟨v, BitVec.ofNat 8 (0x40 * b2n (bit sTags p) + 8 * b2n o + 4 * b2n blend + 2 * b2n cTag)⟩

/-- One reading of the analog check (R602): the first 8 are discarded, then ROUND_LEN.MEAS of them give D. A reading with S or
O makes it void, as does one of a front that has been cleared meanwhile. The channel's own converter goes on feeding. -/
def analogTick (s : State) (b : Nat) (k : Int) (sTags : Nat) : State :=
  match s.analogRun b with
  | none => s
  | some r =>
    if !r.on then s
    else
      let p := r.chan % 16
      let j := s.fld Reg.AFE_CH_GAIN b p
      let h := (s.cnvOf b).fronts.lookD 16 []
      let spare := correct (setAt (s.bankTemp b) (s.table (17 * b + 16) j)) (frontReading h)
      let own := s.reading b p
      let n := r.taken + 1
      let sum := if r.taken < 8 then 0 else r.sum + (spare - own.1)
      let cleared := (s.cnvOf b).cleared.any fun c => decide (c ≤ k ∧ k < c + 5)
      let void := r.void || cleared || (decide (8 ≤ r.taken) && (bit sTags p || own.2 || h.any fun d => d.ovl))
      let m := s.fld Reg.CNV_ROUND_LEN_MEAS b
      let ended := decide (8 + m ≤ n)
      let bad := ended && !void &&
        decide (s.fld Reg.CNV_ROUND_TOL_TOL b * 0x80000000 < (rdiv sum (max 1 m)).natAbs * 1000000)
      { s with twn := { s.twn with selfRun := some { r with taken := n, sum := sum, void := void, ended := ended, fails := bad } } }

/-- The blend of this instant enters the handover check (R247): void with S, which a lack of network time sets on every
position, with O, or in an excitation change. -/
def blendTick (s : State) (b : Nat) (sTags : Nat) : State :=
  let r := s.round b
  if (r.step = 4 ∨ r.step = 8) ∧ r.blendN < r.cycL then
    let own := s.reading b r.pos
    let spare := s.reading b 16
    let void := bit sTags r.pos || s.provisional || own.2 || spare.2 || s.flag Reg.AFE_EXC_NOW_CHANGING b
    s.setRound b { r with
      blendN := r.blendN + 1, blendSum := r.blendSum + (spare.1 - own.1), blendVoid := r.blendVoid || void }
  else s

/-! ### Commits -/

/-- A commit of the round's settings (R242): where EN rises the first cycle starts after instant `k`; a cycle that is still in
progress says at its end when the next one starts (R245). -/
def cnvCommit (s : State) (old : SMap Word) (b : Nat) (k : Int) : State :=
  if Reg.CNV_ROUND_CTRL_EN.rd old b 0 = 0 ∧ s.flag Reg.CNV_ROUND_CTRL_EN b then
    s.setRound b { s.round b with nextAt := k + 1 }
  else s

/-- The commit checks of CAL (R234). -/
def calChecks (c : SMap Word) : List Nat :=
  let bad := (List.range 8).any fun j =>
    let sel := Reg.CAL_REF_MAP_SEL.rd c 0 0 / 8 ^ j % 8
    decide (1 ≤ sel ∧ sel ≤ 4) &&
      let uv := (Reg.CAL_REF_UV_UV.rdS c 0 (sel - 1)).natAbs * 2 ^ j
      decide (uv < 625000 ∨ 2375000 < uv)
  if bad then [0x10] else []

/-! ### The journal (R253 to R259) -/

/-- Number in `n` flash bytes, little-endian. -/
def flashLe (s : State) (a : Nat) : Nat → Nat
  | 0 => 0
  | n + 1 => (memRd Config.flashBlank s.flash a).toNat + 0x100 * flashLe s (a + 1) n

/-- A slot is valid but for its UID (R254). -/
def slotSound (s : State) (i : Nat) : Bool :=
  let a := slotBase i
  decide (s.flashLe a 4 = 0x4A4C4143 ∧ s.flashLe (a + 4) 2 = 1 ∧ s.flashLe (a + 0x14) 4 = 0x33040 ∧
    s.flashLe (a + 0x33040) 4 = (crc32c (memRds Config.flashBlank s.flash a 0x33040)).toNat)

/-- A slot is valid (R254). -/
def slotValid (s : State) (i : Nat) : Bool :=
  s.slotSound i && decide (s.flashLe (slotBase i + 0xC) 8 = Config.uid.toNat)

/-- The table that a slot holds for index `t` = 8 × converter + gain code. -/
def slotTable (s : State) (i t : Nat) : List CalPoint :=
  (List.range 8).filterMap fun j =>
    bytesPoint (memRds Config.flashBlank s.flash (slotBase i + 0x40 + 12 * (8 * t + j)) 12)

/-- Boot step 6: choose a slot and bring its tables into force (R255), at the temperatures last read. A slot that the flash
fails to give is invalid. -/
def readJournal (s : State) : State :=
  let v0 := s.slotValid 0 && !bit s.sys.slotFails 0
  let v1 := s.slotValid 1 && !bit s.sys.slotFails 1
  let g0 := s.flashLe (slotBase 0 + 8) 4
  let g1 := s.flashLe (slotBase 1 + 8) 4
  let pick : Option Nat :=
    if v0 && v1 then
      let d := (g1 + 0x100000000 - g0) % 0x100000000
      if 1 ≤ d ∧ d ≤ 0x7FFFFFFF then some 1 else some 0
    else if v0 then some 0 else if v1 then some 1 else none
  let s := [0, 1].foldl (fun s i =>
    if s.slotSound i && !s.slotValid i && !bit s.sys.slotFails i then s.raise .CAL 0 4 i (s.flashLe (slotBase i + 0x10) 4) else s) s
  let tables : SMap (List CalPoint) := match pick with
    | some i => (List.range (272 * 8)).filterMap fun t =>
        let l := s.slotTable i t
        if l = [] then none else some (t, l)
    | none => []
  let gen := match pick with
    | some 1 => g1
    | some _ => g0
    | none => 0
  let s := { s with cal := { s.cal with tables := tables } }
  let s := (s.setFld Reg.CAL_JOURNAL_STATUS_NEWEST 0 0 (pick.getD 0)).setFlag Reg.CAL_JOURNAL_STATUS_VALID0 0 0 v0
  let s := (s.setFlag Reg.CAL_JOURNAL_STATUS_VALID1 0 0 v1).setFld Reg.CAL_JOURNAL_GEN_GEN 0 0 gen
  let s := s.setFlag Reg.CAL_STATUS_NOCAL 0 0 pick.isNone
  let s := (List.range 16).foldl (fun s b => (s.bankStepAt b ((s.cnvOf b).temps.headD 0)).1) s
  s.raise .CAL 0 0 (pick.getD 0 + 2 * b2n v0 + 4 * b2n v1 + 8 * b2n pick.isNone) gen

/-- A request for a store (R256, R258). -/
def storeRequest (s : State) : State :=
  if s.cal.storeReq || s.cal.storing.isSome then { s with cal := { s.cal with storeHeld := true } }
  else { s with cal := { s.cal with storeReq := true } }

/-- The store at a base-rate instant: its snapshot, and semaphore 63 once no port holds it (R256, R161). -/
def storeInstant (s : State) : State :=
  let s := if s.cal.storeReq then
      let s := s.imagesRead fun _ => true
      let s := { s with cal := { s.cal with storeReq := false, storing := some s.cal.tables } }
      let s := { s with cal := { s.cal with semTold := false } }
      (s.setFlag Reg.CAL_STATUS_STORING 0 0 true).setFlag Reg.CAL_STATUS_SEM_WAIT 0 0 true
    else s
  if s.flag Reg.CAL_STATUS_SEM_WAIT ∧ s.semOwner 63 = 0 then
    (s.setFld Reg.SEM_LOCK_OWNER 0 63 3).setFlag Reg.CAL_STATUS_SEM_WAIT 0 0 false
  else s

/-- Set VALIDx of a slot. -/
def setSlotValid (s : State) (i : Nat) (v : Bool) : State :=
  if i = 0 then s.setFlag Reg.CAL_JOURNAL_STATUS_VALID0 0 0 v else s.setFlag Reg.CAL_JOURNAL_STATUS_VALID1 0 0 v

/-- The end of a store (R256 step 7, R257). -/
def storeEnd (s : State) (e : StoreEnd) : State :=
  match s.cal.storing with
  | none => s
  | some tables =>
    if s.flag Reg.CAL_STATUS_SEM_WAIT then s
    else
      let t := s.storeTarget
      let body := slotBody tables t.2
      let done := { s with cal := { s.cal with storing := none, storeHeld := false, storeReq := s.cal.storeHeld } }
      let done := (done.semFree 63).setFlag Reg.CAL_STATUS_STORING 0 0 false
      let fail := fun (err code : Nat) =>
        let bytes := s.freeBytes (body.length + 4)
        let d := { done with
          flash := memWrs Config.flashBlank done.flash (slotBase t.1) bytes
          free := done.free + bytes.length }
        ((d.setSlotValid t.1 false).setFld Reg.CAL_JOURNAL_STATUS_ERR 0 0 err).raise .CAL 0 2 code 0
      match e with
      | .ok =>
        let d := { done with flash := programSlot done.flash t.1 body }
        let d := ((d.setSlotValid t.1 true).setFld Reg.CAL_JOURNAL_STATUS_NEWEST 0 0 t.1).setFld Reg.CAL_JOURNAL_GEN_GEN 0 0 t.2
        let d := (d.setFld Reg.CAL_JOURNAL_STATUS_ERR 0 0 0).bump Reg.CAL_JOURNAL_STORES_STORES 0 0
        d.raise .CAL 0 1 t.1 t.2
      | .timeout => fail 1 1
      | .verify => fail 2 2
      | .spi => fail 3 3

/-! ### PT_WRITE and PT_READ (R262) -/

/-- The converter selected is being calibrated (R252). -/
def ptBusy (s : State) : Bool :=
  let c := s.fld Reg.CAL_PT_SEL_CONV
  let r := s.round (c / 17)
  !r.measured && ((decide (r.step = 1) && decide (c % 17 = 16)) || (decide (r.step = 5) && decide (c % 17 = r.pos)))

/-- PT_WRITE (R262). -/
def ptWrite (s : State) : State :=
  let c := s.fld Reg.CAL_PT_SEL_CONV
  let j := s.fld Reg.CAL_PT_SEL_GAIN
  let i := s.fld Reg.CAL_PT_SEL_POINT
  let p : CalPoint := ⟨s.fldS Reg.CAL_PT_DATA0_OFFSET, s.fld Reg.CAL_PT_DATA1_GAIN, s.fldS Reg.CAL_PT_DATA2_SQ,
    s.fldS Reg.CAL_PT_DATA2_TEMP⟩
  let told := fun (s : State) => s.raise .CAL 0 5 (c + 0x200 * j + 0x1000 * i) 0
  if s.ptBusy then s.err .CAL 0 0x11
  else if p.temp ≠ -0x8000 ∧ !pointOk p then s.err .CAL 0 0x12
  else
  let s := s.imagesRead fun x => decide (x = 8 * c + j)
  let l := s.table c j
  if p.temp = -0x8000 then told (s.setTable c j (if i < l.length then dropPoint l i else l))
  else told (s.setTable c j ((insPoint p (if i < l.length then dropPoint l i else l)).take 8))

/-- PT_READ (R262). -/
def ptRead (s : State) : State :=
  let c := s.fld Reg.CAL_PT_SEL_CONV
  let j := s.fld Reg.CAL_PT_SEL_GAIN
  let s := s.imagesRead fun x => decide (x = 8 * c + j)
  let l := s.table c j
  let p : CalPoint := ((l.drop (s.fld Reg.CAL_PT_SEL_POINT)).head?).getD ⟨0, 0, 0, -0x8000⟩
  let s := (s.setFldS Reg.CAL_PT_DATA0_OFFSET 0 0 p.offset).setFld Reg.CAL_PT_DATA1_GAIN 0 0 p.gain
  (s.setFldS Reg.CAL_PT_DATA2_SQ 0 0 p.sq).setFldS Reg.CAL_PT_DATA2_TEMP 0 0 p.temp

/-- The work of CTRL's WO bits on CAL (R262). -/
def calCtrl (s : State) (w : Word) : State :=
  let n := w.toNat
  let s := if bit n 8 then s.storeRequest else s
  let s := if bit n 9 then s.ptWrite else s
  if bit n 10 then s.ptRead else s

/-- The work of CTRL's WO bits on CNV[b] (R250). -/
def cnvCtrl (s : State) (b : Nat) (w : Word) : State :=
  if bit w.toNat 8 ∧ s.flag Reg.CNV_STATUS_PARKED b ∧ !(s.round b).unparking then s.setRound b { s.round b with unparkReq := true } else s

end State

/-- BANK_TEMPERATURE_READ: every sensor, in 0.125 °C (R235, R123). -/
def execBankTemperatureRead (ts : List Int) (s : State) : Host.Outcome State Fault Refusal :=
  if s.sys.inReset then .next s.finish
  else
    let s := (List.range 16).foldl (fun s b =>
      let t := ts.getD b 0
      let s := s.setCnv b { s.cnvOf b with temps := (t :: (s.cnvOf b).temps).take 1000 }
      s.setFldS Reg.CNV_TEMP_NOW b 0 t) s
    .next (s.setFldS Reg.SYS_DIE_TEMP_TJ 0 0 ((ts.take 16).foldl max (ts.headD 0))).finish

/-- The base samples that the measurement of a calibration takes (R230, R244): n × (8 + M). -/
def calSpan (s : State) (r : RoundState) (j : Nat) : Nat := (if (s.reference j).isSome then 4 else 3) * (8 + r.cycM)

/-- CALIBRATION_POINT: the points of step 1 or step 5 of a cycle are measured (R232, R233, R248), once the samples of
their measurement have passed (R244 Table 3). -/
def execCalibrationPoint (bank : Fin 16) (r : CalReadings) (s : State) : Host.Outcome State Fault Refusal :=
  let b := bank.val
  let rd := s.round b
  let j := s.fld Reg.AFE_CH_GAIN b rd.pos
  let span := calSpan s rd j
  if rd.measured then .next s.finish
  else if rd.step = 1 ∧ rd.sRef + span ≤ s.tim.k + 1 then
    let t := s.calibrate b 16 j r
    let s := t.1.setCnv b { t.1.cnvOf b with spareGain := j }
    let s := s.setRound b { s.round b with measured := true }
    .next (if t.2.1 = 0 then s
      else (s.setRound b { s.round b with met := [t.2.1] }).endCycle b (rd.sRef + (3 + rd.cycSpacing) * 256000)).finish
  else if rd.step = 5 ∧ rd.sRef + 8 + rd.cycL + span ≤ s.tim.k + 1 then
    let t := s.calibrate b rd.pos j r
    let s1 := t.1.setRound b { t.1.round b with
      measured := true
      ownPoint := if t.2.1 = 0 then some t.2.2 else none
      met := if t.2.1 = 0 then rd.met else rd.met ++ [t.2.1] }
    .next s1.finish
  else .next s.finish

/-- ROUND_BLEND_START: 8 samples after a step instant of the cycle, S + 8, the blend begins (R244, R246). -/
def execRoundBlendStart (bank : Fin 16) (s : State) : Host.Outcome State Fault Refusal :=
  .next (s.blendStart bank.val (s.tim.k + 1)).finish

/-- The handover check at the end of a blend fails (R247). -/
def checkFails (s : State) (b : Nat) (r : RoundState) : Bool :=
  !r.blendVoid && decide (s.fld Reg.CNV_ROUND_TOL_TOL b * 0x80000000 < (State.blendD r).natAbs * 1000000)

/-- ROUND_BLEND_END: the check of the blend, and what follows it (R244, R247, R248, R250). -/
def execRoundBlendEnd (bank : Fin 16) (s : State) : Host.Outcome State Fault Refusal :=
  let b := bank.val
  let r := s.round b
  if (r.step = 4 ∨ r.step = 8) ∧ r.cycL ≤ r.blendN then
    let d := State.blendD r
    let bad := checkFails s b r
    let s := s.setFldS Reg.CNV_ROUND_DIFF_D b 0 d
    let s := if r.blendVoid then s.bump Reg.CNV_ROUND_COUNT_VOID b 0 else s
    let hi := (w32s d).toNat
    if r.step = 4 then
      let s := if bad then s.convFault b 4 r.pos hi else s
      .next ((s.setRound b { s.round b with
        measured := false, spareFeeds := true, met := if bad then r.met ++ [4] else r.met }).toStep b 5).finish
    else
      let s := s.setRound b { s.round b with spareFeeds := false }
      if bad then
        let j := s.fld Reg.AFE_CH_GAIN b r.pos
        let s := match r.ownPoint with
          | some c => s.setTable (17 * b + r.pos) j ((s.table (17 * b + r.pos) j).erase c)
          | none => s
        let s := s.convFault b 5 r.pos hi
        let s := s.setRound b { s.round b with met := r.met ++ [5], parkWait := true }
        .next (s.endCycle b r.nextAt).finish
      else
        let s := if r.unparking then s.setFlag Reg.CNV_STATUS_PARKED b 0 false else s
        .next (s.endCycle b (r.sRef + (1 + r.cycSpacing) * 256000)).finish
  else .next s.finish

/-- JOURNAL_PERIOD_EXPIRY: a store starts every JOURNAL_PERIOD minutes (R256). -/
def execJournalPeriodExpiry (s : State) : Host.Outcome State Fault Refusal :=
  .next (if s.fld Reg.CAL_JOURNAL_PERIOD_MIN = 0 then s else s.storeRequest).finish

/-- JOURNAL_STORE_END (R256, R257). -/
def execJournalStoreEnd (e : StoreEnd) (s : State) : Host.Outcome State Fault Refusal := .next (s.storeEnd e).finish

/-- JOURNAL_SEM_WAIT: a store has waited 60 s for semaphore 63, which is told once (R257). -/
def execJournalSemWait (s : State) : Host.Outcome State Fault Refusal :=
  .next (if s.flag Reg.CAL_STATUS_SEM_WAIT && !s.cal.semTold then
      { s with cal := { s.cal with semTold := true } }.raise .CAL 0 2 4 0
    else s).finish

end Sys2Proof.Machine
end

