-- ==== Sys2Proof/Machine/Flt.lean ====
section
/-!
DEFINITION. The filter chain (R350 to R382, R719, R720): the plan of a group, its stages, slots and tags,
coefficient banks, swaps and cross-fades, sync resets, thresholds and the low-latency path. Values are
integers in 1/256 LSB.
-/
namespace Sys2Proof.Machine

/-! ### Sample words (R21 to R27, R352) -/

/-- A value in whole LSB, before the clip of R22. -/
def wholeLsb (v : Int) : Int := rdiv v 256

/-- The sample word of a value and its tags: rounded, clipped with O, and V set (R21 to R23, R371). -/
def sampleWord (v : Int) (tags : BitVec 8) : Word :=
  let x := wholeLsb v
  let y := clamp (-8388608) 8388607 x
  w32 (toField 24 y * 0x100 + (tags ||| 0x80#8 ||| (if x = y then 0#8 else 0x08#8)).toNat)

/-- VALUE of a sample word. -/
def wordValue (w : Word) : Int := sext 24 (w.toNat / 0x100)

/-- The tag byte of a sample word: V 7, S 6, T 5, W 4, O 3, X 2, C 1, P 0. -/
def wordTags (w : Word) : Nat := w.toNat % 0x100

/-! ### The plan (R351, R354) -/

/-- What a decimation D derives (R351). -/
structure Plan where
  d : Nat
  hb : Nat
  k : Nat
  m : Nat
deriving DecidableEq, Repr

/-- D divides 256,000. -/
def rateOk (d : Nat) : Bool := decide (d ≠ 0 ∧ 256000 % d = 0)

/-- The plan of D (R351). -/
def planOf (d : Nat) : Plan :=
  let hb := if d % 4 = 0 then 2 else if d % 2 = 0 then 1 else 0
  let r := d / 2 ^ hb
  let m := ([8, 5, 4, 2, 1].find? fun x => decide (r % x = 0)).getD 1
  ⟨d, hb, r / m, m⟩

/-- Group delay τ in 1/256 base samples, for a declared G_F in 1/256 FIR input samples (R354). -/
def Plan.tau (p : Plan) (gf : Nat) : Nat :=
  (if 1 ≤ p.hb then 9 * 256 else 0) + (if p.hb = 2 then 38 * 256 else 0) + 2 ^ p.hb * 5 * (p.k - 1) * 128
    + 2 ^ p.hb * p.k * gf

/-- Δ = floor(τ + 1/2), in base samples. -/
def Plan.delta (p : Plan) (gf : Nat) : Nat := (p.tau gf + 128) / 256

/-- History length H in base samples for N taps. -/
def Plan.hist (p : Plan) (n : Nat) : Nat :=
  1 + (if 1 ≤ p.hb then 18 else 0) + (if p.hb = 2 then 76 else 0) + 2 ^ p.hb * (5 * p.k - 5)
    + 2 ^ p.hb * p.k * (n - 1)

/-! ### Half-band coefficients (R720) -/

/-- round(2³⁰ × h[m]) of the half-band stage of order `p`. -/
def hbTap (p : Nat) (m : Int) : Int :=
  if m = 0 then 2 ^ 29
  else if m % 2 = 0 then 0
  else
    let ss : List Int := ((List.range (2 * p)).map fun (i : Nat) => 2 * (i : Int) - (2 * (p : Int) - 1)).filter
      fun s => decide (s ≠ m)
    rdivZ (2 ^ 29 * (ss.map fun s => -s).prod) ((ss.map fun s => m - s).prod)

/-- The 4p − 1 taps of a half-band stage, newest input first. -/
def hbTaps (p : Nat) : List Int :=
  (List.range (4 * p - 1)).map fun (i : Nat) => hbTap p ((i : Int) - (2 * (p : Int) - 1))

/-- The words of HB_COEF: HB1's centre tap and its taps at 1, 3, …, then HB2's. -/
def hbWords : List Word :=
  [5, 10].flatMap fun p => w32s (hbTap p 0) :: (List.range p).map fun (i : Nat) => w32s (hbTap p (2 * (i : Int) + 1))

/-! ### Stages (R352, R371, R373) -/

/-- A value on its way through the chain, with its tags and whether a stage has saturated on it. -/
structure Val where
  v : Int
  tags : BitVec 8
  sat : Bool
deriving DecidableEq, Repr

/-- The history of a stage by age, 0 the newest. -/
abbrev Line := Nat → Val

/-- Round and saturate a stage's result `num ÷ den` (R352); a result that saturates carries O (R373). -/
def stageOut (num den : Int) (tags : BitVec 8) (sat : Bool) : Val :=
  let x := rdiv num den
  let y := clamp (-2147483647) 2147483647 x
  if x = y then ⟨x, tags, sat⟩ else ⟨y, tags ||| 0x08#8, true⟩

/-- One output of an FIR stage, its history beginning at age `a` and read every `step` inputs. -/
def stageSum (taps : List Int) (step : Nat) (den : Int) (u : Line) (a : Nat) : Val :=
  let xs := (List.range taps.length).map fun i => u (a + step * i)
  stageOut ((taps.zip xs).map fun e => e.1 * e.2.v).sum den
    (xs.foldl (fun t x => t ||| x.tags) 0) (xs.any fun x => x.sat)

/-- The weights of the pre-sum: a fifth-order sinc of K inputs. -/
def preTaps (k : Nat) : List Int :=
  (boxcar k (boxcar k (boxcar k (boxcar k (List.replicate k 1))))).map fun (n : Nat) => (n : Int)

/-- A line from the values of its ages; beyond them it is 0 with W (R369). -/
def lineOf (h : Array Val) : Line := fun a => h.getD a ⟨0, 0x10#8, false⟩

/-- The outputs of a stage for the ages of its input line; beyond them they are 0 with W as the inputs are. -/
def stageLine (taps : List Int) (step : Nat) (h : Array Val) : Array Val :=
  ((List.range h.size).map fun a => stageSum taps step (2 ^ 30) (lineOf h) a).toArray

/-- The FIR's output for the newest base sample of `h`, newest first (R350, R353). -/
def firOut (p : Plan) (taps : List Int) (h : Array Val) : Val :=
  let u1 := if 1 ≤ p.hb then stageLine (hbTaps 5) 1 h else h
  let u2 := if p.hb = 2 then stageLine (hbTaps 10) 2 u1 else u1
  let w := preTaps p.k
  let u3 : Line := if p.k = 1 then lineOf u2 else fun a => stageSum w (2 ^ p.hb) ((p.k : Int) ^ 5) (lineOf u2) a
  stageSum taps (2 ^ p.hb * p.k) (2 ^ 30) u3 0

/-- One biquad section (R352): its output and its state after. -/
def bqStep (c : List Int) (st : BqState) (x : Val) : Val × BqState :=
  let y := stageOut (c.getD 0 0 * x.v + c.getD 1 0 * st.x1 + c.getD 2 0 * st.x2 - c.getD 3 0 * st.w1
    - c.getD 4 0 * st.w2) (2 ^ 28) x.tags x.sat
  (y, ⟨x.v, st.x1, y.v, st.w1⟩)

/-! ### The coefficient RAM (R357) -/

/-- Base of bank `x` of group `g` in the coefficient RAM. -/
def bankBase (g x : Nat) : Nat := 0x100000 + 0x10000 * g + 0x4000 * x

/-- Whether an offset of the coefficient RAM of a group holds a word of Table 3. -/
def ramOffset (o : Nat) : Bool := decide (o < 0xC000 ∧ o % 0x4000 < 0x828)

namespace State

/-- What FLT keeps of a group. -/
def fltOf (s : State) (g : Nat) : FltState := s.flt.lookD g default

/-- Replace what FLT keeps of a group. -/
def setFlt (s : State) (g : Nat) (v : FltState) : State := { s with flt := s.flt.put g v }

/-- The group runs: CHAIN.EN = 1 in force (R358). -/
def fltRuns (s : State) (g : Nat) : Bool := s.flag Reg.FLT_STATUS_RUN g

/-- The plan in force. -/
def plan (s : State) (g : Nat) : Plan := planOf (s.fld Reg.FLT_CHAIN_D g)

/-- Δ in force (R354). -/
def fltDelta (s : State) (g : Nat) : Nat := s.fld Reg.FLT_DELTA g

/-- H in force (R354). -/
def fltHist (s : State) (g : Nat) : Nat := s.fld Reg.FLT_HIST_H g

/-- Taps 0 to N − 1 of a bank. -/
def taps (s : State) (g x : Nat) : List Int :=
  (List.range (s.fld Reg.FLT_BANK_SHAPE_N g x)).map fun i => (regRd s.regs (bankBase g x + 4 * i)).toInt

/-- The coefficients b0, b1, b2, a1, a2 of a section of a bank. -/
def bqCoefs (s : State) (g x sec : Nat) : List Int :=
  (List.range 5).map fun i => (regRd s.regs (bankBase g x + 0x800 + 20 * sec + 4 * i)).toInt

/-- The banks of the fade in progress. -/
def fadeBanks (s : State) (g : Nat) : List Nat :=
  match (s.fltOf g).fade with
  | some f => [f.src, f.dst]
  | none => []

/-- A bank is busy (R358). -/
def bankBusy (s : State) (g x : Nat) : Bool :=
  s.fltRuns g && (decide (x = s.fld Reg.FLT_STATUS_IN_FORCE g) || (s.fadeBanks g).contains x
    || (s.flag Reg.FLT_STATUS_QUEUED g && decide (x = s.fld Reg.FLT_STATUS_QUEUE_BANK g)))

/-- A write of a coefficient RAM word: ignored with BANK_BUSY in a busy bank (R358). -/
def coefWrite (s : State) (a : Nat) (w : Word) : State :=
  let g := (a - 0x100000) / 0x10000
  let x := (a - 0x100000) % 0x10000 / 0x4000
  if s.bankBusy g x then s.err .FLT g 0x14 else { s with regs := regWr s.regs a w }

/-- A write of BANK_SHAPEx (R358, R380, R381). -/
def shapeWrite (s : State) (g x : Nat) (w : Word) : State :=
  let n := Reg.FLT_BANK_SHAPE_N.ofWord w
  let gf := Reg.FLT_BANK_SHAPE_GF.ofWord w
  if 512 < n then s.err .FLT g 0x07
  else if 256 * (n - 1) < gf then s.err .FLT g 0x12
  else if s.bankBusy g x then s.err .FLT g 0x14
  else (s.setFld Reg.FLT_BANK_SHAPE_N g x n).setFld Reg.FLT_BANK_SHAPE_GF g x gf

/-- LOAD_DEFAULT (R359): the default FIR for the D of the CHAIN shadow. -/
def loadDefault (s : State) (g x : Nat) : State :=
  let d := Reg.FLT_CHAIN_D.rd s.shadow g 0
  if s.bankBusy g x then s.err .FLT g 0x14
  else if !rateOk d then s.err .FLT g 0x10
  else
    let n := 64 * (planOf d).m - 1
    let regs := (List.range n).foldl (fun m i =>
      regWr m (bankBase g x + 4 * i) (Config.firTap d (min i (n - 1 - i)))) s.regs
    let regs := (List.range 10).foldl (fun m i =>
      regWr m (bankBase g x + 0x800 + 4 * i) (if i % 5 = 0 then 0x10000000 else 0)) regs
    (({ s with regs := regs }).setFld Reg.FLT_BANK_SHAPE_N g x n).setFld Reg.FLT_BANK_SHAPE_GF g x
      (256 * (32 * (planOf d).m - 1))

/-! ### Swap requests (R362 to R366, R719) -/

/-- EV_FLT_XFADE (R382). -/
def xfadeEvent (s : State) (g code from_ to_ : Nat) (bead : Bool) (ns : Nat) : State :=
  s.raise .FLT g 1 (code + 16 * from_ + 64 * to_ + 256 * b2n bead) (w32 ns).toNat

/-- BANK_SEL in force and its shadow name a bank (R719). -/
def selBank (s : State) (g x : Nat) : State := s.setBoth Reg.FLT_BANK_SEL_BANK g 0 x

/-- How Table 4 of R364 answers a request for bank `x` made at grid index `k`: the result code of R382
and the cause of a refusal. -/
def judgeSwap (s : State) (g x : Nat) : Nat × Option Nat :=
  let base := s.fld Reg.FLT_STATUS_IN_FORCE g
  let same := decide (s.fld Reg.FLT_BANK_SHAPE_N g x = s.fld Reg.FLT_BANK_SHAPE_N g base
    ∧ s.fld Reg.FLT_BANK_SHAPE_GF g x = s.fld Reg.FLT_BANK_SHAPE_GF g base)
  if !s.fltRuns g then (10, some 0x18)
  else if s.fld Reg.FLT_BANK_SHAPE_N g x = 0 then (6, some 0x11)
  else if !same then (6, some 0x12)
  else match (s.fltOf g).fade with
    | none => if x = base then (7, none) else (1, none)
    | some f =>
      if x = f.src ∨ x = f.dst then (4, some 0x14)
      else if s.flag Reg.FLT_STATUS_QUEUED g then (5, some 0x15)
      else (3, none)

/-- A fade from `src` to `dst` that starts at slot `j` (R362). -/
def startFade (s : State) (g src dst : Nat) (j : Int) : State :=
  let s := s.setFlt g { s.fltOf g with fade := some ⟨src, dst, j, 0⟩ }
  (s.setFlag Reg.FLT_STATUS_FADING g 0 true).setFld Reg.FLT_STATUS_FADE_TO g 0 dst

/-- A swap request at grid index `k` (R364, R719). Answers the cause of a refusal. -/
def swapReq (s : State) (g x : Nat) (k : Int) (bead : Bool) : State × Option Nat :=
  let r := s.judgeSwap g x
  let base := s.fld Reg.FLT_STATUS_IN_FORCE g
  let d : Int := s.fld Reg.FLT_CHAIN_D g
  let j := cdivI k d
  match r.2 with
  | some cause =>
    let s := (s.err .FLT g cause).bump Reg.FLT_COUNTS_REFUSED g 0
    (s.xfadeEvent g r.1 base x bead (s.gridNs k), some cause)
  | none =>
    let s := if r.1 = 7 then s else s.selBank g x
    if r.1 = 1 then ((s.startFade g base x j).xfadeEvent g 1 base x bead (s.gridNs (j * d)), none)
    else if r.1 = 3 then
      let s := (s.setFlag Reg.FLT_STATUS_QUEUED g 0 true).setFld Reg.FLT_STATUS_QUEUE_BANK g 0 x
      (s.xfadeEvent g 3 base x bead (s.gridNs k), none)
    else (s.xfadeEvent g r.1 base x bead (s.gridNs k), none)

/-- XF_CANCEL (R365, R719). -/
def xfCancelNow (s : State) (g : Nat) : State :=
  if !s.flag Reg.FLT_STATUS_QUEUED g then s
  else
    let u := s.fld Reg.FLT_STATUS_QUEUE_BANK g
    let t := (s.fadeBanks g).getD 1 (s.fld Reg.FLT_STATUS_IN_FORCE g)
    let s := (s.setFlag Reg.FLT_STATUS_QUEUED g 0 false).setFld Reg.FLT_STATUS_QUEUE_BANK g 0 0
    (s.selBank g t).xfadeEvent g 9 t u false s.nowNs

/-- The fade is done with: no fade, no queue, `x` in force alone. -/
def noFade (s : State) (g x : Nat) : State :=
  let s := s.setFlt g { s.fltOf g with fade := none }
  let s := (s.setFlag Reg.FLT_STATUS_FADING g 0 false).setFld Reg.FLT_STATUS_FADE_TO g 0 0
  let s := (s.setFlag Reg.FLT_STATUS_QUEUED g 0 false).setFld Reg.FLT_STATUS_QUEUE_BANK g 0 0
  s.setFld Reg.FLT_STATUS_IN_FORCE g 0 x

/-- The slot of the word that the group computes at grid index `k`, or computed last before it (R353). -/
def slotAt (s : State) (g : Nat) (k : Int) : Int :=
  (k - (s.fltDelta g : Int)) / (s.fld Reg.FLT_CHAIN_D g : Int)

/-- The end of a fade, once the word of its last slot has been computed (R362, R365). -/
def fadeEnd (s : State) (g : Nat) : State :=
  match (s.fltOf g).fade with
  | none => s
  | some f =>
    let j := s.slotAt g s.chainK
    if f.len = 0 ∨ j < f.start + (f.len : Int) - 1 then s
    else
      let d : Int := s.fld Reg.FLT_CHAIN_D g
      let queued := s.flag Reg.FLT_STATUS_QUEUED g
      let u := s.fld Reg.FLT_STATUS_QUEUE_BANK g
      let s := (s.noFade g f.dst).bump Reg.FLT_COUNTS_FADES g 0
      let s := s.xfadeEvent g 2 f.src f.dst false (s.gridNs (f.start * d))
      if queued then
        let j1 := max (f.start + (f.len : Int)) (j + 1)
        (s.startFade g f.dst u j1).xfadeEvent g 1 f.dst u false (s.gridNs (j1 * d))
      else s

/-! ### Sync resets (R366 to R370) -/

/-- Slots by which the biquads lengthen the span of a tag (R370, R371). -/
def bqTail (s : State) (g : Nat) : Int :=
  if s.flag Reg.FLT_CHAIN_BQ_EN g then (s.fld Reg.FLT_BQ_TAIL_LEN g : Int) - 1 else 0

/-- A sync reset of a group at grid index `k` (R366 to R370, R382), with the fronts cleared or not. A second
source at the same instant adds nothing but the clearing of the fronts. -/
def syncReset (s : State) (g : Nat) (k : Int) (source : Nat) (fronts : Bool) : State :=
  let f := s.fltOf g
  if !s.fltRuns g then s
  else
    let h : Int := s.fltHist g
    let d : Int := s.fld Reg.FLT_CHAIN_D g
    let again := f.resetAt = some k
    let before := if again then f.warm.find? (fun e => decide (e.2.2.2 = s.gridNs k)) else none
    let fronts := fronts || before.any fun e => e.2.2.1
    let source := (before.map fun e => e.2.1).getD source
    let last := (k + h + (if fronts then 3 else -2) - (s.fltDelta g : Int)) / d
    let first := cdivI (k - (s.fltDelta g : Int)) d
    let fresh : List (Int × Nat × Bool × Nat) :=
      if first ≤ last + s.bqTail g then [(last, source, fronts, s.gridNs k)] else []
    let s := s.setFlag Reg.FLT_STATUS_WARM g 0 (decide (fresh ≠ []) || s.flag Reg.FLT_STATUS_WARM g)
    if again then
      s.setFlt g { f with warm := f.warm.filter (fun e => decide (e.2.2.2 ≠ s.gridNs k)) ++ fresh, hist := [], bq := [], bqTags := [] }
    else
      let s := s.setFlt g { f with
        hist := [], bq := [], bqTags := [], resetAt := some k, warm := f.warm ++ fresh }
      let s := s.bump Reg.FLT_SYNCS g 0
      let s := s.raise .FLT g 2 (source + 16 * b2n fronts) (w32 (s.gridNs k)).toNat
      match f.fade with
      | none => s
      | some fd =>
        let t := if s.flag Reg.FLT_STATUS_QUEUED g then s.fld Reg.FLT_STATUS_QUEUE_BANK g else fd.dst
        ((s.noFade g t).selBank g t).xfadeEvent g 8 fd.src t false (s.gridNs k)

/-! ### Commits (R360, R377, R719) -/

/-- BQ_DELAY of the bank in force (R356). The spec states none for a delay beyond its 32 bits: a free value (log 147). -/
def bqDelay (s : State) (g : Nat) : State :=
  if !s.flag Reg.FLT_CHAIN_BQ_EN g then s
  else
    let x := s.fld Reg.FLT_STATUS_IN_FORCE g
    let parts := [0, 1].map fun sec =>
      let c := s.bqCoefs g x sec
      let nb := c.getD 0 0 + c.getD 1 0 + c.getD 2 0
      let na := 2 ^ 28 + c.getD 3 0 + c.getD 4 0
      ((c.getD 1 0 + 2 * c.getD 2 0) * na - (c.getD 3 0 + 2 * c.getD 4 0) * nb, nb * na)
    let p := parts.getD 0 (0, 1)
    let q := parts.getD 1 (0, 1)
    if p.2 = 0 ∨ q.2 = 0 then s.setFld Reg.FLT_BQ_DELAY_D g 0 0x7FFFFFFF
    else
      let y := rdivZ (256 * (p.1 * q.2 + q.1 * p.2)) (p.2 * q.2)
      if -0x80000000 ≤ y ∧ y ≤ 0x7FFFFFFF then s.setFld Reg.FLT_BQ_DELAY_D g 0 (w32s y).toNat
      else s.drawn.setFld Reg.FLT_BQ_DELAY_D g 0 (Config.freeWord s.free).toNat

/-- PLAN of the D in force (R351). -/
def showPlan (s : State) (g : Nat) : State :=
  let p := s.plan g
  ((s.setFld Reg.FLT_PLAN_HB g 0 p.hb).setFld Reg.FLT_PLAN_K g 0 p.k).setFld Reg.FLT_PLAN_M g 0 p.m

/-- The reconfiguration of R360: the bank of BANK_SEL in force with no fade, the plan, and a sync reset. -/
def fltReconfigure (s : State) (g : Nat) (k : Int) : State :=
  let x := s.fld Reg.FLT_BANK_SEL_BANK g
  let p := s.plan g
  let gf := s.fld Reg.FLT_BANK_SHAPE_GF g x
  let s := (s.noFade g x).setFlag Reg.FLT_STATUS_RUN g 0 true
  let s := s.setFlt g { s.fltOf g with warm := (s.fltOf g).warm.filter (fun e => decide (e.2.2.2 = s.gridNs k)), lastT := none }
  let s := s.showPlan g
  let s := (s.setFld Reg.FLT_DELAY_TAU g 0 (p.tau gf)).setFld Reg.FLT_DELTA g 0 (p.delta gf)
  let s := s.setFld Reg.FLT_HIST_H g 0 (p.hist (s.fld Reg.FLT_BANK_SHAPE_N g x))
  s.syncReset g k 3 false

/-- The group stops (R360): its output ends and its histories are zero. -/
def fltStop (s : State) (g : Nat) : State :=
  let s := (s.noFade g 0).setFlag Reg.FLT_STATUS_RUN g 0 false
  let s := (s.setFlag Reg.FLT_STATUS_WARM g 0 false).setFlag Reg.FLT_STATUS_SETTLING g 0 false
  s.setFlt g { s.fltOf g with hist := [], bq := [], bqTags := [], warm := [], lastT := none, resetAt := none }

/-- The fields of level `l` of position `p`: LEVEL, EN, BELOW, HYST, MIN. -/
def thrFields (l : Nat) : List Field :=
  if l = 0 then [Reg.FLT_THR_LEVEL1, Reg.FLT_THR_EN1, Reg.FLT_THR_BELOW1, Reg.FLT_THR_HYST1, Reg.FLT_THR_MIN1]
  else [Reg.FLT_THR_LEVEL2, Reg.FLT_THR_EN2, Reg.FLT_THR_BELOW2, Reg.FLT_THR_HYST2, Reg.FLT_THR_MIN2]

/-- A level becomes inactive with its run cleared (R377). -/
def thrClear (s : State) (g p l : Nat) : State :=
  let a := s.fld Reg.FLT_THR_STATE_ACTIVE g
  let s := s.setFlt g { s.fltOf g with
    runs := (s.fltOf g).runs.del (2 * p + l)
    levels := if bit a (2 * p + l) then (s.chainK, a - 2 ^ (2 * p + l)) :: (s.fltOf g).levels else (s.fltOf g).levels }
  if bit a (2 * p + l) then s.setFld Reg.FLT_THR_STATE_ACTIVE g 0 (a - 2 ^ (2 * p + l)) else s

/-- What a commit of FLT[g] does at grid index `k` besides the registers. -/
def fltCommit (s : State) (old : SMap Word) (g : Nat) (k : Int) : State :=
  let s := (List.range 32).foldl (fun s i =>
    let fs := thrFields (i % 2)
    if fs.all fun f => decide (f.rd old g (i / 2) = s.fld f g (i / 2)) then s else s.thrClear g (i / 2) (i % 2)) s
  let was := s.fltRuns g
  let on := s.flag Reg.FLT_CHAIN_EN g
  let changed := decide (Reg.FLT_CHAIN_D.rd old g 0 ≠ s.fld Reg.FLT_CHAIN_D g
    ∨ Reg.FLT_CHAIN_BQ_EN.rd old g 0 ≠ s.fld Reg.FLT_CHAIN_BQ_EN g)
  let sel := Reg.FLT_BANK_SEL_BANK.rd old g 0
  let x := s.fld Reg.FLT_BANK_SEL_BANK g
  if !on then (if was then s.fltStop g else s).showPlan g
  else if !was || changed then (s.fltReconfigure g k).bqDelay g
  else if sel ≠ x then
    (((s.setFld Reg.FLT_BANK_SEL_BANK g 0 sel).swapReq g x k false).1).bqDelay g
  else s.bqDelay g

/-! ### Thresholds (R374 to R376) -/

/-- A change of a threshold level: position, level, entered, and grid index of its instant. -/
structure ThrChange where
  p : Nat
  l : Nat
  entered : Bool
  k0 : Int
deriving DecidableEq, Repr

/-- The word of position `p`, at grid index `k`, is tested against level `l`. -/
def thrTest (s : State) (g p l : Nat) (w : Word) (k : Int) : State × Option ThrChange :=
  let f := s.fltOf g
  let key := 2 * p + l
  let lv := (thrFields l).map fun x => s.fld x g p
  let act := bit (s.fld Reg.FLT_THR_STATE_ACTIVE g) key
  if lv.getD 1 0 = 0 then (s, none)
  else if wordTags w &&& 0x11 ≠ 0 then (if (f.runs.look key).isSome then s.setFlt g { f with runs := f.runs.del key } else s, none)
  else
    let v := wordValue w
    let level := sext 24 (lv.getD 0 0)
    let hyst : Int := lv.getD 3 0
    let below := decide (lv.getD 2 0 ≠ 0)
    let hit := match below, act with
      | false, false => decide (level ≤ v)
      | false, true => decide (v < level - hyst)
      | true, false => decide (v ≤ level)
      | true, true => decide (level + hyst < v)
    if !hit then (if (f.runs.look key).isSome then s.setFlt g { f with runs := f.runs.del key } else s, none)
    else
      let r : ThrRun := match f.runs.look key with
        | some r => { r with n := r.n + 1 }
        | none => ⟨1, k⟩
      if r.n < lv.getD 4 1 then (s.setFlt g { f with runs := f.runs.put key r }, none)
      else
        let s := s.setFlt g { f with runs := f.runs.del key }
        let a := s.fld Reg.FLT_THR_STATE_ACTIVE g
        let s := s.setFld Reg.FLT_THR_STATE_ACTIVE g 0 (if act then a - 2 ^ key else a + 2 ^ key)
        let s := if act then s else s.orFld Reg.FLT_THR_STICKY_ENTERED g 0 (2 ^ key)
        let s := s.raise .FLT g 0 (p + 16 * l + 32 * b2n (!act)) (w32 (s.gridNs r.k0)).toNat
        (s, some ⟨p, l, !act, r.k0⟩)

/-! ### The word of a slot -/

/-- What a group emits at a base-rate instant: the slot, its grid index jD, the 16 words and the threshold
changes they complete. -/
structure Emitted where
  g : Nat
  j : Int
  kj : Int
  words : List Word
  changes : List ThrChange
deriving DecidableEq, Repr

/-- The base samples of position `p`, newest first. -/
def baseLine (h : List (List Sample)) (p : Nat) : Array Val :=
  (h.map fun xs => match xs.drop p with
    | y :: _ => (⟨y.v, y.tags, false⟩ : Val)
    | [] => ⟨0, 0x10#8, false⟩).toArray

/-- One position through the two sections of a bank: its output and the states after. -/
def bqPair (s : State) (g x p : Nat) (bq : SMap BqState) (u : Val) : Val × SMap BqState :=
  let k0 := 32 * x + 2 * p
  let a := bqStep (s.bqCoefs g x 0) (bq.lookD k0 default) u
  let b := bqStep (s.bqCoefs g x 1) (bq.lookD (k0 + 1) default) a.1
  (b.1, (bq.put k0 a.2).put (k0 + 1) b.2)

/-- The biquad states of bank `t` copied from those of bank `f` (R362). -/
def bqCopy (bq : SMap BqState) (f t : Nat) : SMap BqState :=
  (List.range 32).foldl (fun m i => m.put (32 * t + i) (bq.lookD (32 * f + i) default)) bq

/-- The banks that compute slot `j`: one alone, or two with the slot's number in the fade and its length. -/
def banksAt (s : State) (g : Nat) (j : Int) : Nat × Option (Nat × Nat × Nat) :=
  let base := s.fld Reg.FLT_STATUS_IN_FORCE g
  match (s.fltOf g).fade with
  | none => (base, none)
  | some f =>
    if j < f.start ∨ f.len = 0 then (base, none)
    else if f.start + (f.len : Int) ≤ j then (f.dst, none)
    else (f.src, some (f.dst, (j - f.start).toNat, f.len))

/-- What the stages give from a read that fails its parity: P, with a value and other tags that may be wrong in any bit
(R28, R373), which are the free values `n` and `n + 1`. -/
def parityVal (n : Nat) : Val :=
  ⟨(Config.freeWord n).toInt, BitVec.ofNat 8 (Config.freeWord (n + 1)).toNat ||| 1#8, false⟩

/-- The tags of position `p` at the biquads' output (R371): those of the last BQ_TAIL inputs, W before the last sync
reset (R369). -/
def bqTagged (len : Nat) (tags : List (List (BitVec 8))) (p : Nat) : BitVec 8 :=
  (List.range len).foldl (fun t a => t ||| (match tags[a]? with
    | some l => l.getD p 0
    | none => 0x10#8)) 0

/-- The word of slot `j` (R353, R362, R371), from the history whose newest sample is base sample jD + Δ. A read
that `par` names fails its parity (R373). -/
def slotWord (s : State) (g : Nat) (j : Int) (par : List ParityFault) : State × List Word :=
  let f := s.fltOf g
  let pl := s.plan g
  let bqOn := s.flag Reg.FLT_CHAIN_BQ_EN g
  let b := s.banksAt g j
  let start := match b.2 with
    | some (t, i, _) => if i = 0 then bqCopy f.bq b.1 t else f.bq
    | none => f.bq
  let ps := List.range 16
  let bad := par.foldl (fun m e => m ||| e.positions.toNat) 0
  let chain := fun (x i : Nat) => ps.map fun p =>
    if bit bad p then parityVal (s.free + 64 * i + 2 * p) else firOut pl (s.taps g x) (baseLine f.hist p)
  let yf := chain b.1 0
  let yt := match b.2 with
    | some (t, _, _) => chain t 1
    | none => yf
  let run := fun (x : Nat) (ys : List Val) (bq : SMap BqState) =>
    (ps.zip ys).foldl (fun (acc : List Val × SMap BqState) e =>
      let r := s.bqPair g x e.1 acc.2 e.2
      (acc.1 ++ [r.1], r.2)) ([], bq)
  let zf := if bqOn then run b.1 yf start else (yf, start)
  let zt := match b.2 with
    | some (t, _, _) => if bqOn then run t yt zf.2 else (yt, zf.2)
    | none => zf
  let outs : List Val := match b.2 with
    | some (_, i, l) => (zf.1.zip zt.1).map fun e =>
        ⟨blendValue l i e.1.v e.2.v, e.1.tags ||| e.2.tags, e.1.sat || e.2.sat⟩
    | none => zf.1
  let tags := if bqOn then ((outs.map fun o => o.tags) :: f.bqTags).take 65535 else []
  let marked := (ps.zip outs).map fun e =>
    if bqOn then { e.2 with tags := bqTagged (s.fld Reg.FLT_BQ_TAIL_LEN g) tags e.1 } else e.2
  let sat := outs.any fun o => o.sat
  let s := if par = [] then s else { s with free := s.free + 128 }
  let s := s.setFlt g { f with bq := zt.2, bqTags := tags, satTold := sat }
  let s := if sat && !f.satTold then
      s.raise .FLT g 3 (3 + 4 * b.1) (w32 (s.gridNs (j * (pl.d : Int)))).toNat
    else s
  let s := par.foldl (fun s e =>
    (s.err .FLT g 0x17).raise .FLT g 3 ((if e.history then 2 else 1) + 4 * e.bank.val + 16 * e.tap.toNat)
      (w32 (s.gridNs (j * (pl.d : Int)))).toNat) s
  (s, marked.map fun o => sampleWord o.v o.tags)

/-- One base-rate instant of a group (R353, R369 to R376): base sample `k` enters, and the word of the slot
that it closes leaves. -/
def fltInstant (s : State) (g : Nat) (k : Int) (xs : List Sample) (par : List ParityFault) : State × Option Emitted :=
  if !s.fltRuns g then (s, none)
  else
    let f := s.fltOf g
    let d : Int := s.fld Reg.FLT_CHAIN_D g
    let h := s.fltHist g
    let lastT := if xs.any fun x => x.tags &&& 0x20#8 ≠ 0 then some k else f.lastT
    let fade := f.fade.map fun fd =>
      if fd.len = 0 ∧ fd.start * d ≤ k then { fd with len := s.fld Reg.FLT_XFADE_LEN_LEN g } else fd
    let s := s.setFlt g { f with hist := (xs :: f.hist).take h, lastT := lastT, fade := fade }
    let s := s.setFlag Reg.FLT_STATUS_SETTLING g 0 (match lastT with
      | some t => decide (k - t < (h : Int))
      | none => false)
    let e := k - (s.fltDelta g : Int)
    if e % d ≠ 0 then (s, none)
    else
      let j := e / d
      let r := s.slotWord g j par
      let t := (List.range 32).foldl (fun (acc : State × List ThrChange) i =>
        let x := acc.1.thrTest g (i / 2) (i % 2) (r.2.getD (i / 2) 0) e
        (x.1, acc.2 ++ x.2.toList)) (r.1, [])
      let s := t.1
      let s := if t.2 = [] then s else
        s.setFlt g { s.fltOf g with levels := (e, s.fld Reg.FLT_THR_STATE_ACTIVE g) :: (s.fltOf g).levels }
      let ended := (s.fltOf g).warm.filter fun x => decide (x.1 + s.bqTail g ≤ j)
      let left := (s.fltOf g).warm.filter fun x => decide (j < x.1 + s.bqTail g)
      let s := if ended = [] then s else
        let s := s.setFlt g { s.fltOf g with warm := left }
        let s := s.setFlag Reg.FLT_STATUS_WARM g 0 (decide (left ≠ []))
        ended.foldl (fun s x => s.raise .FLT g 2 (x.2.1 + 16 * b2n x.2.2.1 + 256) (w32 x.2.2.2).toNat) s
      (s, some ⟨g, j, e, r.2, t.2⟩)

/-- The sync resets that fall due at grid index `k` by a command or by the SYNC ball (R367). -/
def fltDue (s : State) (g : Nat) (k : Int) : State :=
  let f := s.fltOf g
  let t := (s.gridT k).toNat
  let due := f.syncAt.any fun x => decide (x ≤ t)
  let s1 := if f.syncNow ∨ due then
      s.setFlt g { f with syncNow := false, syncAt := f.syncAt.filter fun x => decide (t < x) }
    else s
  let s1 := if f.syncNow then s1.syncReset g k 0 false else s1
  if due then s1.syncReset g k 2 false else s1

/-- T of base sample `k` of a bank (R372): in an excitation change interval, or settling after one. -/
def settling (s : State) (b : Nat) (t : Tm) : Bool :=
  s.flag Reg.AFE_EXC_NOW_CHANGING b || match (s.afeOf b).exc.changeEnd with
    | some e => decide (s.lifeOf t ≤ e + s.fld Reg.FLT_SETTLE_US b * 1000 * Config.unitsPerNs)
    | none => false

/-- W of base sample `k` of a bank: the five samples after its fronts were cleared (R369). -/
def frontW (s : State) (b : Nat) (k : Int) : Bool :=
  match (s.cnvOf b).cleared with
  | some c => decide (c ≤ k ∧ k ≤ c + 4)
  | none => false

/-- The work of CTRL's WO bits on FLT[g] (R379). -/
def fltCtrl (s : State) (g : Nat) (w : Word) : State :=
  let n := w.toNat
  let s := if bit n 8 then s.setFlt g { s.fltOf g with syncNow := true } else s
  let s := if bit n 9 then s.xfCancelNow g else s
  if bit n 10 then s.loadDefault g (n / 0x800 % 4) else s

/-- A rising edge of SYNC at `t` (R367, R368): the groups that take it reset 1 µs later. -/
def syncPin (s : State) (t : Tm) : State :=
  (List.range 16).foldl (fun s g =>
    if s.flag Reg.FLT_SYNC_CFG_PIN_EN g then
      s.setFlt g { s.fltOf g with syncAt := (s.fltOf g).syncAt ++ [t + 1000 * Config.unitsPerNs] }
    else s) s

end State

/-- SYNC_EDGE: a rising edge on the SYNC ball at `t`; a member that follows takes its twin's (R428, R593). -/
def execSyncEdge (t : Tm) (s : State) : Host.Outcome State Fault Refusal :=
  if !s.booted || s.follows then .next s.finish
  else .next ((s.syncPin t).sendTwEvents (s.tim.k + 1) [.edge 20 true (t / Config.unitsPerNs)]).finish

/-- FADE_END (R362, R365). -/
def execFadeEnd (g : Fin 16) (s : State) : Host.Outcome State Fault Refusal := .next (s.fadeEnd g.val).finish

end Sys2Proof.Machine
end

