-- ==== Sys2Proof/Machine/Tal.lean ====
section
/-!
DEFINITION. Tally (R383 to R416): windows, statistics, histograms, rainflow counting, persistence maps and
their records. Histogram, rainflow and persistence counters stand in the Tally region of the DRAM at the
places of R408. A word counts at its grid instant, so windows, exports and settings wait, channel by
channel, for the words of their instant.
-/
namespace Sys2Proof.Machine

/-- A word is included: neither W nor P nor a tag of EXCL, whose bits 7, 4 and 0 are ignored (R384, R414). -/
def included (excl : Nat) (w : Word) : Bool := decide (wordTags w &&& (0x11 ||| (excl &&& 0x6E)) = 0)

/-- Accumulate a word (R392, R393). Answers whether N has just become full. -/
def TalAcc.add (a : TalAcc) (excl : Nat) (w : Word) : TalAcc × Bool :=
  if a.full then (a, false)
  else if !included excl w then ({ a with x := a.x + 1 }, false)
  else
    let v := wordValue w
    let first := decide (a.n = 0)
    let a' := { a with
      n := a.n + 1, mn := if first then v else min a.mn v, mx := if first then v else max a.mx v
      sum := a.sum + v, sumSq := a.sumSq + (v * v).toNat, orTags := a.orTags ||| BitVec.ofNat 8 (wordTags w)
      full := decide (a.n + 1 = 0xFFFFFFFF) }
    (a', a'.full)

/-- round(256 × √(SUMSQ ÷ N)): the largest r with (2r − 1)² N ≤ 4 × 65536 × SUMSQ (R392). -/
def rmsOf (n sumSq : Nat) : Nat :=
  let r := isqrt (0x10000 * sumSq / n)
  if (2 * r + 1) * (2 * r + 1) * n ≤ 4 * 0x10000 * sumSq then r + 1 else r

/-- The eight words of a window entry (R410 Table 4). -/
def TalAcc.words (a : TalAcc) (ch : Nat) (hist : Bool) : List Word :=
  let e := decide (a.n = 0)
  [w32 (ch + 0x100 * a.orTags.toNat + 0x10000 * b2n e + 0x20000 * b2n a.full + 0x40000 * b2n a.restart
      + 0x80000 * b2n hist),
   w32 a.n, w32 (min a.x 0xFFFFFFFF), if e then 0 else w32s a.mn, if e then 0 else w32s a.mx,
   if e then 0 else w32s (rdiv (256 * a.sum) a.n), if e then 0 else w32 (rmsOf a.n a.sumSq),
   w32 (min a.cross1 0xFFFF + 0x10000 * min a.cross2 0xFFFF)]

/-- Class of a value (R396). -/
def rfClass (lo : Int) (shift : Nat) (v : Int) : Nat := (clamp 0 63 ((v - lo) / (2 ^ shift : Nat))).toNat

/-- |a − b|. -/
def dist (a b : Nat) : Nat := if a ≤ b then b - a else a - b

/-- The count() of R397 on a stack, newest first: the stack after, and the cycles counted (range, mean). -/
def rfCount : Nat → List Nat → List (Nat × Nat) → List Nat × List (Nat × Nat)
  | 0, st, cs => (st, cs)
  | n + 1, f :: e :: b :: a :: t, cs =>
    if dist b e ≤ dist a b ∧ dist b e ≤ dist e f then
      rfCount n (f :: a :: t) (cs ++ [(dist b e, (b + e) / 2)])
    else (f :: e :: b :: a :: t, cs)
  | _ + 1, st, cs => (st, cs)

/-- The class of a word that moves the current class past the hysteresis (R396), if it does. -/
def RfState.move (r : RfState) (v : Int) : Option Nat :=
  let q := rfClass r.lo r.shift v
  let w : Int := (2 ^ r.shift : Nat)
  let h : Int := ((r.hyst * 2 ^ r.shift) / 8 : Nat)
  match r.cls with
  | none => some q
  | some c =>
    if c < q ∧ r.lo + q * w + h ≤ v then some q
    else if q < c ∧ v < r.lo + (q + 1) * w - h then some q
    else none

/-- A change of the current class (R397): the state after, and the cycles counted. -/
def RfState.turn (r : RfState) (c : Nat) : RfState × List (Nat × Nat) :=
  match r.cls with
  | none => ({ r with cls := some c, cur := c, dir := 0 }, [])
  | some _ =>
    let s : Int := if r.cur < c then 1 else if c < r.cur then -1 else 0
    let r := { r with cls := some c }
    if r.dir = 0 then
      if c = r.cur then (r, [])
      else
        let p := rfCount 128 (r.cur :: r.stack) []
        ({ r with stack := p.1, dir := s, cur := c }, p.2)
    else if s = r.dir then ({ r with cur := c }, [])
    else
      let p := rfCount 128 (r.cur :: r.stack) []
      ({ r with stack := p.1, dir := -r.dir, cur := c }, p.2)

/-- The residue as bytes packed four to a word, oldest first (R411). -/
def residueWords (stack : List Nat) : List Word :=
  bytesWords (cdiv stack.length 4) (stack.reverse.map fun n => BitVec.ofNat 8 n)

namespace State

/-! ### Counters in DRAM (R399, R408) -/

/-- Base of the Tally region. -/
def talBase (s : State) : Nat := s.regionBase 3

/-- Zero `n` bytes, a whole number of codewords. -/
def dramZero (s : State) (a n : Nat) : State :=
  { s with
    dram := s.dram.filter fun e => !decide (a ≤ e.1 ∧ e.1 < a + n)
    mem := { s.mem with errs := s.mem.errs.filter fun e => !decide (a ≤ 32 * (e.1 / 36) ∧ 32 * (e.1 / 36) < a + n) } }

/-- EV_TAL_FAULT (R399, R416). -/
def talFault (s : State) (kind who off : Nat) : State := s.raise .TAL 0 5 (kind + 16 * who) off

/-- Add 1 to the counter at an offset of the Tally region, saturating: the value before, and whether the
codeword was good. `kind` and `who` name it in EV_TAL_FAULT. Out of a bad codeword the count goes on from the value as read
(R399): the whole codeword is written, as read but for the counter (DEDUCED, log 148). -/
def talCount (s : State) (off kind who : Nat) : State × Nat × Bool :=
  let a := s.talBase + off
  let r := s.dramRead a 4
  let v := (leWord r.2.1).toNat
  let new := wordBytes (w32 (min (v + 1) 0xFFFFFFFF))
  if r.2.2 then (r.1.dramWrite a new, v, true)
  else
    let o := a % 32
    let bs := (List.range 32).map fun i => r.1.storedByte (a - o + i)
    ((r.1.dramWrite (a - o) (bs.take o ++ new ++ bs.drop (o + 4))).talFault kind who off, v, false)

/-- Read `n` counters from an offset of the Tally region, and which of them were bad; each bad codeword tells the offset of
its first counter. -/
def talRead (s : State) (off n kind who : Nat) : State × List Word × List Nat :=
  let b := s.talBase
  let bad := (codewords (b + off) (4 * n)).filter fun cw => decide (rsDecode (s.errPat cw) = .bad)
  let r := s.dramRead (b + off) (4 * n)
  (bad.foldl (fun s cw => s.talFault kind who (max off (32 * cw - b))) r.1, bytesWords n r.2.1,
    if bad = [] then [] else (List.range n).filter fun i => bad.contains ((b + off + 4 * i) / 32))

/-! ### Records (R409) -/

/-- A 64-bit time as two words. -/
def nsWords (t : Nat) : List Word := [w32 t, w32 (t / 0x100000000)]

/-- Put parts of a record one after the other, with the words of them that were bad. -/
def joinParts (l : List (List Word × List Nat)) : List Word × List Nat :=
  l.foldl (fun acc x => (acc.1 ++ x.1, acc.2 ++ x.2.map (acc.1.length + ·))) ([], [])

/-- Put a record into every committed Tally stream: header of Table 3 and body, with the words of it that were bad. -/
def talRecord (s : State) (type src flags seq openNs closeNs count : Nat) (body : List Word × List Nat) : State :=
  s.feedAll 2 ([w32 (type + 0x100 * src), w32 (flags + 0x10000 * (seq % 0x10000))] ++ nsWords openNs ++
    nsWords closeNs ++ [w32 (8 + body.1.length), w32 count] ++ body.1) (body.2.map (8 + ·))

/-! ### Windows (R386 to R395) -/

/-- The windows of a set, oldest first. -/
def windows (s : State) (w : Nat) : List TalWindow := s.tal.windows.lookD w []

/-- Replace the windows of a set. -/
def setWindows (s : State) (w : Nat) (l : List TalWindow) : State :=
  { s with tal := { s.tal with windows := if l = [] then s.tal.windows.del w else s.tal.windows.put w l } }

/-- A set is open (R386). -/
def setOpen (s : State) (w : Nat) : Bool := bit (s.fld Reg.TAL_STATUS_OPEN) w

/-- Channels of a set that take part in windows. -/
def setChannels (s : State) (w : Nat) : List Nat :=
  (List.range 256).filter fun n => s.flag Reg.TAL_TCH_STAT_EN 0 n && decide (s.fld Reg.TAL_TCH_WSET 0 n = w)

/-- Offset of the histogram of a channel in the Tally region. -/
def histOff (n : Nat) : Nat := 0x400000 + 0x800 * n

/-- The channel still has words to come for a closed window. -/
def closing (s : State) (n : Nat) : Bool :=
  s.tal.windows.any fun e => e.2.any fun w => w.kClose.isSome && match w.accs.look n with
    | some a => !a.done
    | none => false

/-- Clear a channel's histogram, unless a closed window still fills it. -/
def histClear (s : State) (n : Nat) : State :=
  if s.closing n then s else s.dramZero (s.talBase + histOff n) 0x800

/-- Empty accumulators of a channel whose words count from grid index `k` on, under the settings in force. -/
def freshAcc (s : State) (n : Nat) (k : Int) (restart : Bool) : TalAcc :=
  { (default : TalAcc) with
    since := k, restart := restart, excl := s.fld Reg.TAL_TCH_EXCL 0 n, histOn := s.flag Reg.TAL_TCH_HIST_EN 0 n
    hLo := s.fldS Reg.TAL_TCH_H_LO 0 n, hShift := s.fld Reg.TAL_TCH_H_SHIFT 0 n }

/-- Open a set at grid index `k` (R387, R388). -/
def openSet (s : State) (w : Nat) (k : Int) : State :=
  let chs := s.setChannels w
  let win : TalWindow := {
    kOpen := k, kClose := none, openNs := s.gridNs k, closeNs := 0, prov := s.chainProv, hold := s.chainHold
    disc := false, accs := chs.map fun n => (n, s.freshAcc n k false) }
  let s := chs.foldl (fun s n => if s.flag Reg.TAL_TCH_HIST_EN 0 n then s.histClear n else s) s
  let s := s.setWindows w (s.windows w ++ [win])
  s.orFld Reg.TAL_STATUS_OPEN 0 0 (2 ^ w)

/-- The histogram of an included word under the settings of its accumulators (R395). -/
def histAdd (s : State) (n : Nat) (a : TalAcc) (w : Word) : State :=
  let i := (wordValue w - a.hLo) / (2 ^ a.hShift : Nat)
  let off := histOff n + (if i < 0 then 0x400 else if 255 < i then 0x404 else 4 * i.toNat)
  (s.talCount off 2 n).1

/-- Channel `n` has given all its words to the closed window `i` of a set: its histogram is taken (R389, R395). -/
def finishAcc (s : State) (w i n : Nat) : State :=
  match (s.windows w).drop i with
  | [] => s
  | x :: _ =>
    let a := x.accs.lookD n default
    let put := fun (s : State) (a : TalAcc) =>
      s.setWindows w ((s.windows w).take i ++ [{ x with accs := x.accs.put n { a with done := true } }] ++ (s.windows w).drop (i + 1))
    if !a.histOn then put s a
    else
      let h := s.talRead (histOff n) 258 2 n
      let m : SMap Nat := (List.range 258).map fun j => (j, (h.2.1.getD j 0).toNat)
      (put h.1 { a with hist := m, histBad := h.2.2 }).dramZero (h.1.talBase + histOff n) 0x800

/-- The channels of a stopped group give no more words: what waits for one of them has them all (DESIGN CHOICE, log 148). -/
def finishStopped (s : State) (w : Nat) : State :=
  (List.range (s.windows w).length).foldl (fun s i =>
    match (s.windows w).drop i with
    | [] => s
    | x :: _ =>
      if x.kClose.isNone then s
      else (x.accs.filter fun e => !e.2.done && !s.fltRuns (e.1 / 16)).foldl (fun s e => s.finishAcc w i e.1) s) s

/-- An operation reaches the rainflow state of a channel at grid index `k`. -/
def rfPush (s : State) (n : Nat) (k : Int) (op : RfOp) : State :=
  let r := s.tal.rf.lookD n default
  { s with tal := { s.tal with rf := s.tal.rf.put n { r with ops := r.ops ++ [(k, op)] } } }

/-- Take a rainflow export of some channels at grid index `k` (R400). -/
def rfExport (s : State) (set : Nat) (host : Bool) (k : Int) (chs : List Nat) : State :=
  if chs = [] then s
  else
    let id := s.tal.nextId
    let e : RfExport := {
      id := id, k := k, ns := s.gridNs k, set := set, host := host, clr := s.flag Reg.TAL_RF_CFG_CLR
      prov := s.chainProv, openNs := 0, chans := chs, done := [] }
    let s := { s with tal := { s.tal with nextId := id + 1, exports := s.tal.exports ++ [e] } }
    let s := s.setFlag Reg.TAL_STATUS_EXPORTING 0 0 true
    chs.foldl (fun s n => s.rfPush n k (.snap id)) s

/-- Close a set at grid index `k` (R387, R391, R400). -/
def closeSet (s : State) (w : Nat) (k : Int) : State :=
  let prov := s.chainProv
  let hold := s.chainHold
  let l := (s.windows w).map fun x => match x.kClose with
    | some _ => x
    | none => { x with kClose := some k, closeNs := s.gridNs k, prov := x.prov || prov, hold := x.hold || hold }
  let s := (s.setWindows w l).setFld Reg.TAL_STATUS_OPEN 0 0 (s.fld Reg.TAL_STATUS_OPEN - 2 ^ w)
  s.rfExport w false k ((List.range 256).filter fun n => s.flag Reg.TAL_TCH_RF_EN 0 n &&
    s.flag Reg.TAL_TCH_RF_EXP 0 n && decide (s.fld Reg.TAL_TCH_WSET 0 n = w))

/-- A TALLY_WINDOW bead with a code of "Abacus" Table 4 acts on a set: 0 closes and reopens, 1 closes and
2 opens (R342). Answers the cause of a refusal (R387). -/
def windowEdge (s : State) (w code : Nat) (k : Int) : State × Option Nat :=
  let refuse := ((s.err .TAL 0 0x13).bump Reg.TAL_WIN_COUNTS_IGNORED 0 0, some 0x13)
  if code = 0 then (if s.setOpen w then ((s.closeSet w k).openSet w k, none) else refuse)
  else if code = 2 then (if s.setOpen w then refuse else (s.openSet w k, none))
  else if s.setOpen w then (s.closeSet w k, none) else refuse

/-- Holdover at this instant marks every open window (R391). -/
def holdWindows (s : State) : State :=
  if !s.chainHold || s.tal.windows = [] then s
  else
    { s with tal := { s.tal with windows := s.tal.windows.map fun e =>
        (e.1, e.2.map fun w => if w.kClose.isNone then { w with hold := true } else w) } }

/-- A window takes a word of channel `n` at grid index `kj`: the window after, whether the channel has just
become full, whether the word was accumulated, and whether the channel has just finished. -/
def windowTake (x : TalWindow) (n : Nat) (w : Word) (kj : Int) : TalWindow × Bool × Bool × Bool :=
  match x.accs.look n with
  | none => (x, false, false, false)
  | some a =>
    let inside := decide (x.kOpen ≤ kj ∧ a.since ≤ kj) && match x.kClose with
      | some c => decide (kj < c)
      | none => true
    if inside then
      let r := a.add a.excl w
      ({ x with accs := x.accs.put n r.1 }, r.2, !a.full && included a.excl w, false)
    else match x.kClose with
      | some c => (x, false, false, decide (c ≤ kj) && !a.done)
      | none => (x, false, false, false)

/-- The windows of one set take a word (R388, R389, R393, R395). -/
def setTake (s : State) (w n : Nat) (word : Word) (kj : Int) : State :=
  (List.range (s.windows w).length).foldl (fun s i =>
    match (s.windows w).drop i with
    | [] => s
    | x :: _ =>
      let was := x.accs.any fun e => e.2.full
      let r := windowTake x n word kj
      let s := s.setWindows w ((s.windows w).take i ++ [r.1] ++ (s.windows w).drop (i + 1))
      let s := if r.2.1 && !was then s.raise .TAL 0 4 (w + 16 * n) 0 else s
      let a := r.1.accs.lookD n default
      let s := if r.2.2.1 && a.histOn then s.histAdd n a word else s
      if r.2.2.2 then s.finishAcc w i n else s) s

/-- Entries of threshold levels count in the windows that hold their instant (R394). -/
def crossTake (s : State) (n : Nat) (c : ThrChange) : State :=
  if !c.entered then s
  else
    let bumpAcc := fun (a : TalAcc) =>
      if c.l = 0 then { a with cross1 := min (a.cross1 + 1) 0xFFFF } else { a with cross2 := min (a.cross2 + 1) 0xFFFF }
    { s with tal := { s.tal with windows := s.tal.windows.map fun e => (e.1, e.2.map fun x =>
        let inside := decide (x.kOpen ≤ c.k0) && match x.kClose with
          | some k => decide (c.k0 < k)
          | none => true
        match x.accs.look n with
        | some a => if inside && decide (a.since ≤ c.k0) then { x with accs := x.accs.put n (bumpAcc a) } else x
        | none => x) } }

/-- The window record of a set, once its last channel has finished (R389, R391, R410). -/
def windowRecord (s : State) (w : Nat) : State :=
  match s.windows w with
  | [] => s
  | x :: t =>
    if x.kClose.isNone || x.accs.any fun e => !e.2.done then s
    else
      let seq := s.tal.winSeq.lookD w 0
      let body := joinParts (x.accs.map fun e =>
        (e.2.words e.1 (e.2.hist ≠ []) ++ e.2.hist.map fun h => w32 h.2, e.2.histBad.map (8 + ·)))
      let s := (s.setWindows w t).talRecord 1 w (b2n x.prov + 2 * b2n x.hold + 4 * b2n x.disc) seq x.openNs x.closeNs
        x.accs.length body
      let s := { s with tal := { s.tal with winSeq := s.tal.winSeq.put w ((seq + 1) % 0x10000) } }
      (s.bump Reg.TAL_WIN_COUNTS_CLOSED 0 0).raise .TAL 0 0 (w + 0x10000 * seq) (w32 x.closeNs).toNat

/-! ### Rainflow (R396 to R403) -/

/-- Offset of the rainflow matrix of a channel. -/
def rfOff (n : Nat) : Nat := 0x4000 * n

/-- Replace the rainflow state of a channel. -/
def setRf (s : State) (n : Nat) (r : RfState) : State :=
  { s with tal := { s.tal with rf := s.tal.rf.put n r } }

/-- One cycle counts in the matrix (R399). -/
def rfCycle (s : State) (n : Nat) (c : Nat × Nat) : State :=
  let t := s.talCount (rfOff n + 4 * (64 * c.1 + c.2)) 1 n
  let s := t.1
  let r := s.tal.rf.lookD n default
  let s := s.setRf n { r with cycles := min (r.cycles + 1) 0xFFFFFFFF, poison := r.poison || !t.2.2 }
  if 0xFFFFFFFE ≤ t.2.1 ∧ !bit (s.fld Reg.TAL_RF_SAT_SAT 0 (n / 32)) (n % 32) then
    (s.orFld Reg.TAL_RF_SAT_SAT 0 (n / 32) (2 ^ (n % 32))).raise .TAL 0 2 (n + 0x100 * c.1 + 0x4000 * c.2) 0
  else s

/-- The entry of a channel in a rainflow record (R411). -/
def rfEntry (s : State) (n : Nat) : State × List Word × List Nat :=
  let m := s.talRead (rfOff n) 4096 1 n
  let r := m.1.tal.rf.lookD n default
  let d := if r.dir = 0 then 0 else if 0 < r.dir then 1 else 2
  let sat := bit (m.1.fld Reg.TAL_RF_SAT_SAT 0 (n / 32)) (n % 32)
  (m.1.setRf n { r with poison := false },
   [w32 (n + 0x100 * r.stack.length + 0x10000 * r.cur + 0x400000 * d + 0x1000000 * b2n sat
      + 0x2000000 * b2n (r.poison || !m.2.2.isEmpty)),
    w32 r.cycles, w32s r.lo, w32 (r.shift + 0x20 * r.hyst)] ++ m.2.1 ++ residueWords r.stack, m.2.2.map (4 + ·))

/-- The matrix of a channel clears and a period starts at `ns` (R401). -/
def rfWipe (s : State) (n ns : Nat) : State :=
  let s := s.dramZero (s.talBase + rfOff n) 0x4000
  s.setRf n { s.tal.rf.lookD n default with cycles := 0, periodNs := ns }

/-- An operation acts on the rainflow state of a channel at its grid index `k` (R400 to R402). -/
def rfAct (s : State) (n : Nat) (k : Int) : RfOp → State
  | .snap id =>
    let e := s.rfEntry n
    let per := (e.1.tal.rf.lookD n default).periodNs
    let take := fun (x : RfExport) =>
      if x.id = id then
        { x with done := x.done.put n e.2, openNs := if x.done = [] then per else min x.openNs per }
      else x
    let clr := s.tal.exports.any fun x => decide (x.id = id) && x.clr
    let s := { e.1 with tal := { e.1.tal with exports := e.1.tal.exports.map take } }
    if clr then s.rfWipe n (s.gridNs k) else s
  | .clear =>
    let s := s.rfWipe n (s.gridNs k)
    let v := s.fld Reg.TAL_RF_SAT_SAT 0 (n / 32)
    if bit v (n % 32) then s.setFld Reg.TAL_RF_SAT_SAT 0 (n / 32) (v - 2 ^ (n % 32)) else s
  | .setup en lo shift hyst =>
    let s := s.rfWipe n (s.gridNs k)
    s.setRf n { s.tal.rf.lookD n default with
      en := en, lo := lo, shift := shift, hyst := hyst, cls := none, cur := 0, dir := 0, stack := [] }
  | .exclude m => s.setRf n { s.tal.rf.lookD n default with excl := m }

/-- Hand over the exports at the head of the list that are complete (R403, R411). -/
def rfHandOver : Nat → State → State
  | 0, s => s
  | n + 1, s =>
    match s.tal.exports with
    | [] => s
    | e :: t =>
      if e.done.length < e.chans.length then s
      else
        let seq := s.tal.rfSeq
        let s := { s with tal := { s.tal with exports := t, rfSeq := (seq + 1) % 0x10000 } }
        let s := s.talRecord 2 e.set (b2n e.prov + 8 * b2n e.host + 16 * b2n e.clr) seq e.openNs e.ns e.chans.length
          (joinParts (e.done.map (·.2)))
        let s := (s.bump Reg.TAL_EXPORTS_RF 0 0).setFlag Reg.TAL_STATUS_EXPORTING 0 0 (decide (t ≠ []))
        rfHandOver n (s.raise .TAL 0 1 (e.set + 16 * b2n e.host + 0x10000 * seq) (w32 e.ns).toNat)

/-- The operations of a channel that hold up to grid index `kj` act (R400 to R402). -/
def rfOps (s : State) (n : Nat) (kj : Int) : State :=
  let r := s.tal.rf.lookD n default
  let due := r.ops.filter fun o => decide (o.1 ≤ kj)
  if due = [] then s
  else
    let s := s.setRf n { r with ops := r.ops.filter fun o => decide (kj < o.1) }
    let s := due.foldl (fun s o => s.rfAct n o.1 o.2) s
    rfHandOver s.tal.exports.length s

/-- What waits for words that a stopped group does not give acts at grid index `k` (DESIGN CHOICE, log 148): the rainflow
operations and the closed windows of its channels. -/
def talStopped (s : State) (k : Int) : State :=
  let s := (s.tal.rf.filter fun e => decide (e.2.ops ≠ []) && !s.fltRuns (e.1 / 16)).foldl (fun s e => s.rfOps e.1 k) s
  (s.tal.windows.map (·.1)).foldl (fun s w => s.finishStopped w) s

/-- Rainflow counting takes a word of a channel at grid index `kj` (R396 to R400). -/
def rfTake (s : State) (n : Nat) (w : Word) (kj : Int) : State :=
  match s.tal.rf.look n with
  | none => s
  | some _ =>
    let s := s.rfOps n kj
    let r := s.tal.rf.lookD n default
    if !r.en || !included r.excl w then s
    else match r.move (wordValue w) with
      | none => s
      | some c =>
        let t := r.turn c
        t.2.foldl (fun s x => s.rfCycle n x) (s.setRf n t.1)

/-! ### Persistence maps (R405 to R407) -/

/-- Offset of the map of a unit. -/
def pmOff (u : Nat) : Nat := 0x480000 + 0x40000 * u

/-- Clear the map of a unit and CAPTURES; the map starts at `ns`. -/
def pmWipe (s : State) (u ns : Nat) : State :=
  let s := (s.dramZero (s.talBase + pmOff u) 0x40000).setFld Reg.TAL_PM_CAPTURES 0 u 0
  { s with tal := { s.tal with pmOpenNs := s.tal.pmOpenNs.put u ns } }

/-- Export the map of a unit (R407, R412). -/
def pmExport (s : State) (u : Nat) (host : Bool) (ns : Nat) : State :=
  let m := s.talRead (pmOff u) 65536 3 u
  let s := m.1
  let seq := s.tal.pmSeq.lookD u 0
  let clr := s.flag Reg.TAL_PM_CLR 0 u
  let n := s.fld Reg.TAL_PM_CAPTURES 0 u
  let s := s.talRecord 3 u (b2n s.chainProv + 8 * b2n host + 16 * b2n clr) seq (s.tal.pmOpenNs.lookD u 0) ns n
    ([w32 (s.fld Reg.TAL_PM_CHAN 0 u + 0x100 * s.fld Reg.TAL_PM_SHIFT 0 u), w32 (0x100 * s.fld Reg.TAL_PM_P_LO 0 u)] ++ m.2.1,
      m.2.2.map (2 + ·))
  let s := { s with tal := { s.tal with pmSeq := s.tal.pmSeq.put u ((seq + 1) % 0x10000) } }
  let s := (s.bump Reg.TAL_EXPORTS_PM 0 0).raise .TAL 0 3 (u + 0x10000 * seq) n
  if clr then s.pmWipe u ns else s

/-- A capture record of unit `u` closes (R406): the words of the map's channel, by slot from j_t − A on. -/
def pmAdd (s : State) (u a b : Nat) (ws : List Word) : State :=
  if !s.flag Reg.TAL_PM_EN 0 u then s
  else
    let n := s.fld Reg.TAL_PM_CHAN 0 u
    let excl := s.fld Reg.TAL_TCH_EXCL 0 n
    let lo := s.fldS Reg.TAL_PM_P_LO 0 u
    let sh := s.fld Reg.TAL_PM_SHIFT 0 u
    let s := ((List.range ws.length).zip ws).foldl (fun s e =>
      if !included excl e.2 then s
      else
        let x := 256 * e.1 / (a + b)
        let y := (clamp 0 255 ((wordValue e.2 - lo) / (2 ^ sh : Nat))).toNat
        (s.talCount (pmOff u + 4 * (256 * y + x)) 3 u).1) s
    let s := s.bumpSat Reg.TAL_PM_CAPTURES 0 u
    if s.flag Reg.TAL_PM_EXP 0 u then s.pmExport u false s.nowNs else s

/-! ### Instants and commits -/

/-- Tally takes what a group has emitted (R383). -/
def talTake (s : State) (e : Emitted) : State :=
  (List.range 16).foldl (fun s p =>
    let n := 16 * e.g + p
    let w := e.words.getD p 0
    let s := (e.changes.filter fun c => decide (c.p = p)).foldl (fun s c => s.crossTake n c) s
    let s := (s.tal.windows.map (·.1)).foldl (fun s x => s.setTake x n w e.kj) s
    s.rfTake n w e.kj) s

/-- The exports and clears that fall due at grid index `k` (R400, R401, R407). -/
def talDue (s : State) (k : Int) : State :=
  let chs := (List.range 256).filter fun n => s.flag Reg.TAL_TCH_RF_EN 0 n
  let s1 := if s.tal.rfSnapDue then
      ({ s with tal := { s.tal with rfSnapDue := false } }).rfExport 0 true k chs else s
  let s1 := if s1.tal.rfClearDue then
      chs.foldl (fun s n => s.rfPush n k .clear) { s1 with tal := { s1.tal with rfClearDue := false } } else s1
  let us := bitsOf 16 s1.tal.pmSnap
  let s1 := if us = [] then s1 else { s1 with tal := { s1.tal with pmSnap := 0 } }
  ((us.foldl (fun s u => s.pmExport u true (s.gridNs k)) s1).talStopped k).holdWindows

/-- The fields of a channel that restart its window (R390). -/
def winFields : List Field :=
  [Reg.TAL_TCH_WSET, Reg.TAL_TCH_STAT_EN, Reg.TAL_TCH_HIST_EN, Reg.TAL_TCH_EXCL, Reg.TAL_TCH_H_LO, Reg.TAL_TCH_H_SHIFT]

/-- The fields of a channel that restart its rainflow counting (R402). -/
def rfFields : List Field := [Reg.TAL_TCH_RF_EN, Reg.TAL_TCH_RF_LO, Reg.TAL_TCH_RF_SHIFT, Reg.TAL_TCH_RF_HYST]

/-- What a commit of TAL does at grid index `k` besides the registers (R390, R402, R407). A map begins empty when its unit is first
enabled after a reset (DESIGN CHOICE, log 148). -/
def talCommit (s : State) (old : SMap Word) (k : Int) : State :=
  let differs := fun (s : State) (fs : List Field) (i : Nat) => fs.any fun f => decide (f.rd old 0 i ≠ s.fld f 0 i)
  let s := (List.range 256).foldl (fun s n =>
    let s := if !differs s winFields n then s else
      let w := s.fld Reg.TAL_TCH_WSET 0 n
      let on := s.flag Reg.TAL_TCH_STAT_EN 0 n
      let s := { s with tal := { s.tal with windows := s.tal.windows.map fun e => (e.1, e.2.map fun x =>
          if x.kClose.isSome then x
          else if on && decide (e.1 = w) then
            { x with accs := x.accs.put n (s.freshAcc n k true) }
          else { x with accs := x.accs.del n }) } }
      if on && s.setOpen w then s.histClear n else s
    let s := if !differs s (Reg.TAL_TCH_EXCL :: rfFields) n then s else s.rfPush n k (.exclude (s.fld Reg.TAL_TCH_EXCL 0 n))
    if !differs s rfFields n then s
    else s.rfPush n k (.setup (s.flag Reg.TAL_TCH_RF_EN 0 n) (s.fldS Reg.TAL_TCH_RF_LO 0 n)
      (s.fld Reg.TAL_TCH_RF_SHIFT 0 n) (s.fld Reg.TAL_TCH_RF_HYST 0 n))) s
  (List.range 16).foldl (fun s u =>
    if differs s [Reg.TAL_PM_CHAN, Reg.TAL_PM_SHIFT, Reg.TAL_PM_P_LO] u ||
        (s.flag Reg.TAL_PM_EN 0 u && (s.tal.pmOpenNs.look u).isNone) then s.pmWipe u (s.gridNs k) else s) s

/-- The work of CTRL's WO bits on TAL (R413). -/
def talCtrl (s : State) (w : Word) : State :=
  let n := w.toNat
  let us := n / 0x10000
  let s := if bit n 8 then { s with tal := { s.tal with rfSnapDue := true } } else s
  let s := if bit n 9 then { s with tal := { s.tal with rfClearDue := true } } else s
  let s := if bit n 10 then { s with tal := { s.tal with pmSnap := s.tal.pmSnap ||| us } } else s
  if bit n 11 then (bitsOf 16 us).foldl (fun s u => s.pmWipe u s.nowNs) s else s

end State

/-- WINDOW_RECORD (R389). -/
def execWindowRecord (set : Fin 16) (s : State) : Host.Outcome State Fault Refusal :=
  .next (s.windowRecord set.val).finish

end Sys2Proof.Machine
end

