-- ==== Sys2Proof/Machine/Abc.lean ====
section
/-!
DEFINITION. Abacus: rods and digital inputs (R307 to R330, R335 to R337). Positions are integers in 2⁻¹⁶
units, times in 2⁻¹⁶ ns. A mains rod and rod 0 keep an unwrapped position; the registers and the beads see
it modulo its range. The beads stand in Machine/Beads.lean.
-/
namespace Sys2Proof.Machine

/-- One second in 2⁻¹⁶ ns. -/
def secTm : Nat := 1000000000 * 0x10000

/-- One millisecond in 2⁻¹⁶ ns. -/
def msTm : Nat := 1000000 * 0x10000

/-- The range a position wraps at: rod 0 at 2³² samples, a mains rod at 360° (R309, R310); `none` for the
signed rods. -/
def rodModulus (r kind : Nat) : Option Nat :=
  if r = 0 then some (2 ^ 48) else if kind = 5 then some (360 * 0x10000) else none

/-- Truncated quotient toward 0, for a positive divisor. -/
def quotZ (n : Int) (d : Nat) : Int := if 0 ≤ n then n / (d : Int) else -((-n) / (d : Int))

/-- Ends of a signed rod (R307). -/
def rodMin : Int := -140737488355328
/-- Upper end of a signed rod. -/
def rodMax : Int := 140737488355327

/-- Sign of an integer. -/
def sgn (x : Int) : Int := if 0 < x then 1 else if x < 0 then -1 else 0

/-- Where the line of a rod stands at `t` (R312): truncated toward the origin, no further than `PITCH − 2⁻¹⁶`
beyond it for a COUNT or QUAD rod, and not behind the position it is held at (R313). -/
def RodState.at_ (q : RodState) (kind : Nat) (pitch : Int) (t : Tm) : Int :=
  let dx := quotZ (q.vn * ((t : Int) - q.te)) (max 1 q.vd)
  let lim : Int := (pitch.natAbs : Int) - 1
  let dx := if kind = 2 ∨ kind = 3 then clamp (-lim) lim dx else dx
  let p := q.pos + dx
  match q.held with
  | some h => if 0 < q.dir then max h p else if q.dir < 0 then min h p else p
  | none => p

/-- The velocity as VEL shows it: signed, in 2⁻⁸ units/s, saturating (R347). -/
def RodState.vel (q : RodState) : Int :=
  clamp (-0x80000000) 0x7FFFFFFF (rdiv (q.vn * (secTm : Int)) (256 * (max 1 q.vd : Int)))

/-- Where a movement to `p` begins: a backward movement from a load leaves out the loaded value, which the load has
crossed (R336, DEDUCED, log 145). -/
def RodState.from_ (q : RodState) (p : Int) : Int := if q.past ∧ p < q.evalPos then q.evalPos - 1 else q.evalPos

/-- The trajectory is followed up to `t`. -/
def RodState.slideTo (q : RodState) (kind : Nat) (pitch : Int) (t : Tm) : RodState :=
  let p := q.at_ kind pitch t
  let q1 := { q with evalT := max t q.evalT }
  if p = q.evalPos then q1
  else { q1 with segs := q.segs ++ [.slide q.evalT (q.from_ p) p q.pos q.te q.vn (max 1 q.vd)], evalPos := p, past := false }

/-- A source event puts the rod at `p` at `t`, where the trajectory has been followed to. -/
def RodState.jumpTo (q : RodState) (t : Tm) (p : Int) : RodState :=
  let q1 := { q with pos := p, te := t, held := none }
  if p = q.evalPos then q1 else { q1 with segs := q.segs ++ [.jump t (q.from_ p) p], evalPos := p, past := false }

/-- A load restarts the trajectory at `p` with the velocity in force (R316, R336). -/
def RodState.loadTo (q : RodState) (t : Tm) (p : Int) : RodState :=
  { q with
    segs := q.segs ++ [.load t p (sgn q.vn)], evalPos := p, pos := p, edgePos := p, te := t, held := none
    doubt := false, sat := false, past := decide (q.vn < 0) }

/-- The rod stops with velocity 0 and holds its position (R324). -/
def RodState.halt (q : RodState) (t : Tm) : RodState :=
  { q with
    pos := q.evalPos, te := t, vn := 0, vd := 1, held := none, stopped := true, passage := none, waiting := []
    ivals := [], run := 0 }

/-- The intervals that VAVG averages: 1, 2, 4 or 8 (R347). -/
def vavgOf (code : Nat) : Nat := 2 ^ code

namespace State

/-- The state of a rod. -/
def rod (s : State) (r : Nat) : RodState := s.abc.rods.lookD r default

/-- Replace the state of a rod. -/
def setRod (s : State) (r : Nat) (q : RodState) : State := { s with abc := { s.abc with rods := s.abc.rods.put r q } }

/-- KIND of a rod (R311). -/
def rodKind (s : State) (r : Nat) : Nat := s.fld Reg.ABC_ROD_CFG_KIND 0 r

/-- PITCH of a rod, signed. -/
def pitch (s : State) (r : Nat) : Int := s.fldS Reg.ABC_PITCH 0 r

/-- LOAD of a rod: 48 bits, unsigned on a mains rod. -/
def loadValue (s : State) (r : Nat) : Int :=
  let n := s.fld64 Reg.ABC_LOAD_LO_LOAD Reg.ABC_LOAD_HI_LOAD 0 r
  if s.rodKind r = 5 then (n : Int) else sext 48 n

/-- Position of a rod now, as a register shows it. -/
def rodShown (s : State) (r : Nat) (p : Int) : Nat :=
  match rodModulus r (s.rodKind r) with
  | some m => (p % (m : Int)).toNat
  | none => toField 48 p

/-- Quality of a rod (R323). -/
def rodQual (s : State) (r : Nat) : Nat :=
  if r = 0 then (if s.timeState = 2 then 3 else if s.timeState = 3 then 2 else 0)
  else
    let q := s.rod r
    if s.rodKind r = 0 ∨ q.stopped then 0 else if q.doubt then 1 else q.grade

/-- Bring the quality of a rod up to date: STATUS.QUAL, POS_HI.QUAL and EV_ABC_QUAL (R326). -/
def refreshQual (s : State) (r : Nat) : State :=
  let new := s.rodQual r
  let old := s.fld Reg.ABC_POS_HI_QUAL 0 r
  let s := s.setFlag Reg.ABC_POS_HI_DOUBT 0 r (s.rod r).doubt
  if new = old then s
  else
    let m := s.fld Reg.ABC_STATUS_QUAL
    let s := (s.setFld Reg.ABC_POS_HI_QUAL 0 r new).setFld Reg.ABC_STATUS_QUAL 0 0
      (m - (m / 4 ^ r % 4) * 4 ^ r + new * 4 ^ r)
    if (new < 2) = (old < 2) then s
    else s.raise .ABC 0 1 (r + 16 * new + 64 * old) (w32 (s.rodShown r (s.rod r).evalPos / 0x10000)).toNat

/-- Bring VEL, LAST, DIR and the quality of a rod up to date after a source event. -/
def showRod (s : State) (r : Nat) : State :=
  let q := s.rod r
  let s := (s.setFldS Reg.ABC_VEL_V 0 r q.vel).setFlag Reg.ABC_POS_HI_DIR 0 r (decide (q.dir < 0))
  let s := match q.lastEvent with
    | some t => s.setFld Reg.ABC_LAST_T 0 r (t / Config.unitsPerNs)
    | none => s
  s.refreshQual r

/-- Doubt on a rod (R325). -/
def setDoubt (s : State) (r : Nat) : State := (s.setRod r { s.rod r with doubt := true }).refreshQual r

/-- A signed rod that has passed an end of its range stops there (R308). -/
def rodEnds (s : State) (r : Nat) (t : Tm) : State :=
  let q := s.rod r
  if (rodModulus r (s.rodKind r)).isSome || q.sat then s
  else if q.evalPos < rodMin ∨ rodMax < q.evalPos then
    let q := { q with evalPos := clamp rodMin rodMax q.evalPos }
    let s := s.setRod r { q.halt t with sat := true, edgePos := q.evalPos }
    (s.raise .ABC 0 9 r 0).showRod r
  else s

/-- Mean period of a mains rod in time units (R311): of the last 4; 1 ÷ 45 s before one has been timed. -/
def mainsPeriod (q : RodState) : Nat :=
  let l := q.ivals.take 4
  if l = [] then secTm / 45 else l.sum / l.length

/-- The freshness grade of a rod `since` its last source event; `none` when it stops (R323 Table 2). -/
def gradeAt (s : State) (r since : Nat) : Option Nat :=
  let q := s.rod r
  let timeout := s.fld Reg.ABC_TIMING_TIMEOUT 0 r * msTm
  let kind := s.rodKind r
  if kind = 5 then
    let p := mainsPeriod q
    if 2 * since ≤ 3 * p then some 3 else if since ≤ 8 * p then some 2 else none
  else if timeout < since then none
  else if kind = 4 then (if since ≤ s.fld Reg.ABC_TIMING_GATE 0 r * msTm then some 3 else some 2)
  else if kind = 6 then (if 4 * since ≤ timeout then some 3 else some 2)
  else if vavgOf (s.fld Reg.ABC_ROD_CFG_VAVG 0 r) ≤ q.ivals.length ∧ since ≤ 2 * q.ivals.headD 0 then some 3
  else some 2

/-- MAINS_FREQ reads 0 while no mains rod runs (R347). -/
def restMains (s : State) : State :=
  if (List.range 8).any fun r => decide (s.rodKind r = 5) && !(s.rod r).stopped then s
  else s.setFld Reg.ABC_MAINS_FREQ_MHZ 0 0 0

/-- Regrade a rod at `t` (R323, R324). -/
def regrade (s : State) (r : Nat) (t : Tm) : State :=
  let q := s.rod r
  match q.lastEvent with
  | none => s
  | some t0 =>
    if q.stopped then s
    else match s.gradeAt r (t - t0) with
      | some g => (s.setRod r { q with grade := g }).refreshQual r
      | none =>
        let s := (s.setRod r ((q.slideTo (s.rodKind r) (s.pitch r) t).halt t)).showRod r
        if s.rodKind r = 5 then s.restMains else s

/-! ### Source events -/

/-- EV_ABC_LOAD and the count of a load (R316, R349). -/
def loadEvent (s : State) (r : Nat) (host : Bool) : State :=
  let s := (s.bump Reg.ABC_COUNTS_LOADS 0 r).showRod r
  s.raise .ABC 0 7 (r + 8 * b2n host) (s.fld Reg.ABC_VEL_V 0 r)

/-- A load of a COUNT or QUAD rod at `t` (R316). -/
def loadRod (s : State) (r : Nat) (t : Tm) (host : Bool) : State :=
  let q := (s.rod r).slideTo (s.rodKind r) (s.pitch r) t
  (s.setRod r (q.loadTo t (s.loadValue r))).loadEvent r host

/-- An edge moves a COUNT or QUAD rod by one PITCH in direction `d` (R311, R314, R324). -/
def stepRod (s : State) (r : Nat) (d : Int) (t : Tm) : State :=
  let q := s.rod r
  if q.sat then s
  else
    let kind := s.rodKind r
    let n := vavgOf (s.fld Reg.ABC_ROD_CFG_VAVG 0 r)
    let travel := d * sgn (s.pitch r)
    let rev := decide (kind = 3) && decide (q.qdir ≠ 0 ∧ q.qdir ≠ d)
    let ivals := if q.stopped then [] else match q.lastEvent with
      | some t0 => ((t - t0) :: q.ivals).take 8
      | none => []
    let run := if rev then 0 else min ivals.length (q.run + 1)
    let v : Int × Nat := if n ≤ run then ((n : Int) * d * s.pitch r, max 1 (ivals.take n).sum) else (0, 1)
    let q1 := (q.slideTo kind (s.pitch r) t).jumpTo t (q.edgePos + d * s.pitch r)
    let s := s.setRod r { q1 with
      edgePos := q.edgePos + d * s.pitch r, vn := v.1, vd := v.2, dir := travel, qdir := d, ivals := ivals, run := run
      lastEvent := some t, stopped := false, grade := 2 }
    let s := ((s.rodEnds r t).regrade r t).showRod r
    if rev then s.raise .ABC 0 8 (r + 8 * b2n (decide (travel < 0))) (w32 (s.rodShown r (s.rod r).evalPos / 0x10000)).toNat
    else s

/-- The transition of a QUAD rod that waits moves it. -/
def flushQuad (s : State) (r : Nat) : State :=
  match (s.rod r).qwait with
  | none => s
  | some (t, _, d) => (s.setRod r { s.rod r with qwait := none }).stepRod r d t

/-- Level of an input (R327). -/
def inLevel (s : State) (i : Nat) : Bool := s.flag Reg.ABC_IN_STAT_LEVEL 0 i

/-- A transition on INA or INB of a QUAD rod (R311, R315): with A and B together a quadrature error. -/
def quadEdge (s : State) (r : Nat) (onA : Bool) (t : Tm) : State :=
  let together := match (s.rod r).qwait with
    | some (t0, a, _) => decide (t0 = t) && (a != onA)
    | none => false
  if together then
    let s := s.setRod r { s.rod r with qwait := none }
    let s := (s.bump Reg.ABC_COUNTS_LOST 0 r).setDoubt r
    s.raise .ABC 0 4 r (w32 (t / Config.unitsPerNs)).toNat
  else
    let s := s.flushQuad r
    let differ := s.inLevel (s.fld Reg.ABC_ROD_CFG_INA 0 r) != s.inLevel (s.fld Reg.ABC_ROD_CFG_INB 0 r)
    let d : Int := if differ = onA then 1 else -1
    s.setRod r { s.rod r with qwait := some (t, onA, d) }

/-- A velocity of `n` position units in no time at all: the spec states none, so it is a free value. -/
def pairVelocity (s : State) (n : Int) (dt : Nat) : State × Int × Nat :=
  if dt = 0 then (s.drawn, (Config.freeWord s.free).toInt * 256, secTm) else (s, n, dt)

/-- A head edge of a GATE rod (R317, R318). -/
def gateEdge (s : State) (r : Nat) (headA : Bool) (t : Tm) : State :=
  let q := s.rod r
  let gate := s.fld Reg.ABC_TIMING_GATE 0 r * msTm
  let live := q.waiting.filter fun x => decide (t - x ≤ gate)
  if q.stopped ∧ (q.passage.isNone ∨ live = []) then
    s.setRod r { q with passage := some headA, waiting := [t] }
  else match q.passage with
    | none => s
    | some fwd =>
      if headA = fwd then s.setRod r { q with waiting := (live ++ [t]).drop (live.length + 1 - 4) }
      else match live with
        | [] => s.setRod r { q with waiting := [] }
        | x :: rest =>
          let sign : Int := if fwd then 1 else -1
          let v := s.pairVelocity (sign * s.pitch r) (t - x)
          let s := v.1
          let q1 := (q.slideTo 4 (s.pitch r) t)
          let fresh := { q1 with
            waiting := rest, vn := v.2.1, vd := v.2.2, dir := sgn v.2.1, lastEvent := some t, stopped := false, grade := 3 }
          if q.stopped then
            let p := s.loadValue r - (if fwd then 0 else s.pitch r)
            ((s.setRod r (fresh.loadTo t p)).rodEnds r t).loadEvent r false
          else (s.setRod r { fresh with pos := q1.evalPos, te := t }).showRod r

/-- At `t` a rod takes the trajectory through `pu` at `tu` with velocity `vn / vd` (R313, R320): forward it jumps, behind
it holds, and at a reversal it takes the trajectory at once. A rod that stands at an end of its range stays there (R308). -/
def followRod (s : State) (r : Nat) (t : Tm) (pu : Int) (tu : Tm) (vn : Int) (vd : Nat) : State :=
  if (s.rod r).sat then s
  else
  let q := (s.rod r).slideTo (s.rodKind r) (s.pitch r) t
  let p := pu + quotZ (vn * ((t : Int) - tu)) (max 1 vd)
  let rev := decide (q.vn * vn < 0)
  let dir := if vn = 0 then q.dir else sgn vn
  let behind := !rev && (decide (0 < dir ∧ p < q.evalPos) || decide (dir < 0 ∧ q.evalPos < p))
  let q1 := { (if behind then { q with held := some q.evalPos } else q.jumpTo t p) with pos := pu, te := tu }
  let s := s.setRod r { q1 with vn := vn, vd := vd, dir := dir, lastEvent := some t, stopped := false, grade := 3 }
  let s := (s.rodEnds r t).showRod r
  if rev then s.raise .ABC 0 8 (r + 8 * b2n (decide (dir < 0))) (w32 (s.rodShown r (s.rod r).evalPos / 0x10000)).toNat
  else s

/-- A rising zero crossing moves a MAINS rod (R311, R319). -/
def mainsEdge (s : State) (r : Nat) (t : Tm) : State :=
  let q := s.rod r
  let ivals := match q.lastEvent with
    | some t0 => if q.stopped ∨ secTm / 45 < t - t0 then q.ivals else ((t - t0) :: q.ivals).take 4
    | none => []
  let cur := q.at_ 5 0 t
  let turn : Int := 360 * 0x10000
  let d0 := ((s.fld Reg.ABC_PHASE_OFS_OFS : Int) - cur) % turn
  let d := if turn / 2 < d0 then d0 - turn else d0
  let s := s.setRod r { q with ivals := ivals }
  let n := (ivals.take 4).length
  let sum := (ivals.take 4).sum
  let s := if n = 0 then s.followRod r t (cur + d) t 0 1 else s.followRod r t (cur + d) t (turn * (n : Int)) (max 1 sum)
  s.setFld Reg.ABC_MAINS_FREQ_MHZ 0 0 (if sum = 0 then 0 else (rdiv (1000 * (secTm : Int) * (n : Int)) sum).toNat)

/-- The 64-bit time that a 32-bit time stands for near `ref`, both in ns (R302). -/
def extend32 (ref v : Nat) : Nat :=
  let d := (v + 0x100000000 - ref % 0x100000000) % 0x100000000
  if d < 0x80000000 then ref + d else ref + d - 0x100000000

/-- An update reaches the NETWORK rods of its identity (R320). -/
def networkRods (s : State) (m : RodMsg) : State :=
  if s.follows then s
  else
    (List.range 8).foldl (fun s r =>
      if s.rodKind r = 6 ∧ s.fld Reg.ABC_ROD_CFG_NET_ID 0 r = m.netId.toNat then
        let tu := extend32 s.nowNs m.time.toNat * Config.unitsPerNs
        s.followRod r s.now m.pos.toInt tu (m.vel.toInt * 256) secTm
      else s) s

/-! ### Digital inputs (R327 to R329) -/

/-- The rods that an input feeds, with the kind of each (R328). -/
def fedRods (s : State) (i : Nat) : List Nat :=
  ((List.range 8).drop 1).filter fun r =>
    let k := s.rodKind r
    (decide (k = 2 ∨ k = 3 ∨ k = 4) && decide (s.fld Reg.ABC_ROD_CFG_INA 0 r = i)) ||
    (decide (k = 3 ∨ k = 4) && decide (s.fld Reg.ABC_ROD_CFG_INB 0 r = i)) ||
    (decide (k = 2 ∨ k = 3) && s.flag Reg.ABC_ROD_CFG_IDX_EN 0 r && decide (s.fld Reg.ABC_ROD_CFG_INZ 0 r = i))

/-- What the hub keeps of an input. -/
def input (s : State) (i : Nat) : InputState := s.abc.inputs.lookD i default

/-- Replace what the hub keeps of an input. -/
def setInput (s : State) (i : Nat) (v : InputState) : State :=
  { s with abc := { s.abc with inputs := s.abc.inputs.put i v } }

/-- An accepted edge acts on one rod: it moves, loads or pairs it. -/
def rodEdge (s : State) (r i : Nat) (active : Bool) (t : Tm) : State :=
  let k := s.rodKind r
  let onA := decide (s.fld Reg.ABC_ROD_CFG_INA 0 r = i)
  let onB := decide (s.fld Reg.ABC_ROD_CFG_INB 0 r = i)
  let onZ := s.flag Reg.ABC_ROD_CFG_IDX_EN 0 r && decide (s.fld Reg.ABC_ROD_CFG_INZ 0 r = i)
  let s := if decide (k = 2) && onA && active then s.stepRod r 1 t else s
  let s := if decide (k = 3) && (onA || onB) then s.quadEdge r onA t else s
  let s := if decide (k = 4) && (onA || onB) && active then s.gateEdge r onA t else s
  if decide (k = 2 ∨ k = 3) && onZ && active then (s.flushQuad r).loadRod r t false else s

/-- The stuck state of an input ends (R329). -/
def stuckEnd (s : State) (i : Nat) : State :=
  if s.flag Reg.ABC_IN_STAT_STUCK 0 i then (s.setFlag Reg.ABC_IN_STAT_STUCK 0 i false).raise .ABC 0 2 i 0 else s

/-- A level of an input ball is accepted at `t` (R327, R328). Answers whether it was an edge of the accepted
level, and to which level. -/
def inputEdge (s : State) (i : Nat) (ball : Bool) (t : Tm) : State × Option Bool :=
  let lv := ball != s.flag Reg.ABC_IN_CFG_POL 0 i
  let x := s.input i
  if lv = s.inLevel i then (s, none)
  else
    let gap := max 50 (10 * s.fld Reg.ABC_IN_CFG_MIN_INT 0 i) * Config.unitsPerNs
    let ovr := match x.lastEdge with
      | some t0 => decide (t - t0 < gap)
      | none => false
    let s := s.setInput i { x with
      level := lv, hist := if s.follows then x.hist else (t, lv) :: x.hist, lastEdge := some t, activeSince := if lv then some t else none }
    let s := s.setFlag Reg.ABC_IN_STAT_LEVEL 0 i lv
    let s := if lv then s else s.stuckEnd i
    if ovr then
      let s := s.bump Reg.ABC_IN_STAT_OVR 0 i
      let was := bit (s.fld Reg.ABC_IN_OVR_OVR) i
      let s := (s.fedRods i).foldl (fun s r => if s.follows then s else (s.bump Reg.ABC_COUNTS_LOST 0 r).setDoubt r) s
      let s := s.orFld Reg.ABC_IN_OVR_OVR 0 0 (2 ^ i)
      (if was then s else s.raise .ABC 0 3 i (s.fld Reg.ABC_IN_STAT_OVR 0 i), some lv)
    else if s.follows then (s, some lv)
    else ((s.fedRods i).foldl (fun s r => s.rodEdge r i lv t) s, some lv)

/-! ### Evaluation (R335, R338) -/

/-- Rod 0 moves along the grid from instant k − 1 to instant k at `t` (R309, R335). At a re-anchoring it has jumped to k
already, and it crosses nothing (R341). -/
def rodZeroAt (s : State) (k : Int) (t : Tm) : State :=
  let p0 := (k - 1) * 0x10000
  let p := k * 0x10000
  let t0 := t - Config.baseUnits
  s.setRod 0 { s.rod 0 with
    segs := if (s.rod 0).evalPos = p then [] else [.slide t0 p0 p p0 t0 0x10000 Config.baseUnits], evalPos := p, evalT := t, pos := p, te := t, vn := 0x10000
    vd := Config.baseUnits, dir := 1 }

/-- A rod other than rod 0 is followed to G(k) = `t` (R335); a host load of it acts (R316). -/
def rodAt (s : State) (t : Tm) (r : Nat) : State :=
  if s.rodKind r = 0 then s
  else
    let s := s.flushQuad r
    let q := s.rod r
    let s := if q.loadReq then
        let s := s.setRod r { q with loadReq := false }
        if s.rodKind r = 2 ∨ s.rodKind r = 3 then s.loadRod r t true else s
      else s
    (s.setRod r ((s.rod r).slideTo (s.rodKind r) (s.pitch r) t)).rodEnds r t

/-- POS, VEL and quality of a rod where its trajectory has been followed to (R347). -/
def showPos (s : State) (r : Nat) : State :=
  let p := s.rodShown r (s.rod r).evalPos
  ((s.setFld Reg.ABC_POS_LO_POS 0 r p).setFld Reg.ABC_POS_HI_POS 0 r (p / 0x100000000)).showRod r

/-- POS, VEL and quality of the rods as the evaluation has them (R347). -/
def showRods (s : State) : State :=
  let s := (List.range 8).foldl (fun s r => if r ≠ 0 ∧ s.rodKind r = 0 then s else s.showPos r) s
  s.setFlag Reg.ABC_STATUS_ROD0_HOLD 0 0 (decide (s.timeState ≠ 2 ∧ s.timeState ≠ 3))

/-- Follow every rod to G(k) = `t` (R335). -/
def rodsAt (s : State) (k : Int) (t : Tm) : State :=
  [1, 2, 3, 4, 5, 6, 7].foldl (fun s r => s.rodAt t r) (s.rodZeroAt k t)

/-- The pieces of trajectory of an evaluation are done with. -/
def clearSegs (s : State) : State :=
  { s with abc := { s.abc with rods := s.abc.rods.map fun e => (e.1, { e.2 with segs := [] }), exact_ := [] } }

/-! ### Commits (R322, R327, R348) -/

/-- The commit check of ABC on a configuration. -/
def abcChecks (s : State) (c : SMap Word) : List Nat :=
  let bad := ((List.range 8).drop 1).any fun r =>
    let k := Reg.ABC_ROD_CFG_KIND.rd c 0 r
    decide (k = 1) || (decide (k = 2 ∨ k = 3 ∨ k = 4) && decide (Reg.ABC_PITCH.rd c 0 r = 0)) ||
    (decide (k = 3 ∨ k = 4) && decide (Reg.ABC_ROD_CFG_INA.rd c 0 r = Reg.ABC_ROD_CFG_INB.rd c 0 r))
  if bad || (decide (Reg.ABC_BCAST_MASK.rd c 0 0 ≠ 0) && !s.isManager) then [0x15] else []

/-- The fields of a rod that reset it (R322). -/
def rodFields : List Field :=
  [Reg.ABC_ROD_CFG_KIND, Reg.ABC_ROD_CFG_INA, Reg.ABC_ROD_CFG_INB, Reg.ABC_ROD_CFG_INZ, Reg.ABC_PITCH,
   Reg.ABC_ROD_CFG_NET_ID]

/-- The reset of a rod at `t` (R322). It is no load: a doubt stays (R325). -/
def resetRod (s : State) (r : Nat) (t : Tm) : State :=
  let p := s.loadValue r
  ((s.setRod r { (default : RodState) with
    pos := p, te := t, vd := 1, edgePos := p, stopped := true, evalPos := p, evalT := t, doubt := (s.rod r).doubt }).showPos r).restMains

/-- What a commit of ABC does at time `t` besides the registers. -/
def abcCommit (s : State) (old : SMap Word) (t : Tm) : State :=
  let s := ((List.range 8).drop 1).foldl (fun s r =>
    if rodFields.any fun f => decide (f.rd old 0 r ≠ s.fld f 0 r) then s.resetRod r t else s) s
  (List.range 20).foldl (fun s i =>
    if Reg.ABC_IN_CFG_POL.rd old 0 i = s.fld Reg.ABC_IN_CFG_POL 0 i then s
    else
      let lv := !s.inLevel i
      let s := s.setInput i { s.input i with
        level := lv, hist := (t, lv) :: (s.input i).hist, activeSince := if lv then some t else none }
      let s := s.setFlag Reg.ABC_IN_STAT_LEVEL 0 i lv
      if lv then s else s.stuckEnd i) s

/-- The work of CTRL's WO bits on ABC (R316, R346). -/
def abcCtrl (s : State) (w : Word) : State :=
  ((List.range 8).drop 1).foldl (fun s r =>
    if bit w.toNat (8 + r) ∧ (s.rodKind r = 2 ∨ s.rodKind r = 3) then s.setRod r { s.rod r with loadReq := true } else s) s

end State

/-- INPUT_STUCK: an input has been active for STUCK × 100 ms (R329). -/
def execInputStuck (i : Fin 20) (s : State) : Host.Outcome State Fault Refusal :=
  let n := i.val
  let wait := 100 * s.fld Reg.ABC_IN_CFG_STUCK 0 n * msTm
  let ripe := match (s.input n).activeSince with
    | some t0 => decide (t0 + wait ≤ s.now)
    | none => false
  if !s.booted || !s.inLevel n || s.flag Reg.ABC_IN_STAT_STUCK 0 n || decide (wait = 0) || !ripe then
    .next s.finish
  else
    let s := (s.setFlag Reg.ABC_IN_STAT_STUCK 0 n true).orFld Reg.ABC_IN_STUCK_STUCK 0 0 (2 ^ n)
    let s := (s.fedRods n).foldl (fun s r => if s.follows then s else s.setDoubt r) s
    .next (s.raise .ABC 0 2 (n + 0x100) 0).finish

/-- MAINS_CROSSING: a rising zero crossing on MSENSE at `t`, timestamped to 10 ns (R319). -/
def execMainsCrossing (t : Tm) (s : State) : Host.Outcome State Fault Refusal :=
  if !s.booted || s.follows then .next s.finish
  else
    let t := t - t % (10 * Config.unitsPerNs)
    .next (((List.range 8).drop 1).foldl (fun s r =>
      let early := match (s.rod r).lastEvent with
        | some t0 => decide ((t - t0) * 65 < secTm)
        | none => false
      if s.rodKind r = 5 ∧ !early then s.mainsEdge r t else s) s).finish

/-- ROD_BROADCAST_TIMER (R321): one update for every rod of BCAST.MASK, with its POS and VEL now. -/
def execRodBroadcastTimer (s : State) : Host.Outcome State Fault Refusal :=
  if !s.booted || !s.isManager then .next s.finish
  else
    .next ((bitsOf 8 (s.fld Reg.ABC_BCAST_MASK)).foldl (fun s r =>
      let s := s.flushQuad r
      let q := s.rod r
      let p := if r = 0 then quotZ (((s.now : Int) - s.tim.anchor) * 0x10000) Config.baseUnits
        else q.at_ (s.rodKind r) (s.pitch r) s.now
      s.sendDown 0x31 6 (le 1 (s.fld Reg.ABC_ROD_CFG_NET_ID 0 r) ++ le 1 0 ++ le 6 (s.rodShown r p) ++
        le 4 (toField 32 q.vel) ++ le 4 s.nowNs)) s).finish

/-- ROD_FRESHNESS_CHANGE (R323). -/
def execRodFreshnessChange (rod : Fin 8) (s : State) : Host.Outcome State Fault Refusal :=
  .next (if s.booted && decide (rod.val ≠ 0) && !s.follows then (s.regrade rod.val s.now) else s).finish

end Sys2Proof.Machine
end

