-- ==== Sys2Proof/Machine/Cap.lean ====
section
/-!
DEFINITION. Capture units (R417 to R447): rings, occurrences and their acceptance, captures and their
records, the read port and the mark. A ring stands in DRAM at the place of R418. Carry takes the words of a
record as they are handed to it, so slots are held for a stream from the acceptance to the close.
-/
namespace Sys2Proof.Machine
namespace State

/-- What CAP keeps of a unit. -/
def capOf (s : State) (u : Nat) : CapState := s.cap.lookD u default

/-- Replace what CAP keeps of a unit. -/
def setCap (s : State) (u : Nat) (v : CapState) : State := { s with cap := s.cap.put u v }

/-- STATUS.STATE: 0 DISARMED, 1 ARMED, 2 CAPTURING, 3 REARM. -/
def capState (s : State) (u : Nat) : Nat := s.fld Reg.CAP_STATUS_STATE u

/-- STATUS.RING: 0 STOPPED, 1 WRITING, 2 PAUSED. -/
def ringState (s : State) (u : Nat) : Nat := s.fld Reg.CAP_STATUS_RING u

/-- C, NCH and D of a unit. -/
def ringC (s : State) (u : Nat) : Nat := s.fld Reg.CAP_RING_SLOTS_C u

/-- The channels of a unit, as positions of its group. -/
def capChans (s : State) (u : Nat) : List Nat := bitsOf 16 (s.fld Reg.CAP_CAP_CFG_CHAN u)

/-- The filter group of a unit. -/
def capGroup (s : State) (u : Nat) : Nat := s.fld Reg.CAP_CAP_CFG_GROUP u

/-- Decimation of the unit's group. -/
def capD (s : State) (u : Nat) : Nat := s.fld Reg.FLT_CHAIN_D (s.capGroup u)

/-- WR (R418). -/
def wr (s : State) (u : Nat) : Nat := s.fld64 Reg.CAP_WR_LO_WR Reg.CAP_WR_HI_WR u

/-- OLDEST = max(0, WR − C) (R418). -/
def oldest (s : State) (u : Nat) : Nat := s.wr u - s.ringC u

/-- RUN (R419). -/
def runW (s : State) (u : Nat) : Nat := s.fld64 Reg.CAP_RUN_LO_RUN Reg.CAP_RUN_HI_RUN u

/-- JRUN, 48 bits, signed as a grid slot may be. -/
def jrun (s : State) (u : Nat) : Int := sext 48 (s.fld64 Reg.CAP_JRUN_LO_JRUN Reg.CAP_JRUN_HI_JRUN u)

/-- Byte offset of word `c` of slot `w` in the DRAM (R418). -/
def ringAddr (s : State) (u w c : Nat) : Nat :=
  s.regionBase 2 + s.fld Reg.CAP_RING_BASE_BASE u * 4096 + (w % s.ringC u) * (s.capChans u).length * 4 + 4 * c

/-- Streams that carry the capture records of a unit. -/
def capStreams (s : State) (u : Nat) : List Nat :=
  (s.streamsOf 3).filter fun i => bit (s.fld Reg.CRY_S_SEL_CHAN 0 i) u

/-- The sample words of a list that carry P, the first of them word `base` of a record. -/
def pWords (base : Nat) (ws : List Word) : List Nat :=
  ((List.range ws.length).filter fun i => bit (ws.getD i 0).toNat 0).map (base + ·)

/-- Hand words of a unit's record to Carry: header, slots and trailer. -/
def feedCap (s : State) (u : Nat) (head body tail : List Word) : State :=
  (s.capStreams u).foldl (fun s i => s.feedStream i (head ++ body ++ tail) (pWords head.length body)) s

/-- EV_CAP_RING (R447). -/
def ringEvent (s : State) (u code hi : Nat) : State := s.raise .CAP u 3 code hi

/-- A ring word as it is delivered: V = 1, P = 1 and VALUE 0 where its codeword is bad (R422). -/
def ringWord (x : Word × Bool) : Word := if x.2 then x.1 else 0x00000081#32

/-- The words of `n` slots from `w` on as delivered, and whether all were good (R422). -/
def readSlots (s : State) (u w n : Nat) : State × List Word × Bool :=
  let as := (List.range n).flatMap fun i => (List.range (s.capChans u).length).map fun c => s.ringAddr u (w + i) c
  let r := dramWords as none s
  (r.1, r.2.map ringWord, r.2.all (·.2))

/-- Slots are held now (R434): the first write number held. -/
def heldFrom (s : State) (u : Nat) : List (Nat × Nat) :=
  let c := s.capOf u
  let cur : List (Nat × Nat) := match c.cap with
    | some r => if s.flag Reg.CAP_CAP_CFG_KEEP u || (!r.stream && !(s.capStreams u).isEmpty) then
        [(r.w0, 2 ^ 48)] else []
    | none => []
  c.keep ++ cur

/-- Bring STATUS.HELD up to date. -/
def showHeld (s : State) (u : Nat) : State := s.setFlag Reg.CAP_STATUS_HELD u 0 (decide (s.heldFrom u ≠ []))

/-- The next slot would be written over a held one (R435). -/
def ringBlocked (s : State) (u : Nat) : Bool :=
  decide (s.ringC u ≤ s.wr u) && (s.heldFrom u).any fun h => decide (h.1 ≤ s.wr u - s.ringC u ∧ s.wr u - s.ringC u < h.2)

/-! ### Arming (R429, R430) -/

/-- The cause for which an arm is refused on a configuration (R430): `streams` says whether a committed
stream carries the unit's records. -/
def armCause (c : SMap Word) (u : Nat) (streams : Bool) : Option Nat :=
  let a := Reg.CAP_PRE_A.rd c u 0
  let b := Reg.CAP_POST_B.rd c u 0
  let n := Reg.CAP_RING_SLOTS_C.rd c u 0
  if Reg.CAP_CAP_CFG_STREAM.rd c u 0 = 0 then (if n < a + b then some 0x10 else none)
  else if n ≤ a then some 0x10
  else if !streams then some 0x11
  else none

/-- An arm request with arming instant `t` (R429, R430). Answers the cause of a refusal. -/
def armUnit (s : State) (u : Nat) (t : Tm) : State × Option Nat :=
  if !s.flag Reg.CAP_CAP_CFG_EN u then (s, none)
  else match armCause s.regs u !(s.capStreams u).isEmpty with
    | some c => ((s.err .CAP u c).ringEvent u (4 + 0x100 * c) 0, some c)
    | none =>
      let st := s.capState u
      if st = 0 then ((s.setCap u { s.capOf u with tArm := t }).setFld Reg.CAP_STATUS_STATE u 0 1, none)
      else if st = 1 then (s, none)
      else (s.setFlag Reg.CAP_STATUS_PENDING u 0 true, none)

/-- DISARM (R429). -/
def disarmUnit (s : State) (u : Nat) : State :=
  let s := s.setFlag Reg.CAP_STATUS_PENDING u 0 false
  let s := s.setCap u { s.capOf u with armReq := false }
  if s.capState u = 1 then s.setFld Reg.CAP_STATUS_STATE u 0 0
  else if s.capState u = 0 then s
  else s.setCap u { s.capOf u with disarm := true }

/-- REARM ends (R433): ARMED with AUTO or a pending arm, and DISARMED otherwise. -/
def rearmEnds (s : State) (u : Nat) : State :=
  let c := s.capOf u
  let arm := s.flag Reg.CAP_STATUS_PENDING u || (s.flag Reg.CAP_CAP_CFG_AUTO u && !c.disarm)
  let s := s.setCap u { c with disarm := false, tArm := if arm then c.rearmArm else c.tArm }
  (s.setFlag Reg.CAP_STATUS_PENDING u 0 false).setFld Reg.CAP_STATUS_STATE u 0 (if arm then 1 else 0)

/-! ### Records (R436, R438, R439) -/

/-- The header of a record (R438 Table 3). -/
def capHeader (s : State) (u : Nat) (r : CapRun) : List Word :=
  let g := s.gridNs (r.jt * (s.capD u : Int))
  [w32 (4 + 0x100 * u + 0x1000 * b2n r.stream + 0x2000 * b2n r.prov + 0x10000 * r.seq),
   w32 (s.fld Reg.CAP_CAP_CFG_CHAN u + 0x10000 * s.capGroup u), w32 (s.capD u), w32 r.a, w32 r.b] ++
  nsWords (r.t / Config.unitsPerNs) ++ nsWords g ++
  [w32 (r.src + 8 * r.merged.foldl (fun m x => m ||| 2 ^ x) 0), w32 (toField 48 r.jt), w32 (toField 48 r.jt / 0x100000000)]

/-- The trailer of a record (R439 Table 4). -/
def capTrailer (c : CapState) (r : CapRun) (trunc : Bool) : List Word :=
  [0, w32 r.slots, w32 (b2n trunc + 2 * b2n r.hold + 4 * b2n r.disc + 8 * b2n r.poison + 16 * b2n c.pausedSince),
   w32 (min c.nIgn 0xFFFFFFFF), w32 c.ign.length] ++ c.ign.flatMap fun e => [w32 e.1, w32 (e.2.1 + 16 * e.2.2)]

/-- Words of one channel of a list of slots. -/
def column (nch c : Nat) (ws : List Word) : List Word :=
  if nch = 0 then [] else (List.range (ws.length / nch)).map fun i => ws.getD (i * nch + c) 0

/-- Place of a channel among those of a unit. -/
def chanIndex (l : List Nat) (p : Nat) : Nat := (l.takeWhile fun x => decide (x ≠ p)).length

/-- Poison is noted (R422). -/
def poisoned (s : State) (u : Nat) (good : Bool) : State := if good then s else s.ringEvent u 5 0

/-- A capture closes (R433, R436): its record is handed over, and the unit enters REARM. -/
def closeCapture (s : State) (u : Nat) (trunc : Bool) : State :=
  let c := s.capOf u
  match c.cap with
  | none => s
  | some r =>
    let nch := (s.capChans u).length
    let body : State × List Word × Bool := if r.stream then (s, [], true) else s.readSlots u r.w0 r.slots
    let s := body.1.poisoned u body.2.2
    let r := { r with poison := r.poison || !body.2.2 }
    let s := s.feedCap u (if r.stream then [] else s.capHeader u r) body.2.1 (capTrailer c r trunc)
    let n := s.fld Reg.TAL_PM_CHAN 0 u
    let map := if r.stream then r.mapWords else column nch (chanIndex (s.capChans u) (n % 16)) body.2.1
    let keep := if s.flag Reg.CAP_CAP_CFG_KEEP u then c.keep ++ [(r.w0, r.w0 + r.slots)] else c.keep
    let rearm := s.fld Reg.CAP_REARM_SLOTS u
    let last := r.jt + (r.b : Int) - 1
    let s := s.setCap u { c with
      cap := none, nIgn := 0, ign := [], ignTold := false, pausedSince := false, keep := keep
      rearmSlot := last + (rearm : Int), rearmArm := (s.gridT ((last + 1 + (rearm : Int)) * (s.capD u : Int))).toNat }
    let s := (s.setFld Reg.CAP_STATUS_STATE u 0 3).bump Reg.CAP_COUNTS_CAPTURES u 0
    let s := s.raise .CAP u 1 (r.seq + 0x10000 * b2n trunc + 0x20000 * b2n r.stream + 0x40000 * b2n r.poison) r.slots
    let s := (s.pmAdd u r.a r.b map).showHeld u
    if trunc ∨ rearm = 0 then s.rearmEnds u else s

/-- The run of a unit ends (R419): a capture in progress closes truncated. -/
def endRun (s : State) (u ring : Nat) : State :=
  let s := (s.setFld Reg.CAP_STATUS_RING u 0 ring).setCap u { s.capOf u with runEnd := none }
  s.closeCapture u true

/-- A run begins with the first slot at or after grid index `k` (R419). -/
def beginRun (s : State) (u : Nat) (k : Int) : State :=
  let s := (s.setFld Reg.CAP_STATUS_RING u 0 1).setCap u { s.capOf u with startAt := none, runEnd := none }
  let s := s.setFld64 Reg.CAP_RUN_LO_RUN Reg.CAP_RUN_HI_RUN u 0 (s.wr u)
  s.setFld64 Reg.CAP_JRUN_LO_JRUN Reg.CAP_JRUN_HI_JRUN u 0 (toField 48 (cdivI k (s.capD u)))

/-- A start at grid index `k`: at once, or once the slots of the stopped run are written. DESIGN CHOICE (log 149): a start
while the ring is WRITING or PAUSED has no effect; a paused ring starts its run by itself (R435). -/
def startRun (s : State) (u : Nat) (k : Int) : State :=
  if !s.flag Reg.CAP_CAP_CFG_EN u || decide (s.ringState u ≠ 0) then s
  else if (s.capOf u).runEnd.isSome then s.setCap u { s.capOf u with startAt := some k }
  else s.beginRun u k

/-- A stop: no slot after grid index `k` is written (R342, R419). -/
def stopRun (s : State) (u : Nat) (k : Int) : State :=
  let s := s.setCap u { s.capOf u with startReq := false, startAt := none }
  if s.ringState u = 2 then s.setFld Reg.CAP_STATUS_RING u 0 0
  else if s.ringState u = 0 then s
  else
    let d : Int := s.capD u
    let last := k / d
    let written := s.jrun u + ((s.wr u : Int) - s.runW u) - 1
    if last ≤ written then s.endRun u 0
    else (s.setFld Reg.CAP_STATUS_RING u 0 0).setCap u { s.capOf u with runEnd := some last }

/-! ### Slots -/

/-- The mark has been overtaken (R442). -/
def checkMark (s : State) (u : Nat) : State :=
  if s.flag Reg.CAP_STATUS_MARK_VALID u && decide ((s.capOf u).mark < s.oldest u) then
    (s.setFlag Reg.CAP_STATUS_MARK_VALID u 0 false).ringEvent u 1 (w32 (s.oldest u)).toNat
  else s

/-- The capture in progress takes slot `j`, just written with words `ws`. -/
def captureSlot (s : State) (u : Nat) (j : Int) (ws : List Word) : State :=
  match (s.capOf u).cap with
  | none => s
  | some r =>
    if j < r.jt - (r.a : Int) ∨ r.jt + (r.b : Int) ≤ j then s
    else
      let n := s.fld Reg.TAL_PM_CHAN 0 u
      let m := if r.stream then r.mapWords ++ [ws.getD (chanIndex (s.capChans u) (n % 16)) 0] else r.mapWords
      let s := s.setCap u { s.capOf u with cap := some { r with slots := r.slots + 1, mapWords := m } }
      let s := if r.stream then s.feedCap u [] ws [] else s
      if j = r.jt + (r.b : Int) - 1 then s.closeCapture u false else s

/-- One output slot of the unit's group (R418, R433, R435). -/
def capSlot (s : State) (u : Nat) (e : Emitted) : State :=
  let c := s.capOf u
  if s.ringState u = 2 then s.bumpSat Reg.CAP_PAUSED_SLOTS_SLOTS u 0
  else if s.ringState u = 0 ∧ c.runEnd.isNone then s
  else if e.j < s.jrun u then s
  else if s.ringBlocked u then
    let paused := fun (s : State) => s.setCap u { s.capOf u with pausedSince := true }
    let s := paused ((paused s).endRun u 2)
    (s.bumpSat Reg.CAP_PAUSED_SLOTS_SLOTS u 0).ringEvent u 2 0
  else
    let ws := (s.capChans u).map fun p => e.words.getD p 0
    let w := s.wr u
    let s := s.dramWrite (s.ringAddr u w 0) (wordsBytes ws)
    let s := s.setFld64 Reg.CAP_WR_LO_WR Reg.CAP_WR_HI_WR u 0 ((w + 1) % 2 ^ 48)
    let s := (s.setFld64 Reg.CAP_OLDEST_LO_OLDEST Reg.CAP_OLDEST_HI_OLDEST u 0 (s.oldest u)).checkMark u
    let s := s.captureSlot u e.j ws
    let s := if s.capState u = 3 ∧ (s.capOf u).rearmSlot ≤ e.j then s.rearmEnds u else s
    match (s.capOf u).runEnd with
    | some last =>
      if last ≤ e.j then
        let s := s.endRun u 0
        match (s.capOf u).startAt with
        | some k => s.beginRun u k
        | none => s
      else s
    | none => s

/-! ### Occurrences (R423 to R428, R431, R432) -/

/-- An occurrence reaches a unit. -/
def pushOcc (s : State) (u : Nat) (o : Occ) : State :=
  if s.flag Reg.CAP_CAP_CFG_EN u then s.setCap u { s.capOf u with occs := (s.capOf u).occs ++ [o] } else s

/-- The terms of unit `u` whose source and selection match have an occurrence at `t` (R423). -/
def unitOccs (s : State) (u src sel : Nat) (t : Tm) : State :=
  (List.range 4).foldl (fun s i =>
    if s.fld Reg.CAP_TERM_SRC u i = src ∧ s.fld Reg.CAP_TERM_SEL u i = sel then
      s.pushOcc u ⟨t, i, s.fld Reg.CAP_TERM_QUAL u i, s.fld Reg.CAP_TERM_QSEL u i⟩
    else s) s

/-- An occurrence of a term source reaches every unit (R423), and is remembered until the evaluation (R437). -/
def termOccs (s : State) (src sel : Nat) (t : Tm) : State :=
  (List.range 16).foldl (fun s u => s.unitOccs u src sel t)
    { s with abc := { s.abc with trigs := s.abc.trigs ++ [(src, sel, t)] } }

/-- A commit at `tk` has changed a unit's terms: the occurrences not before it are taken under the new ones (R437). -/
def rejudge (s : State) (u : Nat) (tk : Int) : State :=
  let c := s.capOf u
  let s := s.setCap u { c with occs := c.occs.filter fun o => decide (4 ≤ o.src ∨ (o.t : Int) < tk) }
  (s.abc.trigs.filter fun x => decide (tk ≤ (x.2.2 : Int))).foldl (fun s x => s.unitOccs u x.1 x.2.1 x.2.2) s

/-- The occurrences of an evaluation are done with (R426). -/
def dropTrigs (s : State) : State := { s with abc := { s.abc with trigs := [] } }

/-- Threshold changes are occurrences (R423 codes 1 and 2). -/
def thrOccs (s : State) (e : Emitted) : State :=
  e.changes.foldl (fun s c =>
    s.termOccs (if c.entered then 1 else 2) (16 * e.g + c.p + 0x100 * c.l) (s.gridT c.k0).toNat) s

/-- A network trigger (R427): dropped when its origin is this hub or its pair. -/
def networkTrigger (s : State) (id origin : Nat) (time : Word) : State :=
  if (s.hasAddr && decide (origin = s.addr)) || (s.hasAddr && decide (origin = s.sourceAddr)) then s
  else s.termOccs 5 id (extend32 s.nowNs time.toNat * Config.unitsPerNs)

/-- The threshold level of a qualifier after the last word at or before `t` (R423). -/
def levelAt (s : State) (qsel : Nat) (t : Tm) : Bool :=
  let g := qsel % 0x100 / 16
  let i := 2 * (qsel % 16) + qsel / 0x100
  match (s.fltOf g).levels.find? fun e => decide (s.gridT e.1 ≤ (t : Int)) with
  | some e => bit e.2 i
  | none => false

/-- The accepted level of TRIG input `i` at `t`. -/
def trigAt (s : State) (i : Nat) (t : Tm) : Bool :=
  match (s.input (16 + i % 4)).hist.find? fun e => decide (e.1 ≤ t) with
  | some e => e.2
  | none => false

/-- The qualifier of an occurrence holds (R423). -/
def qualHolds (s : State) (o : Occ) : Bool :=
  if o.qual = 0 then true
  else if o.qual = 1 then s.levelAt o.qsel o.t
  else if o.qual = 2 then !s.levelAt o.qsel o.t
  else if o.qual = 3 then s.trigAt o.qsel o.t
  else if o.qual = 4 then !s.trigAt o.qsel o.t
  else false

/-- The slot on which an occurrence is placed (R425): the nearest, the later on a tie. -/
def placeSlot (s : State) (u : Nat) (t : Tm) : Int :=
  let p : Int := (s.capD u : Int) * Config.baseUnits
  (2 * ((t : Int) - s.tim.anchor) + p) / (2 * p)

/-- An occurrence is ignored (R432). -/
def ignoreOcc (s : State) (u : Nat) (o : Occ) (reason : Nat) : State :=
  let c := s.capOf u
  let e := (o.t / Config.unitsPerNs % 0x100000000, reason, o.src)
  let told := c.ignTold
  let s := s.setCap u { c with
    nIgn := c.nIgn + 1, ign := if c.ign.length < 16 then c.ign ++ [e] else c.ign, ignTold := true }
  let s := s.bump Reg.CAP_COUNTS_IGNORED u 0
  if told then s else s.raise .CAP u 2 (reason + 16 * o.src) e.1

/-- A trigger is accepted on slot `j` (R427, R431, R436). -/
def acceptTrigger (s : State) (u : Nat) (o : Occ) (j : Int) : State :=
  let c := s.capOf u
  let a := s.fld Reg.CAP_PRE_A u
  let stream := s.flag Reg.CAP_CAP_CFG_STREAM u
  let w0 := ((s.runW u : Int) + (j - (a : Int) - s.jrun u)).toNat
  let b := s.fld Reg.CAP_POST_B u
  let done := min (s.wr u - w0) (a + b)
  let g := s.gridNs (j * (s.capD u : Int))
  let r : CapRun := {
    seq := c.seq, jt := j, a := a, b := b, stream := stream, t := o.t, src := o.src, merged := [], w0 := w0
    slots := done, mapWords := [], hold := s.chainHold, disc := false, poison := false, prov := s.chainProv }
  let s := (s.setCap u { c with cap := some r, seq := (c.seq + 1) % 0x10000 }).setFld Reg.CAP_STATUS_STATE u 0 2
  let s := s.setFld64 Reg.CAP_LAST_JT_LO_JT Reg.CAP_LAST_JT_HI_JT u 0 (toField 48 j)
  let s := s.raise .CAP u 0 (o.src + 0x10000 * r.seq) (w32 g).toNat
  let s := if s.flag Reg.CAP_TRIG_CFG_NET_OUT u && !s.follows then
      s.toManager 0x30 6 (le 1 (s.fld Reg.CAP_TRIG_CFG_NET_ID u) ++ le 1 0 ++ le 2 s.sourceAddr ++
        le 4 (o.t / Config.unitsPerNs))
    else s
  let s := if stream then
      let b := s.readSlots u w0 done
      let m := column (s.capChans u).length (chanIndex (s.capChans u) (s.fld Reg.TAL_PM_CHAN 0 u % 16)) b.2.1
      let s := b.1.poisoned u b.2.2
      let s := s.feedCap u (s.capHeader u r) b.2.1 []
      s.setCap u { s.capOf u with cap := some { r with mapWords := m, poison := !b.2.2 } }
    else s
  let s := s.showHeld u
  if done = a + b then s.closeCapture u false else s

/-- One occurrence is handled (R431). -/
def handleOcc (s : State) (u : Nat) (o : Occ) : State :=
  let st := s.capState u
  let c := s.capOf u
  if !s.qualHolds o || decide (st = 0) then s
  else
    let j := s.placeSlot u o.t
    let a : Int := s.fld Reg.CAP_PRE_A u
    let jold := s.jrun u + max 0 ((s.oldest u : Int) - s.runW u)
    let same := match c.cap with
      | some r => decide (r.jt = j)
      | none => false
    if decide (st = 2) && same then
      let put := c.cap.map fun r => { r with merged := r.merged ++ [o.src] }
      s.setCap u { c with cap := put }
    else if st = 2 then s.ignoreOcc u o 4
    else if st = 3 then s.ignoreOcc u o 5
    else if o.t < c.tArm then s.ignoreOcc u o 3
    else if s.ringState u = 0 then s.ignoreOcc u o 6
    else if s.ringState u = 2 then s.ignoreOcc u o 7
    else if j - a < s.jrun u then s.ignoreOcc u o 1
    else if j - a < jold then s.ignoreOcc u o 2
    else s.acceptTrigger u o j

/-- Insert an occurrence in ascending time, then source (R426). -/
def insOcc (o : Occ) : List Occ → List Occ
  | [] => [o]
  | x :: t => if o.t < x.t ∨ (o.t = x.t ∧ o.src < x.src) then o :: x :: t else x :: insOcc o t

/-- The evaluation of a unit (R426). -/
def capEval (s : State) (u : Nat) : State :=
  let c := s.capOf u
  if c.occs = [] then s
  else
    let l := c.occs.foldl (fun acc o => insOcc o acc) []
    let s := s.setCap u { c with occs := [] }
    if s.flag Reg.CAP_CAP_CFG_EN u then l.foldl (fun s o => s.handleOcc u o) s else s

/-- The requests of a unit that fall due at grid index `k` (R419, R424, R429), and HOLD (R439). -/
def capDue (s : State) (u : Nat) (k : Int) : State :=
  let c := s.capOf u
  let t := (s.gridT k).toNat
  let s := if c.armReq ∨ c.trigReq ∨ c.startReq then
      s.setCap u { c with armReq := false, trigReq := false, startReq := false } else s
  let s := if c.startReq then s.startRun u k else s
  let s := if c.armReq then (s.armUnit u t).1 else s
  let s := if c.trigReq then s.pushOcc u ⟨t, 5, 0, 0⟩ else s
  if s.chainHold ∧ (s.capOf u).cap.isSome then
    s.setCap u { s.capOf u with cap := (s.capOf u).cap.map fun r => { r with hold := true } }
  else s

/-- The re-anchoring ends the run of a unit, with DISC (R419, R437), at the grid index `new` to which the indices have moved
by `d`. A start that waits for the slots of the run before it begins there; a REARM ends as many slots later. -/
def capReanchor (s : State) (u : Nat) (d new : Int) : State :=
  let c := s.capOf u
  let D : Int := s.capD u
  let s := s.setCap u { c with
    cap := c.cap.map fun r => { r with disc := true }
    rearmSlot := if D = 0 then c.rearmSlot else (c.rearmSlot * D + d) / D }
  let s := if s.ringState u = 1 ∨ c.runEnd.isSome then s.endRun u 0 else s
  if c.startAt.isSome then s.beginRun u new else s

/-! ### The read port (R440 to R442) -/

/-- Move the read position to a slot and a word. -/
def setRead (s : State) (u slot word : Nat) : State :=
  (s.setFld64 Reg.CAP_RD_LO_SLOT Reg.CAP_RD_HI_SLOT u 0 slot).setFld Reg.CAP_RD_HI_WORD u 0 word

/-- A read of RD_DATA (R440, R442). -/
def rdData (s : State) (u : Nat) : State × Word :=
  let slot := s.fld64 Reg.CAP_RD_LO_SLOT Reg.CAP_RD_HI_SLOT u
  let word := s.fld Reg.CAP_RD_HI_WORD u
  let s := (s.setFlag Reg.CAP_STATUS_RD_EMPTY u 0 false).setFlag Reg.CAP_STATUS_RD_ERR u 0 false
  if !s.flag Reg.CAP_STATUS_MARK_VALID u then (s.setFlag Reg.CAP_STATUS_RD_ERR u 0 true, 0)
  else if s.wr u ≤ slot then (s.setFlag Reg.CAP_STATUS_RD_EMPTY u 0 true, 0)
  else
    let r := s.dramWord (s.ringAddr u slot word)
    let s := r.1.poisoned u r.2.2
    let s := if word + 1 < (s.capChans u).length then s.setRead u slot (word + 1) else s.setRead u (slot + 1) 0
    (s, ringWord r.2)

/-- A write to MARK_LO (R441). -/
def markWrite (s : State) (u : Nat) (w : Word) : State :=
  let v := w.toNat + 0x100000000 * s.fld Reg.CAP_MARK_HI_MARK u
  if s.oldest u ≤ v ∧ v ≤ s.wr u then
    let s := (s.setFld Reg.CAP_MARK_LO_MARK u 0 w.toNat).setRead u v 0
    let s := s.setCap u { s.capOf u with mark := v }
    (s.setFlag Reg.CAP_STATUS_MARK_VALID u 0 true).setFlag Reg.CAP_STATUS_RD_ERR u 0 false
  else s.err .CAP u 0x18

/-- MARK_HERE (R441). -/
def markHere (s : State) (u : Nat) : State :=
  let slot := s.fld64 Reg.CAP_RD_LO_SLOT Reg.CAP_RD_HI_SLOT u
  if s.oldest u ≤ slot then
    (s.setFld64 Reg.CAP_MARK_LO_MARK Reg.CAP_MARK_HI_MARK u 0 slot).setCap u { s.capOf u with mark := slot }
  else s.err .CAP u 0x18

/-- REWIND (R441, R442). -/
def rewind (s : State) (u : Nat) : State :=
  if s.flag Reg.CAP_STATUS_MARK_VALID u then
    s.setRead u (s.capOf u).mark 0
  else s.err .CAP u 0x17

/-- The work of CTRL's WO bits on CAP[u] (R444). -/
def capCtrl (s : State) (u : Nat) (w : Word) : State :=
  let n := w.toNat
  let s := if bit n 8 then s.setCap u { s.capOf u with armReq := true } else s
  let s := if bit n 9 then s.disarmUnit u else s
  let s := if bit n 10 then s.setCap u { s.capOf u with trigReq := true } else s
  let s := if bit n 11 then (s.setCap u { s.capOf u with keep := [] }).showHeld u else s
  let s := if bit n 12 then s.setCap u { s.capOf u with startReq := true } else s
  let s := if bit n 13 then s.stopRun u s.chainK else s
  let s := if bit n 14 then s.rewind u else s
  if bit n 15 then s.markHere u else s

/-! ### Commits (R420, R421, R430, R437, R446) -/

/-- The fields whose change reconfigures a ring (R420). -/
def ringFields : List Field :=
  [Reg.CAP_CAP_CFG_GROUP, Reg.CAP_CAP_CFG_CHAN, Reg.CAP_RING_BASE_BASE, Reg.CAP_RING_SLOTS_C]

/-- A field of unit `u` differs between two configurations. -/
def capDiffers (a b : SMap Word) (u : Nat) (fs : List Field) : Bool := fs.any fun f => decide (f.rd a u 0 ≠ f.rd b u 0)

/-- Streams that carry a unit's records in a configuration. -/
def capStreamsIn (c : SMap Word) (u : Nat) : Bool :=
  (List.range 64).any fun i => decide (Reg.CRY_S_CFG_EN.rd c 0 i ≠ 0 ∧ Reg.CRY_S_CFG_SRC.rd c 0 i = 3) &&
    bit (Reg.CRY_S_SEL_CHAN.rd c 0 i) u

/-- First byte and one past the last of a ring in a configuration. -/
def ringSpan (c : SMap Word) (u : Nat) : Nat × Nat :=
  let b := Reg.CAP_RING_BASE_BASE.rd c u 0 * 4096
  (b, b + Reg.CAP_RING_SLOTS_C.rd c u 0 * popcount 16 (Reg.CAP_CAP_CFG_CHAN.rd c u 0) * 4)

/-- A selection is in the range of its code: 9 bits for a level, 2 for an input, 8 for an identity (R423). -/
def selOk (code sel : Nat) (input : Bool) : Bool :=
  if input then decide (sel < 4) else decide (code ≠ 5 ∨ sel < 0x100)

/-- The commit checks of CAP[u] on a configuration (R421, R430, R437, R446). -/
def capChecks (s : State) (c : SMap Word) (u : Nat) : List Nat :=
  let en := decide (Reg.CAP_CAP_CFG_EN.rd c u 0 ≠ 0)
  let armed := decide (s.capState u = 1) || s.flag Reg.CAP_STATUS_PENDING u || decide (Reg.CAP_CAP_CFG_AUTO.rd c u 0 ≠ 0)
  let span := ringSpan c u
  let region := Reg.MEM_CAP_MIB_MIB.rd c 0 0 * 0x100000
  let laps := (List.range 16).any fun v => decide (v ≠ u) && decide (Reg.CAP_CAP_CFG_EN.rd c v 0 ≠ 0) &&
    decide (span.1 < (ringSpan c v).2 ∧ (ringSpan c v).1 < span.2)
  let g := Reg.CAP_CAP_CFG_GROUP.rd c u 0
  let busy := (capDiffers s.regs c u ringFields && (decide (s.ringState u = 1) || decide (s.heldFrom u ≠ []))) ||
    (capDiffers s.regs c u [Reg.CAP_PRE_A, Reg.CAP_POST_B, Reg.CAP_CAP_CFG_STREAM] && decide (s.capState u = 2))
  let term := (List.range 4).any fun i =>
    let src := Reg.CAP_TERM_SRC.rd c u i
    let q := Reg.CAP_TERM_QUAL.rd c u i
    decide (5 < src ∨ 4 < q) || !selOk src (Reg.CAP_TERM_SEL.rd c u i) (decide (src = 3 ∨ src = 4)) ||
      !selOk 0 (Reg.CAP_TERM_QSEL.rd c u i) (decide (q = 3 ∨ q = 4))
  (if en && decide (Reg.CAP_CAP_CFG_CHAN.rd c u 0 = 0) then [0x07] else []) ++
  (if armed then (armCause c u (capStreamsIn c u)).toList else []) ++
  (if en && decide (region < span.2) then [0x12] else []) ++ (if en && laps then [0x13] else []) ++
  (if en && decide (Reg.FLT_CHAIN_EN.rd c g 0 = 0) then [0x14] else []) ++
  (if busy then [0x15] else []) ++ (if term then [0x16] else [])

/-- The fields of the terms of a unit (R437). -/
def termsDiffer (a b : SMap Word) (u : Nat) : Bool :=
  (List.range 4).any fun i => [Reg.CAP_TERM_SRC, Reg.CAP_TERM_SEL, Reg.CAP_TERM_QUAL, Reg.CAP_TERM_QSEL].any fun f =>
    decide (f.rd a u i ≠ f.rd b u i)

/-- What a commit of CAP[u] at grid index `k` does besides the registers (R419, R420, R434, R437). A reconfigured ring keeps
the requests that fall due with the commit. -/
def capCommit (s : State) (old : SMap Word) (u : Nat) (k : Int) : State :=
  let s := if termsDiffer old s.regs u || capDiffers old s.regs u [Reg.CAP_CAP_CFG_EN] then s.rejudge u (s.gridT k) else s
  let s := if s.flag Reg.CAP_CAP_CFG_KEEP u then s else s.setCap u { s.capOf u with keep := [] }
  let s := if Reg.CAP_CAP_CFG_EN.rd old u 0 ≠ 0 ∧ !s.flag Reg.CAP_CAP_CFG_EN u ∧
      (s.ringState u ≠ 0 ∨ (s.capOf u).runEnd.isSome) then s.endRun u 0 else s
  if !capDiffers old s.regs u ringFields then s
  else
    let c := s.capOf u
    let s := s.setCap u { (default : CapState) with
      seq := c.seq, nIgn := c.nIgn, ign := c.ign, ignTold := c.ignTold, pausedSince := c.pausedSince, occs := c.occs
      armReq := c.armReq, trigReq := c.trigReq, startReq := c.startReq }
    let s := ((s.setFld Reg.CAP_STATUS_STATE u 0 0).setFld Reg.CAP_STATUS_RING u 0 0).setFlag Reg.CAP_STATUS_PENDING u 0 false
    let s := (s.setFld64 Reg.CAP_WR_LO_WR Reg.CAP_WR_HI_WR u 0 0).setFld64 Reg.CAP_OLDEST_LO_OLDEST Reg.CAP_OLDEST_HI_OLDEST u 0 0
    let s := (s.setFld64 Reg.CAP_RUN_LO_RUN Reg.CAP_RUN_HI_RUN u 0 0).setFld64 Reg.CAP_MARK_LO_MARK Reg.CAP_MARK_HI_MARK u 0 0
    ((s.setFlag Reg.CAP_STATUS_MARK_VALID u 0 true).setRead u 0 0).showHeld u

end State

/-- INPUT_EDGE: the level of an input ball is accepted at `t` (R327, R328); TRIG0 to TRIG3 are capture terms. -/
def execInputEdge (i : Fin 20) (level : Bool) (t : Tm) (s : State) : Host.Outcome State Fault Refusal :=
  if !s.booted then .next s.finish
  else
    let r := s.inputEdge i.val level t
    .next (match r.2 with
      | some lv =>
        let s1 := if i.val < 16 ∨ r.1.follows then r.1 else r.1.termOccs (if lv then 3 else 4) (i.val - 16) t
        s1.sendTwEvents (s1.tim.k + 1) [.edge (Fin.ofNat 22 i.val) lv (t / Config.unitsPerNs)]
      | none => r.1).finish

/-- RING_RESUME (R435): nothing held blocks the next write, and a run starts at the next output slot. -/
def execRingResume (u : Fin 16) (s : State) : Host.Outcome State Fault Refusal :=
  if s.ringState u.val = 2 ∧ !s.ringBlocked u.val then
    let d : Int := s.capD u.val
    let next := (s.slotAt (s.capGroup u.val) s.chainK + 1) * d
    .next ((s.beginRun u.val next).ringEvent u.val 3 (s.fld Reg.CAP_PAUSED_SLOTS_SLOTS u.val)).finish
  else .next s.finish

end Sys2Proof.Machine
end

