-- ==== Sys2Proof/Machine/Codec.lean ====
section
/-!
DEFINITION. Segments and frames (R448 to R465, R475 to R478): the residue coder, the dictionary coder, raw
frames, and the decoder with every check of R477 in the order of R476. They are functions of words and
bytes alone.
-/
namespace Sys2Proof.Machine

/-! ### Bits (R450) -/

/-- The low `n` bits of `v`, most significant first. -/
def msbBits : Nat → Nat → List Bool
  | 0, _ => []
  | n + 1, v => v.testBit n :: msbBits n v

/-- The number whose bits are `l`, most significant first. -/
def ofBits (l : List Bool) : Nat := l.foldl (fun a b => 2 * a + b2n b) 0

/-- Pack bits into `n` bytes, the first bit into bit 7; missing bits are 0. -/
def packBits : Nat → List Bool → List Byte
  | 0, _ => []
  | n + 1, l => BitVec.ofNat 8 (ofBits ((List.range 8).map fun i => l.getD i false)) :: packBits n (l.drop 8)

/-- The bits of bytes. -/
def unpackBits (bs : List Byte) : List Bool := bs.flatMap fun b => msbBits 8 b.toNat

/-- Bytes padded with zero bytes to a multiple of 4. -/
def pad4 (bs : List Byte) : List Byte := bs ++ List.replicate ((4 - bs.length % 4) % 4) 0

/-! ### The Golomb–Rice code (R459) -/

/-- The running sum and count of a position. -/
structure Rice where
  a : Nat
  n : Nat
deriving DecidableEq, Repr, Inhabited

/-- The parameter of the next code: the least k up to 24 with N × 2^k ≥ A. -/
def Rice.k (r : Rice) : Nat := ((List.range 24).find? fun k => decide (r.a ≤ r.n * 2 ^ k)).getD 24

/-- The state after a code. -/
def Rice.step (r : Rice) (u : Nat) : Rice :=
  if r.n + 1 = 64 then ⟨(r.a + u) / 2, 32⟩ else ⟨r.a + u, r.n + 1⟩

/-- The code of `u` under parameter `k`. -/
def riceCode (k u : Nat) : List Bool :=
  let q := u / 2 ^ k
  if 32 ≤ q then List.replicate 32 true ++ msbBits 27 u
  else List.replicate q true ++ [false] ++ msbBits k u

/-- Number of 1 bits before the next 0 bit, stopping at `n`, and what follows; `none` when the bits end. -/
def leadingOnes : Nat → List Bool → Option (Nat × List Bool)
  | 0, l => some (0, l)
  | _ + 1, [] => none
  | _ + 1, false :: l => some (0, l)
  | n + 1, true :: l => (leadingOnes n l).map fun p => (p.1 + 1, p.2)

/-- Read a code under parameter `k`. -/
def readRice (k : Nat) (l : List Bool) : Option (Nat × List Bool) :=
  match leadingOnes 32 l with
  | none => none
  | some (q, rest) =>
    let n := if q = 32 then 27 else k
    if rest.length < n then none
    else some ((if q = 32 then 0 else q * 2 ^ k) + ofBits (rest.take n), rest.drop n)

/-- u of a residue, and back (R458). -/
def foldSign (r : Int) : Nat := if 0 ≤ r then (2 * r).toNat else (-2 * r - 1).toNat

/-- The residue of a code. -/
def unfoldSign (u : Nat) : Int := if u % 2 = 0 then (u / 2 : Nat) else -((u + 1) / 2 : Nat)

/-! ### The residue coder (R457, R461) -/

/-- x − pt down a column, with ORDER `o`, from slot `t` on with the two values before (R458). -/
def predErrs (o : Nat) : Nat → Int → Int → List Int → List Int
  | _, _, _, [] => []
  | t, x1, x2, x :: xs =>
    let j := min o t
    let pt := if j = 0 then 0 else if j = 1 then x1 else 2 * x1 - x2
    (x - pt) :: predErrs o (t + 1) x x1 xs

/-- Σ|e|. -/
def absSum (l : List Int) : Nat := (l.map Int.natAbs).sum

/-- The first value of a list with the least cost. -/
def argmin (cost : Nat → Nat) : List Nat → Nat
  | [] => 0
  | x :: t => t.foldl (fun b y => if cost y < cost b then y else b) x

/-- The residues of a position for a weight, from its own errors and its neighbour's. -/
def residues (w : Nat) (own near : List Int) : List Int :=
  (own.zip near).map fun p => p.1 - (w : Int) * p.2 / 4

/-- What R461 decides for a position. -/
structure ColPlan where
  order : Nat
  weight : Nat
  k0 : Nat
  us : List Nat
deriving DecidableEq, Repr, Inhabited

/-- Runs of equal tag bytes. -/
def tagRuns : List Nat → List (Nat × Nat)
  | [] => []
  | x :: t => match tagRuns t with
    | (y, n) :: r => if x = y then (y, n + 1) :: r else (x, 1) :: (y, n) :: r
    | [] => [(x, 1)]

/-- Slot `t` of a frame of `nch` channels, in words. -/
def slotsOf (nch : Nat) : Nat → List Word → List (List Word)
  | 0, _ => []
  | n + 1, ws => ws.take nch :: slotsOf nch n (ws.drop nch)

/-- The plan of every position (R461 steps 1 to 3). -/
def colPlans (nch : Nat) (map : List Nat) (slots : List (List Word)) : List ColPlan :=
  let cols := (List.range nch).map fun c => slots.map fun x => wordValue (x.getD c 0)
  let best := cols.map fun col =>
    let o := argmin (fun o => absSum (predErrs o 0 0 0 col)) [0, 1, 2]
    (o, predErrs o 0 0 0 col)
  (List.range nch).map fun c =>
    let b := best.getD c (0, [])
    let m := map.getD c 0
    let near := (best.getD (c - m) (0, [])).2
    let w := if m = 0 then 0 else argmin (fun w => absSum (residues w b.2 near)) [0, 1, 2, 3, 4]
    let us := (residues w b.2 near).map foldSign
    let k0 := ((List.range 24).find? fun k => decide (us.sum ≤ slots.length * 2 ^ k)).getD 24
    ⟨b.1, w, k0, us⟩

/-- The codes of slot after slot, by ascending position. -/
def riceSlots : List Rice → List (List Nat) → List Bool
  | _, [] => []
  | sts, us :: rest =>
    ((sts.zip us).flatMap fun p => riceCode p.1.k p.2) ++ riceSlots ((sts.zip us).map fun p => p.1.step p.2) rest

/-- The payload of a coded residue frame (R457), with TAGS_UNIFORM and TAGBYTE. -/
def residuePayload (nch : Nat) (map : List Nat) (ws : List Word) : List Byte × Bool × Nat :=
  let slots := slotsOf nch (ws.length / nch) ws
  let ps := colPlans nch map slots
  let runs := tagRuns (ws.map wordTags)
  let uniform := decide (runs.length ≤ 1)
  let table := ps.flatMap fun p => [BitVec.ofNat 8 (p.order + 4 * p.weight), BitVec.ofNat 8 p.k0]
  let tags := if uniform then [] else
    [BitVec.ofNat 8 runs.length, BitVec.ofNat 8 (runs.length / 0x100)] ++ runs.flatMap fun r =>
      [BitVec.ofNat 8 r.1, BitVec.ofNat 8 r.2, BitVec.ofNat 8 (r.2 / 0x100)]
  let bits := riceSlots (ps.map fun p => ⟨2 ^ p.k0, 1⟩)
    ((List.range slots.length).map fun t => ps.map fun p => p.us.getD t 0)
  (pad4 (table ++ tags ++ packBits (cdiv bits.length 8) bits), uniform,
    if uniform then (runs.head?.map (·.1)).getD 0 else 0)

/-! ### The dictionary coder (R463 to R465) -/

/-- The frame bears out a match at `pos` of `l` words from `d` words back. -/
def matchHolds (ws : List Word) (pos d l : Nat) : Bool :=
  decide (1 ≤ d ∧ d ≤ 16384 ∧ d ≤ pos ∧ 2 ≤ l ∧ l ≤ 262145 ∧ pos + l ≤ ws.length) &&
    (List.range l).all fun i => decide (ws.getD (pos + i) 0 = ws.getD (pos + i - d) 0)

/-- The items of a frame from `pos` on: whether a match, and the item's word (R463 Table 6). -/
def dictItems (ws : List Word) : Nat → Nat → List (Bool × Word)
  | 0, _ => []
  | n + 1, pos =>
    if ws.length ≤ pos then []
    else
      match Config.dictChoice ws pos with
      | some (d, l) =>
        if matchHolds ws pos d l then (true, w32 (d - 1 + 0x4000 * (l - 2))) :: dictItems ws n (pos + l)
        else (false, ws.getD pos 0) :: dictItems ws n (pos + 1)
      | none => (false, ws.getD pos 0) :: dictItems ws n (pos + 1)

/-- Groups of up to 32 items, each after its control word. -/
def dictGroups : Nat → List (Bool × Word) → List Word
  | 0, _ => []
  | n + 1, l =>
    if l = [] then []
    else
      let g := l.take 32
      w32 (ofBits (g.map (·.1)).reverse) :: g.map (·.2) ++ dictGroups n (l.drop 32)

/-- The payload of a coded dictionary frame. -/
def dictPayload (ws : List Word) : List Byte :=
  let items := dictItems ws ws.length 0
  wordsBytes (dictGroups items.length items)

/-! ### Frames and segments (R451 to R455) -/

/-- A coded frame: its bytes, and whether it is raw. -/
structure CodedFrame where
  bytes : List Byte
  raw : Bool
deriving DecidableEq, Repr, Inhabited

/-- A raw frame (R455). -/
def rawFrame (ws : List Word) : CodedFrame :=
  ⟨wordsBytes [w32 (4 * ws.length + 0x1000000), w32 (4 * ws.length), 0] ++ wordsBytes ws, true⟩

/-- One frame (R452, R455): `raw` when the engine is raw-only or the frame fails its check. -/
def codeFrame (method nch : Nat) (map : List Nat) (raw : Bool) (ws : List Word) : CodedFrame :=
  if raw then rawFrame ws
  else
    let p := if method = 1 then residuePayload nch map ws else (dictPayload ws, false, 0)
    if 4 * ws.length ≤ p.1.length then rawFrame ws
    else ⟨wordsBytes [w32 (p.1.length + 0x2000000 * b2n p.2.1), w32 (4 * ws.length), w32 p.2.2] ++ p.1, false⟩

/-- Words of a full frame of a profile (R448). -/
def Prof.frameWords (p : Prof) (nch : Nat) : Nat := if p.method = 1 then p.fslots * nch else p.fkib * 256

/-- Words at which a segment closes by its limit (R454): SEG_KIB or 65,535 frames, in whole slots. -/
def Prof.segWords (p : Prof) (nch : Nat) : Nat :=
  let unit := if p.method = 1 then nch else 1
  min (p.segKib * 256 / unit * unit) (65535 * p.frameWords nch)

/-- Cut words into pieces of `n`. -/
def chunks (n : Nat) : Nat → List Word → List (List Word)
  | 0, _ => []
  | fuel + 1, ws => if ws = [] ∨ n = 0 then [] else ws.take n :: chunks n fuel (ws.drop n)

/-- The map that a segment carries, one byte per position; empty without a map. -/
def Prof.segMap (p : Prof) (nch : Nat) : List Nat :=
  if p.mapOn ∧ p.method = 1 then (List.range nch).map fun i => p.map.getD i 0 else []

/-- One segment: its bytes, its frames, and how many of them are raw. `bad` says which frames fail their
check (R478). -/
def codeSegment (p : Prof) (nch : Nat) (rawOnly : Bool) (bad : Nat → Bool) (flushed : Bool) (ws : List Word) :
    List Byte × Nat × Nat :=
  let n := if p.method = 1 then nch else 0
  let map := p.segMap nch
  let parts := chunks (p.frameWords nch) ws.length ws
  let fs := (List.range parts.length).map fun i => codeFrame p.method nch map (rawOnly || bad i) (parts.getD i [])
  let body := pad4 (map.map fun b => BitVec.ofNat 8 b) ++ fs.flatMap (·.bytes)
  let head := [BitVec.ofNat 8 p.method, 1#8, BitVec.ofNat 8 (b2n flushed + 2 * b2n (decide (map ≠ []))), 0#8,
    BitVec.ofNat 8 fs.length, BitVec.ofNat 8 (fs.length / 0x100), BitVec.ofNat 8 n, BitVec.ofNat 8 (n / 0x100)]
  (head ++ wordBytes (w32 (4 * ws.length)) ++ wordBytes (w32 (16 + body.length)) ++ body,
    fs.length, (fs.filter (·.raw)).length)

/-- Frame `n` of a segment exists and the engine stores it coded (R455, R478). -/
def frameCoded (p : Prof) (nch : Nat) (rawOnly : Bool) (n : Nat) (ws : List Word) : Bool :=
  match (chunks (p.frameWords nch) ws.length ws)[n]? with
  | some x => !(codeFrame p.method nch (p.segMap nch) rawOnly x).raw
  | none => false

/-- The bound of R456 for an input of `n` words. -/
def Prof.bound (p : Prof) (nch n : Nat) : Nat :=
  let f := p.frameWords nch
  16 + (if p.mapOn ∧ p.method = 1 then 4 * cdiv nch 4 else 0) + 12 * (if f = 0 then 0 else cdiv n f) + 4 * n

/-! ### The decoder (R475 to R477) -/

/-- A decode error: RESULT, and the byte offset in the segment (R476). -/
abbrev DecErr := Nat × Nat

/-- Byte `a` of a segment. -/
def byteAt (seg : List Byte) (a : Nat) : Nat := (seg.getD a 0).toNat

/-- Two little-endian bytes. -/
def halfAt (seg : List Byte) (a : Nat) : Nat := byteAt seg a + 0x100 * byteAt seg (a + 1)

/-- A little-endian word. -/
def wordAt (seg : List Byte) (a : Nat) : Nat := halfAt seg a + 0x10000 * halfAt seg (a + 2)

/-- The frame of a segment in which the byte at `off` stands, frame `n` beginning at `p` (R453); every header before `off` is
good. -/
def frameFrom (seg : List Byte) (off : Nat) : Nat → Nat → Nat → Nat
  | 0, _, n => n
  | fuel + 1, p, n =>
    let stop := p + 12 + wordAt seg p % 0x1000000
    if off < p + 4 ∨ off < stop then n else frameFrom seg off fuel stop (n + 1)

/-- The frame of a segment in which the byte at `off` stands; the segment's header and map count with the first. -/
def frameAt (seg : List Byte) (off : Nat) : Nat :=
  frameFrom seg off seg.length (16 + (if bit (halfAt seg 2) 1 then 4 * cdiv (halfAt seg 6) 4 else 0)) 0

/-- Copy `n` words from `d` back, onto an output that stands newest first (R464). -/
def copyBack (d : Nat) : Nat → List Word → List Word
  | 0, out => out
  | n + 1, out => copyBack d n (out.getD (d - 1) 0 :: out)

/-- Read the items of a dictionary frame of `nw` words (R463, R464): `cpos` and `ctl` are the place of the
control word and what is left of it, `i` the items read of the group. Answers where reading stopped, and the
output newest first. -/
def readItems (seg : List Byte) (lim nw : Nat) : Nat → Nat → Nat → Nat → Nat → List Word → Except DecErr (Nat × List Word)
  | 0, pos, _, _, _, _ => .error (4, pos)
  | fuel + 1, pos, cpos, ctl, i, out =>
    if out.length = nw then (if ctl = 0 then .ok (pos, out) else .error (2, cpos))
    else if lim < pos + 4 then .error (4, pos)
    else
      let w := wordAt seg pos
      if i = 32 then readItems seg lim nw fuel (pos + 4) pos w 0 out
      else if ctl % 2 = 0 then readItems seg lim nw fuel (pos + 4) cpos (ctl / 2) (i + 1) (w32 w :: out)
      else
        let d := w % 0x4000 + 1
        let l := w / 0x4000 + 2
        if out.length < d then .error (3, pos)
        else if nw < out.length + l then .error (4, pos)
        else readItems seg lim nw fuel (pos + 4) cpos (ctl / 2) (i + 1) (copyBack d l out)

/-- Decode a coded dictionary frame whose payload stands from `p` to `stop`. -/
def readDict (seg : List Byte) (p stop nw : Nat) : Except DecErr (List Word) := do
  let r ← readItems seg (min stop seg.length) nw (seg.length + 2) p p 0 32 []
  if r.1 < stop then .error (2, r.1) else .ok r.2.reverse

/-- One position of a slot being read: the bits left, the values and errors of the positions so far. -/
structure SlotRead where
  bits : List Bool
  xs : List Int
  es : List Int
  sts : List Rice
deriving Inhabited

/-- Read a slot (R458, R459): `o`, `w` and `m` are ORDER, WEIGHT and MAP by position; `x1` and `x2` the two
slots before. -/
def readSlotCodes (o w m : List Nat) (stop t : Nat) (sts : List Rice) (x1 x2 : List Int) (bits : List Bool) :
    Except DecErr SlotRead :=
  (List.range o.length).foldlM (fun (a : SlotRead) c =>
    let st := sts.getD c default
    let place := stop - cdiv a.bits.length 8
    match readRice st.k a.bits with
    | none => .error (4, place)
    | some (u, rest) =>
      let j := min (o.getD c 0) t
      let pt := if j = 0 then 0 else if j = 1 then x1.getD c 0 else 2 * x1.getD c 0 - x2.getD c 0
      let mc := m.getD c 0
      let cross := if mc = 0 then 0 else (w.getD c 0 : Int) * a.es.getD (c - mc) 0 / 4
      let x := pt + cross + unfoldSign u
      if x < -8388608 ∨ 8388607 < x then .error (2, place)
      else .ok ⟨rest, a.xs ++ [x], a.es ++ [x - pt], a.sts ++ [st.step u]⟩) ⟨bits, [], [], []⟩

/-- Read `n` slots from slot `t` on: the values in word order, and the bits left. -/
def readSlots (o w m : List Nat) (stop : Nat) : Nat → Nat → List Rice → List Int → List Int → List Bool →
    Except DecErr (List Int × List Bool)
  | 0, _, _, _, _, bits => .ok ([], bits)
  | n + 1, t, sts, x1, x2, bits => do
    let r ← readSlotCodes o w m stop t sts x1 x2 bits
    let rest ← readSlots o w m stop n (t + 1) r.sts r.xs x1 r.bits
    .ok (r.xs ++ rest.1, rest.2)

/-- Read the runs of a tag list (R457). -/
def readRuns (seg : List Byte) (lim nw : Nat) : Nat → Nat → List Nat → Except DecErr (List Nat × Nat)
  | 0, pos, tags => .ok (tags, pos)
  | n + 1, pos, tags =>
    if lim < pos + 3 then .error (4, pos)
    else
      let r := halfAt seg (pos + 1)
      if r = 0 ∨ 4096 < r ∨ nw < tags.length + r then .error (2, pos + 1)
      else readRuns seg lim nw n (pos + 3) (tags ++ List.replicate r (byteAt seg pos))

/-- The tag bytes of a residue frame's words, and where the bitstream starts. -/
def readTags (seg : List Byte) (q lim nw : Nat) (uniform : Bool) (tag : Nat) : Except DecErr (List Nat × Nat) :=
  if uniform then .ok (List.replicate nw tag, q)
  else if lim < q + 2 then .error (4, q)
  else
    let n := halfAt seg q
    if n = 0 ∨ 4096 < n then .error (2, q)
    else do
      let r ← readRuns seg lim nw n (q + 2) []
      if r.1.length = nw then .ok r else .error (2, q)

/-- Decode a coded residue frame whose payload stands from `p` to `stop` (R457 to R460). -/
def readResidue (seg : List Byte) (p stop nw nch : Nat) (map : List Nat) (uniform : Bool) (tag : Nat) :
    Except DecErr (List Word) := do
  let lim := min stop seg.length
  for c in List.range nch do
    let a := p + 2 * c
    if lim < a + 2 then .error (4, a)
    let b0 := byteAt seg a
    let b1 := byteAt seg (a + 1)
    if 32 ≤ b0 ∨ b0 % 4 = 3 ∨ 4 < b0 / 4 % 8 ∨ (b0 / 4 % 8 ≠ 0 ∧ map.getD c 0 = 0) then .error (2, a)
    if 24 < b1 then .error (2, a + 1)
  let q := p + 2 * nch
  let tags ← readTags seg q lim nw uniform tag
  let o := (List.range nch).map fun c => byteAt seg (p + 2 * c) % 4
  let w := (List.range nch).map fun c => byteAt seg (p + 2 * c) / 4 % 8
  let m := (List.range nch).map fun c => map.getD c 0
  let sts : List Rice := (List.range nch).map fun c => ⟨2 ^ byteAt seg (p + 2 * c + 1), 1⟩
  let bits := unpackBits ((seg.drop tags.2).take (lim - tags.2))
  let r ← readSlots o w m lim (nw / nch) 0 sts [] [] bits
  if r.2.any id then
    let zeros := (r.2.takeWhile fun b => !b).length
    .error (2, lim - cdiv (r.2.length - zeros) 8)
  .ok ((r.1.zip tags.1).map fun x => w32 (toField 24 x.1 * 0x100 + x.2))

/-- Decode `n` frames from `p` on, the first of them number `f`: the words, and where the last one ends.
`left` is what is left of the segment's RAWLEN. An error carries the frame it was found in. -/
def readFrames (seg : List Byte) (res : Bool) (nch : Nat) (map : List Nat) : Nat → Nat → Nat → Nat →
    Except (Nat × DecErr) (List Word × Nat)
  | 0, _, p, left => if left = 0 then .ok ([], p) else .error (0, 2, 8)
  | n + 1, f, p, left =>
    let fail (code at_ : Nat) : Except (Nat × DecErr) (List Word × Nat) := .error (f, code, at_)
    if seg.length < p + 12 then fail 4 p
    else
      let w0 := wordAt seg p
      let len := wordAt seg (p + 4)
      let w2 := wordAt seg (p + 8)
      let coded := w0 % 0x1000000
      let raw := bit w0 24
      let uni := bit w0 25
      let fits := if res then decide (0 < len ∧ len ≤ 16384 ∧ len % (4 * nch) = 0)
        else decide (4 ≤ len ∧ len ≤ 262144 ∧ len % 4 = 0)
      if 0x4000000 ≤ w0 ∨ (uni ∧ (raw ∨ !res)) then fail 2 (p + 3)
      else if raw ∧ coded ≠ 4 * cdiv len 4 then fail 2 p
      else if !fits ∨ left < len then fail 2 (p + 4)
      else if n = 0 ∧ len ≠ left then fail 2 (p + 4)
      else if w2 % 0x100 ≠ 0 ∧ !uni then fail 2 (p + 8)
      else if 0x100 ≤ w2 then fail 2 (p + 9)
      else
        let stop := p + 12 + coded
        let one : Except DecErr (List Word) :=
          if raw then
            (if seg.length < stop then .error (4, seg.length) else .ok (bytesWords (len / 4) (seg.drop (p + 12))))
          else if res then readResidue seg (p + 12) stop (len / 4) nch map uni (w2 % 0x100)
          else readDict seg (p + 12) stop (len / 4)
        match one with
        | .error e => fail e.1 e.2
        | .ok ws =>
          match readFrames seg res nch map n (f + 1) stop (left - len) with
          | .error e => .error e
          | .ok r => .ok (ws ++ r.1, r.2)

/-- Decode a segment under an output limit (R476): its words, or the frame, the RESULT and the offset. -/
def readSegment (seg : List Byte) (limit : Nat) : Except (Nat × DecErr) (List Word) :=
  let fail (code at_ : Nat) : Except (Nat × DecErr) (List Word) := .error (0, code, at_)
  let method := byteAt seg 0
  let res := decide (method = 1)
  let flags := halfAt seg 2
  let nch := halfAt seg 6
  let len := wordAt seg 8
  let mapBytes := if bit flags 1 then 4 * cdiv nch 4 else 0
  if seg.length < 16 then fail 4 seg.length
  else if method ≠ 1 ∧ method ≠ 2 then fail 2 0
  else if byteAt seg 1 ≠ 1 then fail 2 1
  else if limit < len then fail 5 8
  else if 4 ≤ flags ∨ (bit flags 1 ∧ !res) then fail 2 2
  else if halfAt seg 4 = 0 then fail 2 4
  else if (res ∧ (nch = 0 ∨ 256 < nch)) ∨ (!res ∧ nch ≠ 0) then fail 2 6
  else if wordAt seg 12 ≠ seg.length then fail 2 12
  else if seg.length < 16 + mapBytes then fail 4 seg.length
  else
    match (List.range mapBytes).find? fun i => decide ((if i < nch then i else 0) < byteAt seg (16 + i)) with
    | some i => fail 2 (16 + i)
    | none =>
      let map := (List.range nch).map fun i => if i < mapBytes then byteAt seg (16 + i) else 0
      match readFrames seg res nch map (halfAt seg 4) 0 (16 + mapBytes) len with
      | .error e => .error e
      | .ok r => if r.2 = seg.length then .ok r.1 else fail 2 12

end Sys2Proof.Machine
end

