-- ==== Sys2Proof/Machine/Check.lean ====
section
/-!
DEFINITION. The comparison of a Sorrel pair (R596 to R601): check values that meet their counterpart,
verdicts, mismatches and the start of a self-check. Blocks and control intervals hand their check values
over here; Machine/Twn.lean has the commands.
-/
namespace Sys2Proof.Machine
namespace State

/-- TWN.STATUS.ROLE (R584). -/
def role (s : State) : Nat := s.fld Reg.TWN_STATUS_ROLE

/-- What drives the shared-drive balls from their cells (R683): EXTEST or CLAMP on a hub with STRAP_PAIR = 1,
while DRIVE_MON is low. When both members rise within 1 µs, the one with STRAP_TWIN = 0 goes on (R68). -/
def refreshTestDrive (s : State) : State :=
  let ir := s.fld Reg.DBG_STATUS_IR
  let wants := s.pins.testen && s.sys.straps.pair && decide (ir = 3 ∨ ir = 4)
  let first := s.dbg.testDrive && !s.sys.straps.twin && decide (s.life ≤ s.dbg.testAt + 1000 * Config.unitsPerNs)
  let was := s.dbg.testDrive
  let on := wants && (!s.pins.driveMon || first)
  { s with dbg := { s.dbg with testDrive := on, testAt := if on && !was then s.life else s.dbg.testAt } }

/-- A TW_CHECK or TW_VERDICT entry (R590 Table 3). -/
def checkEntry (control : Bool) (stream n : Nat) (crc : Word) (verdict : Nat) : List Byte :=
  le 1 (if control then 2 else 1) ++ le 1 stream ++ le 1 verdict ++ zeroBytes 1 ++ le 4 n ++ le 4 crc.toNat ++ zeroBytes 4

/-- The digital self-check of a mismatch has its decision to make (R599, R604): it takes the place of one that the host
asked for and of an analog check, and of no other. -/
def selfGoesOn (s : State) (analog host : Bool) : Bool :=
  match s.twn.selfRun with
  | none => false
  | some r => analog || host || !(r.analog || r.host)

/-- Begin a self-check (R601). -/
def startSelf (s : State) (analog host : Bool) (ch : Nat) : State :=
  if s.selfGoesOn analog host then s
  else
    let r : SelfRun := { (default : SelfRun) with analog := analog, chan := ch, host := host }
    let s := { s with twn := { s.twn with selfRun := some r } }
    let s := if analog then s.setFld Reg.TWN_SELF_CHANNEL 0 0 ch else s
    (s.setFlag Reg.TWN_STATUS_CHECKING 0 0 true)

/-- A digital mismatch (R599): sending is held back until the decision, and the self-check runs. -/
def digitalMismatch (s : State) (control : Bool) (stream n : Nat) (missing : Bool) : State :=
  let s := (s.bump Reg.TWN_COUNTS_MISMATCH 0 0).raise .TWN 0 1 (stream + 0x40 * b2n control + 0x80 * b2n missing) n
  ({ s with twn := { s.twn with heldBack := true } }).startSelf false false 0

/-- The standby has both values of a block or interval (R597). -/
def settleCheck (s : State) (control : Bool) (stream n : Nat) (own got : Word) : State :=
  let ok := decide (own = got)
  let s := s.sendTwin 0x43 (checkEntry control stream n got (if ok then 0 else 1))
  if ok then s.bump Reg.TWN_CHECKED 0 0 else s.digitalMismatch control stream n false

/-- The two records are of one block or interval. -/
def sameCheck (r : TwCheckRec) (control : Bool) (stream n : Nat) : Bool :=
  decide (r.control = control ∧ r.stream = stream ∧ r.n = n)

/-- The member has closed a block or a control interval (R596, R597). -/
def ownCheck (s : State) (control : Bool) (stream n : Nat) (crc : Word) : State :=
  if s.leads then s.sendTwin 0x42 (checkEntry control stream n crc 0)
  else if s.sys.straps.pair ∧ s.role = 2 then
    match s.twn.got.find? fun r => sameCheck r control stream n with
    | some r =>
      let got := s.twn.got.filter fun x => !sameCheck x control stream n
      ({ s with twn := { s.twn with got := got } }).settleCheck control stream n crc r.crc
    | none => { s with twn := { s.twn with own := s.twn.own ++ [⟨control, stream, n, crc, s.life⟩] } }
  else s

/-- A TW_CHECK entry has arrived (R597). -/
def gotCheck (s : State) (e : TwCheckMsg) : State :=
  let n := e.n.toNat
  match s.twn.own.find? fun r => sameCheck r e.control e.stream.val n with
  | some r =>
    let own := s.twn.own.filter fun x => !sameCheck x e.control e.stream.val n
    ({ s with twn := { s.twn with own := own } }).settleCheck e.control e.stream.val n r.crc e.crc
  | none => { s with twn := { s.twn with got := s.twn.got ++ [⟨e.control, e.stream.val, n, e.crc, s.life⟩] } }

end State
end Sys2Proof.Machine
end

