-- ==== Sys2Proof/Machine/Cry.lean ====
section
/-!
DEFINITION. Carry (R484 to R520): the input of the streams, the close of a block, its place in spill, the
degradation levels, gap blocks and gap records, acknowledgement and replay, the queues, and what a manager
keeps of its sources. Blocks are held as structures; Machine/Cmp.lean codes the segments that they wait for.
-/
namespace Sys2Proof.Machine

/-! ### Blocks (R491, R492) -/

/-- The header of a block (R491 Table 2), with its CRC. -/
def Block.header (b : Block) : List Word :=
  let ws := [
    w32 (b.stream + 0x100 + 0x10000 * b.srcCode + 0x100000 * b.method + 0x1000000 * b.gen), w32 b.source,
    w32 b.bseq, w32 (b.bseq / 0x100000000 % 0x10000 + 0x10000 * min b.span 0xFFFF),
    w32 b.first, w32 (b.first / 0x100000000 % 0x10000), w32 b.firstNs, w32 (min b.count 0xFFFFFFFF), w32 b.mask,
    w32 b.flags, w32 (4 * b.payload.length), w32 b.d, w32 b.tagOr, b.session, 0]
  ws ++ [crc32c (wordsBytes ws ++ wordsBytes b.payload)]

/-- The words of a block as it is sent. -/
def Block.words (b : Block) : List Word := if b.raw = [] then b.header ++ b.payload else b.raw

/-- The CRC that a block carries. -/
def Block.crc (b : Block) : Word := b.header.getD 15 0

/-- A block may be sent: its segments are coded, and it no longer grows. -/
def Block.complete (b : Block) : Bool := decide (b.segsLeft = 0) && !b.growing

/-- A gap block (R507). -/
def Block.isGap (b : Block) : Bool := bit b.flags 5

/-- REASON of a gap block. -/
def Block.reason (b : Block) : Nat := b.flags / 0x40 % 8

/-- The number after a block. -/
def Block.stop (b : Block) : Nat := b.bseq + b.span

/-! ### Segments of a block (R454, R473, R493) -/

/-- The segments of a block's input from word `x` on: start, length, FLUSHED and profile. `cur` is profile
`idx` as it is now and `profs` the profiles that commits have replaced; `cuts` are the flushes. -/
def segmentsFrom (cur : Prof) (idx nch total : Nat) (profs : List (Nat × Nat × Prof)) (cuts : List Nat) :
    Nat → Nat → List (Nat × Nat × Bool × Prof)
  | 0, _ => []
  | n + 1, x =>
    if total ≤ x then []
    else
      let p := match profs.find? fun e => decide (x < e.1 ∧ e.2.1 = idx) with
        | some e => e.2.2
        | none => cur
      let lim := x + max 1 (p.segWords nch)
      let cut := (cuts.find? fun c => decide (x < c)).getD total
      let stop := min lim (min cut total)
      (x, stop - x, decide (stop ≠ lim), p) :: segmentsFrom cur idx nch total profs cuts n stop

namespace State

/-- Number of channels per slot of a stream: 1 for a record stream. -/
def streamNch (s : State) (i : Nat) : Nat :=
  if s.fld Reg.CRY_S_CFG_SRC 0 i = 1 then popcount 16 (s.fld Reg.CRY_S_SEL_CHAN 0 i) else 1

/-- The stream carries filter outputs. -/
def isFilter (s : State) (i : Nat) : Bool := decide (s.fld Reg.CRY_S_CFG_SRC 0 i = 1)

/-- The stream carries a source. DESIGN CHOICE (log 150): one enabled with SRC = 0 (R484 Table 1) builds no block. -/
def carries (s : State) (i : Nat) : Bool := decide (s.fld Reg.CRY_S_CFG_SRC 0 i ≠ 0)

/-- The stream is kept (R485). -/
def isKept (s : State) (i : Nat) : Bool := s.flag Reg.CRY_S_CFG_KEPT 0 i

/-- NEXT: the next number to be sent. -/
def nextOf (s : State) (i : Nat) : Nat := s.fld64 Reg.CRY_S_NEXT_LO_N Reg.CRY_S_NEXT_HI_N 0 i

/-- Set NEXT. -/
def setNext (s : State) (i n : Nat) : State := s.setFld64 Reg.CRY_S_NEXT_LO_N Reg.CRY_S_NEXT_HI_N 0 i n

/-- ACKED: the lowest unacknowledged number. -/
def ackedOf (s : State) (i : Nat) : Nat := s.fld64 Reg.CRY_S_ACKED_LO_A Reg.CRY_S_ACKED_HI_A 0 i

/-- Set ACKED. -/
def setAcked (s : State) (i n : Nat) : State := s.setFld64 Reg.CRY_S_ACKED_LO_A Reg.CRY_S_ACKED_HI_A 0 i n

/-- The member builds blocks uncompared (R615). -/
def uncompared (s : State) : Bool := s.sys.straps.pair && decide (s.role = 3)

end State

/-- Profile `p` of engine `e` in a register file. -/
def profIn (m : SMap Word) (e p : Nat) : Prof :=
  { method := Reg.CMP_PROF_METHOD.rd m e p, verify := decide (Reg.CMP_PROF_VERIFY.rd m e p ≠ 0)
    mapOn := decide (Reg.CMP_PROF_MAP_EN.rd m e p ≠ 0), fslots := Reg.CMP_PROF_FSLOTS.rd m e p
    fkib := Reg.CMP_PROF_FKIB.rd m e p, segKib := Reg.CMP_PROF_SEG_KIB.rd m e p
    map := (List.range 256).map fun i => Reg.CMP_MAP.rd m e (64 * p + i / 4) / 2 ^ (8 * (i % 4)) % 0x100 }

/-! ### Worst-case sizes (R501) -/

/-- W of a stream in a configuration: the largest of its raw form and of every profile it may use. -/
def worstBlock (m : SMap Word) (i : Nat) : Nat :=
  let filter := decide (Reg.CRY_S_CFG_SRC.rd m 0 i = 1)
  let size := Reg.CRY_S_BLOCK_SIZE.rd m 0 i
  let nch := if filter then popcount 16 (Reg.CRY_S_SEL_CHAN.rd m 0 i) else 1
  let p := if filter then 4 * size * nch else size * 1024
  let e := Reg.CRY_S_CFG_ENGINE.rd m 0 i
  let coded := fun (x : Nat) =>
    let q := profIn m e x
    let g := if q.method = 1 then cdiv size (max 1 (q.segKib * 256 / max 1 nch)) else cdiv p (max 1 (q.segKib * 1024))
    let f := (if q.method = 1 then cdiv size (max 1 q.fslots) else cdiv p (max 1 (q.fkib * 1024))) + g - 1
    64 + g * (16 + 4 * cdiv nch 4 * b2n (q.mapOn && decide (q.method = 1))) + 12 * f + p
  let a := if Reg.CRY_S_CFG_COMP.rd m 0 i ≠ 0 then coded (Reg.CRY_S_CFG_PROF.rd m 0 i) else 0
  let b := if Reg.CRY_S_CFG_FB_EN.rd m 0 i ≠ 0 then coded (Reg.CRY_S_CFG_FB_PROF.rd m 0 i) else 0
  max (64 + p) (max a b)

/-- Block time of a filter stream in units of 2⁻² ns (R488): SIZE × D × 3,906.25 ns. -/
def blockTime (m : SMap Word) (i : Nat) : Nat :=
  Reg.CRY_S_BLOCK_SIZE.rd m 0 i * Reg.FLT_CHAIN_D.rd m (Reg.CRY_S_SEL_GROUP.rd m 0 i) 0 * 15625

/-- R_s of a stream in a configuration, in bytes. -/
def reserveBytes (m : SMap Word) (i : Nat) : Nat :=
  let o := Reg.CRY_S_OUTAGE_MS.rd m 0 i
  let n :=
    if Reg.CRY_S_CFG_SRC.rd m 0 i = 1 then 4 * o * 1000000 / max 1 (blockTime m i) + 2
    else o / 1000 + cdiv (Reg.CRY_S_RATE_BPS.rd m 0 i * o) (1000 * max 1 (Reg.CRY_S_BLOCK_SIZE.rd m 0 i * 1024)) + 2
  n * worstBlock m i

namespace State

/-! ### Spill (R500) -/

/-- Bytes of spill that the blocks of a list take in a part. -/
def partBytes (bs : List Block) (p : SpillPart) : Nat :=
  ((bs.filter fun b => decide (b.part = p)).map (·.size)).sum

/-- Bytes of a part taken by every stream. -/
def usedBytes (s : State) (p : SpillPart) : Nat := (s.cry.streams.map fun e => partBytes e.2.blocks p).sum

/-- Streams that are enabled or draining. -/
def liveStreams (s : State) : List Nat :=
  (List.range 64).filter fun i => s.flag Reg.CRY_S_CFG_EN 0 i || s.flag Reg.CRY_S_STATE_DRAINING 0 i

/-- The spill region, in bytes. -/
def spillBytes (s : State) : Nat := s.regionBase 2 - s.regionBase 1

/-- The gap reserve, in bytes. -/
def gapBytes (s : State) : Nat := s.fld Reg.CRY_GAP_CFG_KIB * 1024

/-- The forward reserve, in bytes. -/
def fwdBytes (s : State) : Nat := s.fld Reg.CRY_FWD_CFG_MIB * 0x100000

/-- Reserves in force, in 4 KiB units. -/
def reserved (s : State) : Nat := (s.liveStreams.map fun i => s.fld Reg.CRY_S_RESERVE_RES 0 i).sum

/-- The shared pool: the rest of the spill region. -/
def poolBytes (s : State) : Nat := s.spillBytes - 4096 * s.reserved - s.gapBytes - s.fwdBytes

/-- Pool occupancy in percent; an empty pool is full. -/
def poolPercent (s : State) : Nat :=
  if s.poolBytes = 0 then 100 else s.usedBytes .pool * 100 / s.poolBytes

/-- Enabled streams. -/
def enabledStreams (s : State) : List Nat := (List.range 64).filter fun i => s.flag Reg.CRY_S_CFG_EN 0 i

/-- Bytes of the gap reserve in use: gap blocks, blocks of the gap-record stream and its open input. -/
def gapUsed (s : State) : Nat :=
  s.usedBytes .gap + ((s.streamsOf 5).map fun i => 4 * (s.stream i).buf.length).sum

/-- The rest of the gap reserve has room for one more gap block and record (R509). -/
def gapRoom (s : State) : Bool := decide (s.gapUsed + 96 ≤ s.gapBytes - 96 * s.enabledStreams.length)

/-- Bring USED, RESERVED, POOL_FREE and GAPFULL up to date. -/
def refreshSpill (s : State) : State :=
  let s := s.liveStreams.foldl (fun s i =>
    let bytes := ((s.stream i).blocks.map (·.size)).sum
    s.setFld Reg.CRY_S_USED_USED 0 i (cdiv bytes 4096)) s
  let s := (s.setFld Reg.CRY_SPILL_SIZE_SIZE 0 0 (s.spillBytes / 4096)).setFld Reg.CRY_RESERVED_RES 0 0 s.reserved
  let s := s.setFld Reg.CRY_POOL_FREE_FREE 0 0 ((s.poolBytes - s.usedBytes .pool) / 4096)
  if s.gapRoom then { s.setFlag Reg.CRY_STATUS_GAPFULL 0 0 false with cry := { s.cry with gapFullTold := false } }
  else s

/-! ### Levels (R504) -/

/-- STATUS.LEVEL is the highest level of any stream. -/
def showLevel (s : State) : State :=
  s.setFld Reg.CRY_STATUS_LEVEL 0 0 ((s.liveStreams.map fun i => s.fld Reg.CRY_S_STATE_LEVEL 0 i).foldl max 0)

/-- SHED holds. -/
def shed (s : State) : Bool := s.flag Reg.CRY_STATUS_SHED

/-- EV_CRY_LEVEL. -/
def levelEvent (s : State) (i new old : Nat) : State :=
  s.raise .CRY 0 16 (i + 0x40 * new + 0x200 * old + 0x1000 * b2n s.shed) s.poolPercent

/-- SHED as it is now: while any kept stream is OVER; a member that follows takes it from the levels. -/
def settleShed (s : State) (i : Nat) : State :=
  let now := s.liveStreams.any fun j => s.isKept j &&
    (if s.follows then decide (s.fld Reg.CRY_S_STATE_LEVEL 0 j ≠ 0) else s.flag Reg.CRY_S_STATE_OVER 0 j)
  if now = s.shed then s
  else
    let s := s.setFlag Reg.CRY_STATUS_SHED 0 0 now
    let mark := fun (e : Nat × StreamState) => (e.1, { e.2 with shed := e.2.shed || now })
    let s := { s with cry := { s.cry with streams := s.cry.streams.map mark } }
    let l := s.fld Reg.CRY_S_STATE_LEVEL 0 i
    s.levelEvent i l l

/-- Take a level into force at a block boundary; the active tells its twin (R593). -/
def setLevel (s : State) (i l : Nat) : State :=
  let old := s.fld Reg.CRY_S_STATE_LEVEL 0 i
  if l = old then s
  else
    let s := ((s.setFld Reg.CRY_S_STATE_LEVEL 0 i l).showLevel).levelEvent i l old
    let n := (s.stream i).nextBseq
    let s := s.sendTwEvents (s.tim.k + 1) [.level (Fin.ofNat 64 i) (Fin.ofNat 5 l) (w32 n)]
    if s.follows then s.settleShed i else s

/-- The level whose condition holds, without level 4; a condition that has held must fail by 5 points. -/
def wantLevel (s : State) (i : Nat) : Nat :=
  if !s.flag Reg.CRY_S_STATE_OVER 0 i then 0
  else
    let cur := s.fld Reg.CRY_S_STATE_LEVEL 0 i
    let holds := fun (t l : Nat) => decide (t ≤ s.poolPercent) || (decide (l ≤ cur) && decide (t < s.poolPercent + 5))
    if s.flag Reg.CRY_S_CFG_SUM_EN 0 i && holds (s.fld Reg.CRY_DEGRADE_T3) 3 then 3
    else if s.flag Reg.CRY_S_CFG_FB_EN 0 i && holds (s.fld Reg.CRY_DEGRADE_T2) 2 then 2
    else 1

/-- The level of a stream at a block boundary. -/
def boundaryLevel (s : State) (i : Nat) : State :=
  if s.uncompared then s.setLevel i 0
  else if s.follows then
    let st := s.stream i
    match st.levelDue.filter fun e => decide (e.1 ≤ st.nextBseq) with
    | [] => s
    | l =>
      let put := { st with levelDue := st.levelDue.filter fun e => !decide (e.1 ≤ st.nextBseq) }
      (s.setStream i put).setLevel i ((l.getLast?.map (·.2)).getD 0)
  else s.setLevel i (s.wantLevel i)

/-- The outage of a stream now, in ns (R50, R108, R616). DESIGN CHOICE (log 129): R50 speaks of the oldest unacknowledged
block, and the block still open is not counted as one. -/
def outageNs (s : State) (i : Nat) : Nat :=
  let st := s.stream i
  match st.blocks with
  | [] => 0
  | b :: _ => s.lifeNs - st.outageFrom.getD b.firstLife

/-- OVER sets or clears, and SHED with it (R504). -/
def settleOver (s : State) (i : Nat) : State :=
  if !s.isKept i ∨ s.follows ∨ s.uncompared then s
  else
    let now := decide (s.fld Reg.CRY_S_OUTAGE_MS 0 i * 1000000 < s.outageNs i)
    if now = s.flag Reg.CRY_S_STATE_OVER 0 i then s
    else
      let ms := min (s.outageNs i / 1000000) 0xFFFFFFFF
      ((s.setFlag Reg.CRY_S_STATE_OVER 0 i now).raise .CRY 0 18 (i + 0x40 * b2n now) ms).settleShed i

/-! ### Gap blocks and gap records (R507 to R509) -/

/-- A gap record (R508 Table 6). -/
def gapRecord (s : State) (i reason : Nat) (merged : Bool) (gen source span : Nat) (r : LossRun) : State :=
  if s.uncompared then s
  else
    let ws := [w32 (5 + 0x100 * i + 0x10000 * reason + 0x80000 * b2n merged + 0x1000000 * gen), w32 source,
      w32 r.bseq, w32 (r.bseq / 0x100000000 % 0x10000 + 0x10000 * span), w32 r.first,
      w32 (r.first / 0x100000000 % 0x10000), w32 (min r.count 0xFFFFFFFF), w32 r.ns]
    (s.feedAll 5 ws).raise .CRY 0 17 (i + 0x40 * reason + 0x200 * b2n merged) (w32 r.bseq).toNat

/-- The blocks of a stream replaced. -/
def setBlocks (s : State) (i : Nat) (bs : List Block) : State := s.setStream i { s.stream i with blocks := bs }

/-- A block is complete: its check value goes to the comparison (R596). -/
def blockDone (s : State) (b : Block) : State := s.ownCheck false b.stream b.bseq b.crc

/-- The growing gap block of a stream closes, and its record is written. -/
def closeGap (s : State) (i : Nat) : State :=
  match (s.stream i).blocks.getLast? with
  | some b =>
    if b.growing then
      let done := { b with growing := false }
      let s := s.setBlocks i ((s.stream i).blocks.dropLast ++ [done])
      let merged := bit b.flags 9
      let s := s.gapRecord i b.reason merged b.gen b.source (if merged then 0xFFFF else b.span)
        ⟨b.bseq, b.span, b.first, b.count, b.firstNs⟩
      s.blockDone done
    else s
  | none => s

/-- A run of summary blocks ends (R508). -/
def closeSummary (s : State) (i : Nat) : State :=
  let st := s.stream i
  match st.sumRun with
  | some r => (s.setStream i { st with sumRun := none }).gapRecord i 5 false
      (s.fld Reg.CRY_S_STATE_GEN 0 i) s.sourceAddr (min r.span 0xFFFF) r
  | none => s

/-- Count lost numbers and slots. -/
def countLoss (s : State) (i numbers n : Nat) : State :=
  (s.bump Reg.CRY_S_LOST_BLOCKS_BLOCKS 0 i numbers).bumpSat Reg.CRY_S_LOST_SAMPLES_SAMPLES 0 i n

/-- PROV, HOLD, DISC and LAST of a block, which a gap block that stands for it keeps (R491 Table 3). -/
def timeFlags (b : Block) : Nat := b.flags &&& 0x807

/-- A gap block stands for a block that is not kept. -/
def gapOf (b : Block) (reason : Nat) (growing : Bool) : Block :=
  { b with method := 0, flags := 0x20 + 0x40 * reason + timeFlags b, payload := [], tagOr := 0, part := .gap, segsLeft := 0
           coded := [], size := 64, growing := growing }

/-- A gap block has reached its limits (R507): 1 s of samples, or 65,535 numbers. -/
def gapFull (s : State) (b : Block) : Bool :=
  decide (65535 ≤ b.span) ||
    (if b.srcCode = 1 then decide (256000 ≤ b.count * b.d) else decide (b.firstLife + 1000000000 ≤ s.lifeNs))

/-- A block that is not kept joins a gap block (R504, R505, R507, R509). -/
def addLoss (s : State) (i reason : Nat) (b : Block) : State :=
  let s := (s.countLoss i 1 b.count).closeSummary i
  let bs := (s.stream i).blocks
  let last := bs.getLast?
  let grows := match last with
    | some x => x.growing && decide (x.reason = reason)
    | none => false
  let extend := fun (x : Block) (flags : Nat) =>
    { x with span := x.span + 1, count := x.count + b.count, flags := flags ||| timeFlags b }
  if grows then
    let x := (last.map fun x => extend x x.flags).getD b
    let s := s.setBlocks i (bs.dropLast ++ [x])
    if s.gapFull x && !bit x.flags 9 then s.closeGap i else s
  else
    let s := s.closeGap i
    let bs := (s.stream i).blocks
    let merges := !s.gapRoom && (match bs.getLast? with
      | some x => x.isGap
      | none => false)
    let s := if s.gapRoom then s
      else
        let s := s.setFlag Reg.CRY_STATUS_GAPFULL 0 0 true
        if s.cry.gapFullTold then s
        else ({ s with cry := { s.cry with gapFullTold := true } }).raise .CRY 0 23 0 (s.fld Reg.CRY_GAP_CFG_KIB)
    if merges then
      let x := (bs.getLast?.map fun x => { extend x (x.flags ||| 0x200) with growing := true }).getD b
      s.setBlocks i (bs.dropLast ++ [x])
    else s.setBlocks i (bs ++ [gapOf b reason true])

/-- A kept block becomes a gap block in its place (R505, R508). -/
def replaceByGap (s : State) (i bseq reason : Nat) : State :=
  match (s.stream i).blocks.find? fun b => decide (b.bseq = bseq) with
  | none => s
  | some b =>
    let g := gapOf b reason false
    let s := s.setBlocks i ((s.stream i).blocks.map fun x => if x.bseq = bseq then g else x)
    (s.countLoss i b.span b.count).gapRecord i reason false b.gen b.source b.span
      ⟨b.bseq, b.span, b.first, b.count, b.firstNs⟩

/-- The oldest block of a sheddable stream in the pool: its stream and number. -/
def oldestShed (s : State) : Option (Nat × Nat) :=
  let all := s.cry.streams.flatMap fun e => if s.isKept e.1 then [] else
    (e.2.blocks.filter fun b => decide (b.part = .pool)).map fun b => (b.firstLife, e.1, b.bseq)
  (all.foldl (fun (acc : Option (Nat × Nat × Nat)) x => match acc with
    | some y => if x.1 < y.1 then some x else some y
    | none => some x) none).map (·.2)

/-- Discard sheddable blocks, oldest first, until `size` bytes fit the pool (R505). -/
def discardFor (size : Nat) : Nat → State → State
  | 0, s => s
  | n + 1, s =>
    if s.usedBytes .pool + size ≤ s.poolBytes then s
    else match s.oldestShed with
      | some (i, b) => discardFor size n (s.replaceByGap i b 2)
      | none => s

/-- Where a block of `size` bytes goes (R500); a kept block takes the place of sheddable ones. -/
def findPlace (s : State) (i size : Nat) : State × Option SpillPart :=
  if s.fld Reg.CRY_S_CFG_SRC 0 i = 5 ∧ s.usedBytes .gap + size ≤ s.gapBytes then (s, some .gap)
  else if s.isKept i ∧ partBytes (s.stream i).blocks .reserve + size ≤ 4096 * s.fld Reg.CRY_S_RESERVE_RES 0 i then
    (s, some .reserve)
  else if s.usedBytes .pool + size ≤ s.poolBytes then (s, some .pool)
  else if s.isKept i then
    let s := discardFor size (s.cry.streams.map fun e => e.2.blocks.length).sum s
    (s, if s.usedBytes .pool + size ≤ s.poolBytes then some .pool else none)
  else (s, none)

/-! ### The close of a block (R488 to R494) -/

/-- The payload of a summary block (R506): an entry per channel over the block's slots. -/
def summaryWords (s : State) (i : Nat) (slots : List SlotIn) (ws : List Word) : List Word :=
  let g := s.fld Reg.CRY_S_SEL_GROUP 0 i
  let chans := bitsOf 16 (s.fld Reg.CRY_S_SEL_CHAN 0 i)
  (List.range chans.length).flatMap fun c =>
    let p := chans.getD c 0
    let ch := 16 * g + p
    let a := (column chans.length c ws).foldl (fun (a : TalAcc) w => (a.add (s.fld Reg.TAL_TCH_EXCL 0 ch) w).1) default
    let hits := fun (l : Nat) => (slots.map fun x => (x.cross.filter fun e => decide (e.1 = p ∧ e.2 = l)).length).sum
    ({ a with cross1 := hits 0, cross2 := hits 1 }).words ch false

/-- Put the jobs of a block's segments on its engine (R466). -/
def queueJobs (s : State) (e : Nat) (js : List Job) : State :=
  let c := s.cmp.lookD e default
  { s with cmp := s.cmp.put e { c with ready := c.ready ++ js } }

/-- Close the open block of a stream over its first `n` slots or words (R488 to R493, R504 to R507). `last`
sets LAST (R487). DESIGN CHOICE (log 129): SOURCE is the hub's address as it stands at the close, 0 before the hub holds
one; R42 and R491 do not say what it is then. -/
def closeBlock (s : State) (i n : Nat) (last : Bool) : State :=
  let st := s.stream i
  let filter := s.isFilter i
  let nch := s.streamNch i
  let words := st.buf.take (n * nch)
  let slots := st.slots.take n
  let early := match st.ends with
    | e :: _ => decide (e.1 ≤ n)
    | [] => false
  let nextDisc := early && (match st.ends with
    | e :: _ => e.2
    | [] => false)
  let g := s.fld Reg.CRY_S_SEL_GROUP 0 i
  let tag := words.foldl (fun m w => m ||| wordTags w) 0
  let poison := if filter then bit tag 0 else st.bads.any fun x => decide (x < n)
  let prov := if filter then slots.any (·.prov) else st.prov
  let hold := if filter then slots.any (·.hold) else st.hold
  let openNs := if filter then (slots.head?.map (·.ns)).getD (s.gridNs s.chainK) else st.openNs
  let openLife := if filter then (slots.head?.map (·.life)).getD (s.gridLife s.chainK) else st.openLife
  let flags := b2n prov + 2 * b2n hold + 4 * b2n st.disc + 0x400 * b2n poison + 0x800 * b2n last
  let unit := fun (k : Nat) => k - n * nch
  let st' := { st with
    buf := st.buf.drop (n * nch), slots := st.slots.drop n
    ends := ((if early then st.ends.drop 1 else st.ends).map fun e => (e.1 - n, e.2))
    openNs := s.gridNs s.chainK, openLife := s.gridLife s.chainK, prov := s.chainProv, hold := s.chainHold, disc := nextDisc
    bads := (st.bads.filter fun x => decide (n ≤ x)).map (· - n)
    shed := s.shed, cuts := (st.cuts.map unit).filter (· ≠ 0)
    profs := (st.profs.map fun e => (unit e.1, e.2)).filter fun e => decide (e.1 ≠ 0)
    nextBseq := (st.nextBseq + 1) % 2 ^ 48, nextFirst := (st.nextFirst + n) % 2 ^ 48 }
  let b : Block := {
    stream := i, srcCode := s.fld Reg.CRY_S_CFG_SRC 0 i, method := 0, gen := s.fld Reg.CRY_S_STATE_GEN 0 i
    source := s.sourceAddr, bseq := st.nextBseq, span := 1, first := st.nextFirst, firstNs := openNs
    firstLife := openLife, closedNs := s.lifeNs, count := n
    mask := if filter then s.fld Reg.CRY_S_SEL_CHAN 0 i + 0x10000 * g
      else if s.fld Reg.CRY_S_CFG_SRC 0 i = 3 then s.fld Reg.CRY_S_SEL_CHAN 0 i else 0
    flags := flags, payload := words, d := if filter then s.fld Reg.FLT_CHAIN_D g else 0
    tagOr := if filter then tag else 0, session := w32 (s.fld Reg.CRY_SESSION), part := .pool, segsLeft := 0
    coded := [], size := 64 + 4 * words.length, growing := false, raw := [] }
  let s := s.setStream i st'
  if st.shed && !s.isKept i && !s.uncompared then (s.addLoss i 1 b).boundaryLevel i |>.refreshSpill
  else
    let lv := s.fld Reg.CRY_S_STATE_LEVEL 0 i
    let lv := if lv = 4 then s.wantLevel i else lv
    let fb := decide (2 ≤ lv) && s.flag Reg.CRY_S_CFG_FB_EN 0 i && decide (lv ≠ 3)
    let e := s.fld Reg.CRY_S_CFG_ENGINE 0 i
    let idx := if fb then s.fld Reg.CRY_S_CFG_FB_PROF 0 i else s.fld Reg.CRY_S_CFG_PROF 0 i
    let coded := decide (lv ≠ 3) && (fb || s.flag Reg.CRY_S_CFG_COMP 0 i)
    let segs := if coded then
        segmentsFrom (profIn s.regs e idx) idx nch words.length st.profs st.cuts words.length 0
      else []
    let bound := (segs.map fun x => x.2.2.2.bound nch x.2.1).sum
    let b := if lv = 3 then
        let p := s.summaryWords i slots words
        { b with payload := p, flags := flags + 0x10, size := 64 + 4 * p.length }
      else if segs ≠ [] then
        { b with method := (segs.head?.map fun x => x.2.2.2.method).getD 0, flags := flags + 8 * b2n fb
                 segsLeft := segs.length, size := 64 + bound }
      else b
    let r := s.findPlace i b.size
    match r.2 with
    | none =>
      let s := r.1.addLoss i 3 b
      let s := if s.isKept i ∧ s.flag Reg.CRY_S_STATE_OVER 0 i ∧ !s.follows ∧ !s.uncompared then s.setLevel i 4
        else s.boundaryLevel i
      s.refreshSpill
    | some part =>
      let b := { b with part := part }
      let s := r.1.closeGap i
      let s := if lv = 3 then
          let x := s.stream i
          let run : LossRun := match x.sumRun with
            | some r => { r with span := r.span + 1, count := r.count + n }
            | none => ⟨b.bseq, 1, b.first, n, b.firstNs⟩
          s.setStream i { x with sumRun := some run }
        else s.closeSummary i
      let s := s.setBlocks i ((s.stream i).blocks ++ [b])
      let jobs := (List.range segs.length).map fun k =>
        let x := segs.getD k (0, 0, false, default)
        { (default : Job) with prof := x.2.2.2, nch := nch, stream := i, bseq := b.bseq, seg := k, start := x.1
                               flushed := x.2.2.1, input := (words.drop x.1).take x.2.1 }
      let s := if jobs = [] then s.blockDone b else s.queueJobs e jobs
      (s.boundaryLevel i).refreshSpill

/-- The place at which the open block of a stream is due to close, if it is: an early end or SIZE. -/
def dueAt (s : State) (i : Nat) : Option Nat :=
  let st := s.stream i
  let size := s.fld Reg.CRY_S_BLOCK_SIZE 0 i
  let full := if s.isFilter i then size else size * 256
  let have_ := if s.isFilter i then st.slots.length else st.buf.length
  let e := match st.ends with
    | x :: _ => some x.1
    | [] => none
  match e with
  | some x => if full ≤ x then some full else some x
  | none => if full ≤ have_ then some full else none

/-- Close every block that is due (R488 to R490). -/
def closeDue (i : Nat) : Nat → State → State
  | 0, s => s
  | n + 1, s =>
    match s.dueAt i with
    | some x => closeDue i n (s.closeBlock i x false)
    | none => s

/-! ### The streams' input -/

/-- The filter streams of a group take a slot (R486, R491); `prov` and `hold` are the time's flags. -/
def cryTake (s : State) (e : Emitted) (prov hold : Bool) : State :=
  (s.streamsOf 1).foldl (fun s i =>
    let d : Int := s.fld Reg.FLT_CHAIN_D e.g
    let st := s.stream i
    if s.fld Reg.CRY_S_SEL_GROUP 0 i ≠ e.g ∨ e.j * d < st.startK then s
    else
      let ws := (bitsOf 16 (s.fld Reg.CRY_S_SEL_CHAN 0 i)).map fun p => e.words.getD p 0
      let cross := (e.changes.filter (·.entered)).map fun c => (c.p, c.l)
      s.setStream i { st with
        buf := st.buf ++ ws, slots := st.slots ++ [⟨s.gridNs (e.j * d), s.gridLife (e.j * d), prov, hold, cross⟩] }) s

/-- What CRY does at a base-rate instant: CLOSE_ALL (R490), and HOLD of the open record blocks. -/
def cryInstant (s : State) (hold : Bool) : State :=
  let s := if s.cry.closeAll then ({ s with cry := { s.cry with closeAll := false } }).endBlocks false else s
  if hold then
    { s with cry := { s.cry with streams := s.cry.streams.map fun e => (e.1, { e.2 with hold := true }) } }
  else s

/-! ### Acknowledgement and replay (R495 to R497) -/

/-- The last unacknowledged block is gone from a DRAINING stream (R487). -/
def endDraining (s : State) (i : Nat) : State :=
  if s.flag Reg.CRY_S_STATE_DRAINING 0 i ∧ (s.stream i).blocks = [] then
    let s := (s.setFlag Reg.CRY_S_STATE_DRAINING 0 i false).setFld Reg.CRY_S_RESERVE_RES 0 i 0
    let s := (s.setFld Reg.CRY_S_USED_USED 0 i 0).setFlag Reg.CRY_S_STATE_OVER 0 i false
    (s.raise .CRY 0 25 i (s.fld Reg.CRY_S_STATE_GEN 0 i)).settleShed i
  else s

/-- A replay in progress ends when it has reached NEXT. -/
def settleReplay (s : State) (i : Nat) : State :=
  let st := s.stream i
  match st.replayAt with
  | some r =>
    if s.nextOf i ≤ r then
      (s.setStream i { st with replayAt := none }).setFlag Reg.CRY_S_STATE_REPLAYING 0 i false
    else s
  | none => s

/-- Blocks below `a` are released (R495). -/
def release (s : State) (i a : Nat) : State :=
  let st := s.stream i
  let s := s.setStream i { st with
    blocks := st.blocks.filter fun b => decide (a < b.stop), ackT := s.life, outageFrom := none
    replayAt := st.replayAt.map fun r => max r a }
  let s := { s with twn := { s.twn with okd := s.twn.okd.filter fun e => decide (e.1 ≠ i ∨ a ≤ e.2) } }
  let s := (s.setAcked i a).settleReplay i
  let s := if s.nextOf i < a then s.setNext i a else s
  ((s.settleOver i).endDraining i).refreshSpill

/-- ACK_BAD is counted (R495 Table 4). -/
def ackBad (s : State) (i a : Nat) (host : Bool) : State :=
  (s.bump Reg.CRY_COUNTS_ACK_BAD 0 0).raise .CRY 0 19 (i + 0x40 * b2n host) (w32 a).toNat

/-- A replay from `a` begins (R497); `why` is 0 manager, 1 timeout, 2 host. -/
def beginReplay (s : State) (i a why : Nat) : State :=
  let s := s.setStream i { s.stream i with replayAt := some a, ackT := s.life }
  ((s.bump Reg.CRY_COUNTS_REPLAYS 0 0).setFlag Reg.CRY_S_STATE_REPLAYING 0 i true).raise .CRY 0 20
    (i + 0x40 * why) (w32 a).toNat

/-- `a` is a block boundary of the unacknowledged blocks, or the next number. -/
def onBoundary (s : State) (i a : Nat) : Bool :=
  decide (a = s.nextOf i) || (s.stream i).blocks.any fun b => decide (b.bseq = a)

/-- An acknowledgement of one of the hub's own streams (R495 Table 4); `fits` says that SESSION and GEN are
those in force. The active tells its twin of one it accepts (R595). -/
def ackOwn (s : State) (i a : Nat) (fits host : Bool) : State :=
  if !fits then s.ackBad i a host
  else if a ≤ s.ackedOf i then s
  else if s.nextOf i < a ∨ !s.onBoundary i a then s.ackBad i a host
  else (s.release i a).sendTwEvents (s.tim.k + 1) [.ackpos (Fin.ofNat 64 i) (BitVec.ofNat 48 a)]

/-- A replay request for one of the hub's own streams (R497). -/
def replayOwn (s : State) (i a : Nat) (fits host : Bool) : State :=
  if fits ∧ s.ackedOf i ≤ a ∧ a < s.nextOf i ∧ s.onBoundary i a then s.beginReplay i a (if host then 2 else 0)
  else s.ackBad i a host

/-- An ACK entry (R555): KIND 0 acknowledgement, 1 replay request, 2 floor. -/
def ackEntry (source stream gen : Nat) (session : Word) (a kind : Nat) : List Byte :=
  le 2 source ++ le 1 stream ++ le 1 gen ++ le 4 session.toNat ++ le 6 a ++ le 1 kind ++ le 1 0

/-- The body of an ACK frame with one entry. -/
def ackBody (e : List Byte) : List Byte := le 4 1 ++ e

/-! ### What a manager keeps of its sources (R498, R499, R573) -/

/-- The entry that receives blocks of a source's stream: the last one listed. -/
def sourceOf (s : State) (source stream : Nat) : Option SourceState :=
  (s.cry.sources.filter fun e => decide (e.source = source ∧ e.stream = stream)).getLast?

/-- The two entries are of one stream of one session and GEN. -/
def sameSource (a b : SourceState) : Bool :=
  decide (a.source = b.source ∧ a.stream = b.stream ∧ a.session = b.session ∧ a.gen = b.gen)

/-- Replace an entry. -/
def setSource (s : State) (v : SourceState) : State :=
  { s with cry := { s.cry with sources := s.cry.sources.map fun e => if sameSource e v then v else e } }

/-- Bytes of the forward reserve in use. -/
def fwdUsed (s : State) : Nat := (s.cry.sources.map fun e => (e.blocks.map (·.size)).sum).sum

/-- A RESET gap record for a stream of a source (R499). -/
def resetRecord (s : State) (e : SourceState) : State :=
  s.gapRecord e.stream 6 false e.gen e.source 0 ⟨e.next, 0, e.nextFirst, 0, e.lastTime.toNat⟩

/-- A new session of a source: a record for each stream of the old one (R499). -/
def newSession (s : State) (source : Nat) (session : Word) : State :=
  let old := s.cry.sources.filter fun e => decide (e.source = source ∧ e.session ≠ session)
  if old = [] then s
  else
    let s := old.foldl (fun s e => s.resetRecord e) s
    let keep := s.cry.sources.filter fun e => decide (e.source ≠ source ∨ e.session = session) || decide (e.blocks ≠ [])
    ({ s with cry := { s.cry with sources := keep } }).raise .CRY 0 24 source session.toNat

/-- Drop a block (R498). -/
def dropBlock (s : State) : State := s.bump Reg.CRY_FWD_DROPS_DROPS 0 0

/-- Answer the hub from which blocks came with an ACK entry (R498, R572). -/
def answer (s : State) (to_ : Nat) (e : SourceState) (a kind : Nat) : State :=
  s.toMember to_ 0x11 5 (ackBody (ackEntry e.source e.stream e.gen e.session a kind))

/-- Decode the segments of a compressed payload: RESULT, frame and offset of the first error (R498). -/
def payloadError : Nat → List Byte → Option (Nat × Nat × Nat)
  | 0, _ => none
  | n + 1, bs =>
    if bs = [] then none
    else
      let len := max 16 (wordAt bs 12)
      match readSegment (bs.take len) 0x100000 with
      | .error e => some (e.2.1, e.1, e.2.2)
      | .ok _ => payloadError n (bs.drop len)

/-- The block that a list of words spells, when its header and CRC are right. -/
def parseBlock (ws : List Word) (size : Nat) : Option Block :=
  let n := fun (k : Nat) => (ws.getD k 0).toNat
  let body := ws.drop 16
  if ws.length < 16 ∨ n 10 ≠ 4 * body.length ∨
      crc32c (wordsBytes (ws.take 15) ++ wordsBytes body) ≠ ws.getD 15 0 then none
  else some {
    stream := n 0 % 0x40, srcCode := n 0 / 0x10000 % 8, method := n 0 / 0x100000 % 4, gen := n 0 / 0x1000000
    source := n 1 % 0x10000, bseq := n 2 + 0x100000000 * (n 3 % 0x10000), span := n 3 / 0x10000
    first := n 4 + 0x100000000 * (n 5 % 0x10000), firstNs := n 6, firstLife := 0, closedNs := 0, count := n 7, mask := n 8
    flags := n 9, payload := body, d := n 11, tagOr := n 12 % 0x100, session := ws.getD 13 0, part := .forward
    segsLeft := 0, coded := [], size := size, growing := false, raw := ws }

/-- A whole block has arrived from hub `from_` (R498). -/
def acceptBlock (s : State) (from_ source stream pcp : Nat) (ws : List Word) : State :=
  let wrong := fun (s : State) =>
    let s := s.dropBlock
    match s.sourceOf source stream with
    | some e => s.answer from_ e e.next 1
    | none => s
  match parseBlock ws (4 * ws.length) with
  | none => wrong s
  | some b =>
    if b.source ≠ source ∨ b.stream ≠ stream then wrong s
    else
      let s := s.newSession source b.session
      let fresh : SourceState := {
        source := source, stream := stream, session := b.session, gen := b.gen, next := 0, nextFirst := 0
        lastTime := 0, pcp := pcp, loose := false, acked := 0, sent := 0, replayAt := none, blocks := [], ackT := s.life }
      let e := match s.sourceOf source stream with
        | some e => if e.session = b.session ∧ e.gen = b.gen then e else fresh
        | none => fresh
      let known := s.cry.sources.any fun x => sameSource x e
      let s := if known then s else { s with cry := { s.cry with sources := s.cry.sources ++ [e] } }
      if b.bseq < e.next then s.dropBlock.answer from_ e e.next 0
      else if e.next < b.bseq ∧ !e.loose then s.dropBlock.answer from_ e e.next 1
      else
        let bad := if s.flag Reg.CRY_FWD_CFG_VERIFY ∧ b.method ≠ 0 then
            payloadError b.payload.length (wordsBytes b.payload) else none
        match bad with
        | some x =>
          let n := (Config.freeWord s.free).toNat % 4
          let s := s.drawn.bump Reg.CMP_FAILS_DECODE n 0
          let s := s.raise .CMP n 2 (x.1 + 0x40 * stream + 0x10000 * (x.2.1 % 0x10000)) x.2.2
          s.dropBlock.answer from_ e e.next 1
        | none =>
          if s.fwdBytes < s.fwdUsed + b.size then
            let s := s.dropBlock.setFlag Reg.CRY_STATUS_BACKPRESS 0 0 true
            if s.cry.backpressTold then s
            else ({ s with cry := { s.cry with backpressTold := true } }).raise .CRY 0 26 source
              (s.fld Reg.CRY_FWD_DROPS_DROPS)
          else
            let s := { s with cry := { s.cry with backpressTold := false, accepts := s.cry.accepts + 1 } }
            let s := s.setFlag Reg.CRY_STATUS_BACKPRESS 0 0 false
            let b := { b with span := max 1 b.span, closedNs := s.cry.accepts }
            let first := decide (e.blocks = [] ∧ e.next = e.acked)
            let e := { e with
              next := b.stop, nextFirst := b.first + b.count, lastTime := w32 b.firstNs, pcp := pcp
              loose := bit b.flags 9 && decide (b.span = 0xFFFF), blocks := e.blocks ++ [b]
              acked := if first then b.bseq else e.acked, sent := if first then b.bseq else e.sent }
            (s.setSource e).answer from_ e e.next 0

/-- A BLOCK fragment has arrived on port `p` (R560). -/
def takeFragment (s : State) (p : NetPort) (from_ : Nat) (m : BlockMsg) : State :=
  let mine := fun (x : Partial) => decide (x.source = m.source.toNat ∧ x.stream = m.stream.val)
  let rest := s.cry.partials.filter fun x => !mine x
  let cur : Option Partial :=
    if m.first then (if m.offset = 0 then some ⟨m.source.toNat, m.stream.val, m.bseq.toNat, m.total.toNat, []⟩ else none)
    else (s.cry.partials.find? mine).filter fun x =>
      decide (x.bseq = m.bseq.toNat ∧ x.total = m.total.toNat ∧ x.bytes.length = m.offset.toNat)
  let s := { s with cry := { s.cry with partials := rest } }
  let bad := fun (s : State) =>
    let s := (s.bump Reg.NET_DROPS_B_DROP_FRAG p.ix 0).dropBlock
    match s.sourceOf m.source.toNat m.stream.val with
    | some e => s.answer from_ e e.next 1
    | none => s
  match cur with
  | none => bad s
  | some x =>
    let x := { x with bytes := x.bytes ++ m.bytes }
    if !m.last then
      if x.total < x.bytes.length then bad s
      else { s with cry := { s.cry with partials := s.cry.partials ++ [x] } }
    else if x.bytes.length ≠ x.total ∨ x.total % 4 ≠ 0 then bad s
    else s.acceptBlock from_ m.source.toNat m.stream.val m.pcp.val (bytesWords (x.total / 4) x.bytes)

/-- A floor above the number expected (R573). -/
def takeFloor (s : State) (source stream gen : Nat) (session : Word) (a : Nat) : State :=
  match s.sourceOf source stream with
  | some e =>
    if e.session = session ∧ e.gen = gen ∧ e.next < a then
      (s.resetRecord e).setSource { e with next := a }
    else s
  | none =>
    let e : SourceState := {
      source := source, stream := stream, session := session, gen := gen, next := 0, nextFirst := 0, lastTime := 0
      pcp := 0, loose := false, acked := 0, sent := 0, replayAt := none, blocks := [], ackT := s.life }
    if a = 0 then s
    else
      let s := s.resetRecord e
      { s with cry := { s.cry with sources := s.cry.sources ++ [{ e with next := a, acked := a, sent := a }] } }

/-- A replay of blocks kept of a source begins (R497); `why` is 0 manager, 1 timeout, 2 host. -/
def replaySource (s : State) (e : SourceState) (a why : Nat) : State :=
  ((s.setSource { e with replayAt := some a, ackT := s.life }).bump Reg.CRY_COUNTS_REPLAYS 0 0).raise .CRY 0 20
    (e.stream + 0x40 * why) (w32 a).toNat

/-- An acknowledgement or a replay request for blocks kept of a source (R495 to R497). -/
def ackSource (s : State) (source stream a kind : Nat) (sg : Option (Word × Nat)) (host : Bool) : State :=
  let mine := fun (e : SourceState) => decide (e.source = source ∧ e.stream = stream) &&
    (match sg with
      | some x => decide (e.session = x.1 ∧ e.gen = x.2)
      | none => decide (e.blocks ≠ []))
  match s.cry.sources.find? mine with
  | none => s.ackBad stream a host
  | some e =>
    let edge := decide (a = e.sent) || e.blocks.any fun b => decide (b.bseq = a)
    if kind = 0 then
      if a ≤ e.acked then s
      else if e.sent < a ∨ !edge then s.ackBad stream a host
      else s.setSource { e with
        acked := a, blocks := e.blocks.filter (fun b => decide (a < b.stop)), replayAt := e.replayAt.map (max a)
        ackT := s.life }
    else if e.acked ≤ a ∧ a < e.sent ∧ edge then
      s.replaySource e a (if host then 2 else 0)
    else
      let s := s.ackBad stream a host
      if a < e.acked ∧ !host then
        s.toManager 0x11 5 (ackBody (ackEntry source stream e.gen e.session e.acked 2))
      else s

/-- One entry of an ACK frame from hub `from_` (R495 to R497, R573). -/
def takeAck (s : State) (from_ : Nat) (e : AckEntry) : State :=
  let i := e.stream.val
  let a := e.a.toNat
  let own := decide (e.source.toNat = s.sourceAddr)
  let fromMgr := s.flag Reg.SYS_JOIN_STATUS_JOINED && decide (from_ = s.fld Reg.NET_MGR_ADDR)
  if e.kind.val = 2 then
    if s.isManager then s.takeFloor e.source.toNat i e.gen.toNat e.session a else s
  else if !fromMgr then s
  else if own then
    if s.flag Reg.CRY_S_CFG_DEST 0 i then s
    else
      let fits := decide (e.session = w32 (s.fld Reg.CRY_SESSION) ∧ e.gen.toNat = s.fld Reg.CRY_S_STATE_GEN 0 i)
      if e.kind.val = 0 then s.ackOwn i a fits false
      else
        let s := s.replayOwn i a fits false
        if a < s.ackedOf i then
          s.toManager 0x11 5 (ackBody (ackEntry s.sourceAddr i (s.fld Reg.CRY_S_STATE_GEN 0 i)
            (w32 (s.fld Reg.CRY_SESSION)) (s.ackedOf i) 2))
        else s
  else if s.isManager ∧ !s.flag Reg.CRY_FWD_CFG_TO_HOST then
    s.ackSource e.source.toNat i a e.kind.val (some (e.session, e.gen.toNat)) false
  else s

/-- A write of HOST_ACK_HI or HOST_REPLAY_HI (R496, R497). -/
def hostAckWord (s : State) (kind : Nat) (lo w : Word) : State :=
  let a := lo.toNat + 0x100000000 * (w.toNat % 0x10000)
  let i := w.toNat / 0x10000 % 0x40
  let src := s.fld Reg.CRY_HOST_ACK_SRC_SRC
  if src = s.addr ∨ src = s.sourceAddr then
    if !s.flag Reg.CRY_S_CFG_DEST 0 i then s
    else if kind = 0 then s.ackOwn i a true true
    else s.replayOwn i a true true
  else if s.isManager ∧ s.flag Reg.CRY_FWD_CFG_TO_HOST then s.ackSource src i a kind none true
  else s

/-! ### Sending (R495, R560, R598) -/

/-- The block of a list that is next from number `n` on, when it is complete. -/
def blockAt (bs : List Block) (n : Nat) : Option Block :=
  (bs.find? fun b => decide (b.bseq ≤ n ∧ n < b.stop)).filter (·.complete)

/-- The next block of a stream: of a replay, or the next one not yet sent, which must pass the gate (R598,
R599). -/
def toSend (s : State) (i : Nat) : Option Block :=
  let st := s.stream i
  match st.replayAt with
  | some r => blockAt st.blocks r
  | none =>
    (blockAt st.blocks (s.nextOf i)).filter fun b =>
      !s.twn.heldBack && (!s.flag Reg.TWN_STATUS_GATING || s.twn.okd.contains (i, b.bseq))

/-- A block of a stream has been sent or pushed. -/
def sent (s : State) (i : Nat) (b : Block) : State :=
  let st := s.stream i
  match st.replayAt with
  | some _ => (s.setStream i { st with replayAt := some b.stop }).settleReplay i
  | none =>
    let s := if s.nextOf i = s.ackedOf i then s.setStream i { st with ackT := s.life } else s
    s.setNext i b.stop

/-- An entry of a source whose block has gone on its way: a first sending with none outstanding starts its timer (R497). -/
def sentOn (s : State) (before after : SourceState) : SourceState :=
  if before.sent = before.acked ∧ after.sent ≠ before.sent then { after with ackT := s.life } else after

/-- The next block of an entry of a source, and the entry once it has gone. -/
def sourceNext (e : SourceState) : Option (Block × SourceState) :=
  match e.replayAt with
  | some r => (blockAt e.blocks r).map fun b =>
      (b, { e with replayAt := if e.sent ≤ b.stop then none else some b.stop })
  | none => (e.blocks.find? fun b => decide (e.sent ≤ b.bseq)).map fun b => (b, { e with sent := b.stop })

/-- The next block to go on its way among those kept of the sources, of the blocks that `fits` admits: per stream in BSEQ
order, across streams by PCP and then in order of acceptance (R572 Table 6). -/
def nextKept (s : State) (fits : Block → Bool) : Option (SourceState × Block × SourceState) :=
  (s.cry.sources.filterMap fun e => ((sourceNext e).filter fun x => fits x.1).map fun x => (e, x)).foldl
    (fun acc x => match acc with
      | some y =>
        if y.1.pcp < x.1.pcp ∨ (y.1.pcp = x.1.pcp ∧ x.2.1.closedNs < y.2.1.closedNs) then some x else some y
      | none => some x) none

/-- The fragments of a block for an MTU (R560): offset, bytes. -/
def fragments (mtu : Nat) : Nat → Nat → List Byte → List (Nat × List Byte)
  | 0, _, _ => []
  | n + 1, off, bs =>
    if bs = [] then [] else (off, bs.take (mtu - 32)) :: fragments mtu n (off + (mtu - 32)) (bs.drop (mtu - 32))

/-- Put a block on the port toward the manager, in fragments. -/
def sendBlock (s : State) (b : Block) (pcp : Nat) : State :=
  let port := if s.isManager then some NetPort.M else s.primary
  match port with
  | none => s
  | some p =>
    let bytes := wordsBytes b.words
    let fs := fragments (s.fld Reg.NET_CFG_MTU p.ix) bytes.length 0 bytes
    fs.foldl (fun s f =>
      let flags := b2n (decide (f.1 = 0)) + 2 * b2n (decide (f.1 + f.2.length = bytes.length))
      s.sendOn p 0x10 pcp (some (s.fld Reg.NET_MGR_ADDR)) false
        (le 2 b.source ++ le 1 b.stream ++ le 1 flags ++ le 4 b.bseq ++ le 4 f.1 ++ le 4 bytes.length ++ f.2)) s

/-- The member may send stream blocks: active in its pair, and no handover past K_H (R47, R611). -/
def feeds (s : State) : Bool :=
  !s.sys.straps.pair || (decide (s.role = 1) && !s.yielded && !s.taking)

/-- The hub may send blocks to its manager: joined, on a port that is up, and active in its pair (R47). -/
def maySend (s : State) : Bool :=
  s.flag Reg.SYS_JOIN_STATUS_JOINED && s.feeds &&
    (if s.isManager then s.linked .M else s.primary.isSome)

/-! ### Queues (R510 to R515) -/

/-- What CRY keeps of a queue. -/
def queue (s : State) (q : Nat) : QueueState := s.cry.queues.lookD q default

/-- Replace a queue, with DEPTH and AT_BOUNDARY. -/
def setQueue (s : State) (q : Nat) (v : QueueState) : State :=
  let s := { s with cry := { s.cry with queues := s.cry.queues.put q v } }
  (s.setFld Reg.CRY_QSTAT_DEPTH 0 q v.words.length).setFlag Reg.CRY_QSTAT_AT_BOUNDARY 0 q (decide (v.left = 0))

/-- Notice mode (R514); `replay` says that a replay is being pushed. -/
def noticeMode (s : State) (q : Nat) (replay : Bool) : Bool :=
  s.flag Reg.CRY_QCFG_NOTICE 0 q || !s.flag Reg.TIM_STATUS_EVER_LOCKED || s.pins.testen || replay

/-- A replay into a queue is in progress. -/
def queueReplays (s : State) (q : Nat) : Bool :=
  (List.range 64).any fun i => s.flag Reg.CRY_S_STATE_REPLAYING 0 i && s.flag Reg.CRY_S_CFG_DEST 0 i &&
    decide (s.fld Reg.CRY_S_CFG_QUEUE 0 i = q)

/-- QSTATq as it reads: NOTICE_ON says that the queue is in notice mode now (R514, R516). -/
def queueStatus (s : State) (q : Nat) : Word :=
  Reg.CRY_QSTAT_NOTICE_ON.inWord (regRd s.regs (0x70208 + 16 * q))
    (b2n (s.flag Reg.CRY_QCFG_EN 0 q && s.noticeMode q (s.queueReplays q)))

/-- A word has been read by a host port. -/
def deliver (s : State) (p : HostPort) (w : Word) : State := s.setHp p { s.hp p with lastRead := (s.hp p).lastRead ++ [w] }

/-- Take the oldest word of a queue as the read finds it (R512): `flips` are the bits, with the parity bit as bit 32, that
have changed since it was stored. -/
def takeWord (s : State) (q : Nat) (flips : BitVec 33) : State × Word :=
  let v := s.queue q
  match v.words with
  | [] => (s, 0)
  | x :: rest =>
    let s := s.setQueue q { v with words := rest, left := if x.len ≠ 0 then x.len - 1 else v.left - 1 }
    let w := x.w ^^^ w32 flips.toNat
    if x.bad != decide (popcount 33 flips.toNat % 2 = 1) then
      let s := s.bump Reg.CRY_QSTAT_PARITY 0 q
      (s.raise .CRY 0 21 q (s.fld Reg.CRY_QSTAT_PARITY 0 q), w ||| 1)
    else (s, w)

/-- The words of a block as queue memory holds them: `flips` names the words in which bits change on the way, with the
parity bit as bit 32 (R510, R512). -/
def storedWords (ws : List Word) (flips : List (Nat × BitVec 33)) : List QWord :=
  (List.range ws.length).map fun i =>
    let f := ((flips.find? fun e => decide (e.1 = i)).map (·.2)).getD 0
    ⟨ws.getD i 0 ^^^ w32 f.toNat, if i = 0 then ws.length else 0, decide (popcount 33 f.toNat % 2 = 1)⟩

/-- Push a block into a queue, whole (R511), with the event of R514: in level mode at the word with which the depth comes to
LEVEL. -/
def pushBlock (s : State) (q : Nat) (b : Block) (replay : Bool) (flips : List (Nat × BitVec 33)) : State :=
  let v := s.queue q
  let ws := b.words
  let notice := s.noticeMode q replay
  let depth := v.words.length + ws.length
  let lvl := s.fld Reg.CRY_QLEVEL_LEVEL 0 q
  let s := s.setQueue q { v with words := v.words ++ storedWords ws flips }
  if notice then s.raise .CRY 0 q (depth + 0x40000) (w32 b.bseq).toNat
  else if v.words.length < lvl ∧ lvl ≤ depth then s.raise .CRY 0 q lvl 0
  else s

/-- The room of a queue, in words. -/
def queueRoom (s : State) (q : Nat) : Nat := s.fld Reg.CRY_QCFG_SIZE 0 q * 256 - (s.queue q).words.length

/-- The blocks that may go into a queue next: the hub's own streams, the earliest first. -/
def queueNext (s : State) (q : Nat) : Option (Nat × Block) :=
  let l := (s.liveStreams.filter fun i => s.flag Reg.CRY_S_CFG_DEST 0 i && decide (s.fld Reg.CRY_S_CFG_QUEUE 0 i = q)).filterMap
    fun i => (s.toSend i).bind fun b => if b.words.length ≤ s.queueRoom q then some (i, b) else none
  l.foldl (fun (acc : Option (Nat × Block)) x => match acc with
    | some y => if x.2.firstLife < y.2.firstLife then some x else some y
    | none => some x) none

/-- One push into queue `q`, if a block fits (R511). A standby's queues receive none (R594). -/
def queuePush (s : State) (q : Nat) (flips : List (Nat × BitVec 33)) : State :=
  if !s.flag Reg.CRY_QCFG_EN 0 q ∨ !s.feeds then s
  else
    match s.queueNext q with
    | some (i, b) =>
      (s.pushBlock q b (s.stream i).replayAt.isSome flips).sent i b
    | none =>
      if s.isManager ∧ s.flag Reg.CRY_FWD_CFG_TO_HOST ∧ s.fld Reg.CRY_FWD_CFG_QUEUE = q then
        match s.nextKept fun b => decide (b.words.length ≤ s.queueRoom q) with
        | some (e, b, e') => (s.pushBlock q b e.replayAt.isSome flips).setSource (s.sentOn e e')
        | none => s
      else s

/-- A pop that waits (R513). -/
def waitPop (s : State) (q : Nat) (x : PopWait) : State :=
  s.setQueue q { s.queue q with waiting := (s.queue q).waiting ++ [x] }

/-- A pop by a host port: the word, or `none` while it waits (R513). -/
def pop (s : State) (p : HostPort) (q : Nat) (flips : BitVec 33) : State × Option Word :=
  if (s.queue q).words = [] then (s.waitPop q ⟨p, .single⟩, none)
  else
    let r := s.takeWord q flips
    (r.1, some r.2)

/-- A pop of a queue that has a word. -/
def popNow (s : State) (q : Nat) : State × Word := s.takeWord q 0

/-! ### Uncorrectable errors and commits -/

/-- A kept block has become unreadable (R508, R529). -/
def blockMemErr (s : State) (i bseq : Nat) : State :=
  ((s.replaceByGap i bseq 4).raise .CRY 0 22 i (w32 bseq).toNat).refreshSpill

/-- A block kept of a source has become unreadable (R44, R508): a gap block of the source stands in its place, with its
gap record. -/
def sourceMemErr (s : State) (e : SourceState) (bseq : Nat) : State :=
  match e.blocks.find? fun b => decide (b.bseq = bseq) with
  | none => s
  | some b =>
    let g := { gapOf b 4 false with raw := [], part := b.part }
    let s := s.setSource { e with blocks := e.blocks.map fun x => if x.bseq = bseq then g else x }
    let s := s.gapRecord e.stream 4 false b.gen b.source b.span ⟨b.bseq, b.span, b.first, b.count, b.firstNs⟩
    s.raise .CRY 0 22 e.stream (w32 bseq).toNat

/-- The kept block that an uncorrectable codeword of the spill region hits, of the hub's own or of a source. Which block
stands there is not given, so a free value chooses among the blocks kept, or none. -/
def spillUe (s : State) : State :=
  let own := s.cry.streams.flatMap fun e => e.2.blocks.map fun b => (e.1, b.bseq)
  let kept := s.cry.sources.flatMap fun e => e.blocks.map fun b => (e, b.bseq)
  let pick := (Config.freeWord s.free).toNat % (own.length + kept.length + 1)
  match own[pick]? with
  | some (i, b) => s.drawn.blockMemErr i b
  | none => match kept[pick - own.length]? with
    | some (e, b) => s.drawn.sourceMemErr e b
    | none => s.drawn

/-- Record sources of CTRL (R516). -/
def cryCtrl (s : State) (w : Word) : State :=
  if bit w.toNat 8 then { s with cry := { s.cry with closeAll := true } } else s

end State

/-- Causes for which CRY refuses a commit that leaves configuration `c`; `old` is what is in force, `draining`
the streams DRAINING, `spill` the bytes of the spill region, and `mgr` a manager (R519). -/
def cryChecks (old c : SMap Word) (draining : List Nat) (spill : Nat) (mgr : Bool) : List Nat :=
  let on := fun (m : SMap Word) (i : Nat) => decide (Reg.CRY_S_CFG_EN.rd m 0 i ≠ 0)
  let en := (List.range 64).filter (on c)
  let src := fun i => Reg.CRY_S_CFG_SRC.rd c 0 i
  let kept := fun i => decide (Reg.CRY_S_CFG_KEPT.rd c 0 i ≠ 0)
  let gaps := en.filter fun i => decide (src i = 5)
  let need := en.any kept
  let nogap := decide (1 < gaps.length) || gaps.any (fun i => !kept i) || (need && decide (gaps = []))
  let block := en.any fun i =>
    decide (src i = 1) && decide (4000000000 < blockTime c i ∨ blockTime c i < 400000)
  let chan := fun i => Reg.CRY_S_SEL_CHAN.rd c 0 i
  let source := en.any fun i =>
    (decide (src i = 1) && decide (Reg.FLT_CHAIN_EN.rd c (Reg.CRY_S_SEL_GROUP.rd c 0 i) 0 = 0 ∨ chan i = 0)) ||
    (decide (src i = 3) && decide (chan i = 0))
  let badProf := fun i p => decide (Reg.CMP_ENG_CFG_EN.rd c (Reg.CRY_S_CFG_ENGINE.rd c 0 i) 0 = 0) ||
    decide (Reg.CMP_PROF_METHOD.rd c (Reg.CRY_S_CFG_ENGINE.rd c 0 i) p = 0)
  let profile := en.any fun i =>
    (decide (Reg.CRY_S_CFG_COMP.rd c 0 i ≠ 0) && badProf i (Reg.CRY_S_CFG_PROF.rd c 0 i)) ||
    (decide (Reg.CRY_S_CFG_FB_EN.rd c 0 i ≠ 0) && badProf i (Reg.CRY_S_CFG_FB_PROF.rd c 0 i)) ||
    (decide (Reg.CRY_S_CFG_SUM_EN.rd c 0 i ≠ 0) && decide (1 < src i))
  let qs := (List.range 16).filter fun q => decide (Reg.CRY_QCFG_EN.rd c 0 q ≠ 0)
  let qb := fun q => Reg.CRY_QCFG_BASE.rd c 0 q
  let qz := fun q => Reg.CRY_QCFG_SIZE.rd c 0 q
  let queue := qs.any (fun q => decide (512 < qb q + qz q)) ||
    qs.any (fun q => qs.any fun r => decide (q < r ∧ qb q < qb r + qz r ∧ qb r < qb q + qz q)) ||
    en.any (fun i => decide (Reg.CRY_S_CFG_DEST.rd c 0 i ≠ 0 ∧
      Reg.CRY_QCFG_EN.rd c 0 (Reg.CRY_S_CFG_QUEUE.rd c 0 i) = 0))
  let rate := en.any fun i => kept i && decide (1 < src i ∧ src i ≠ 5 ∧ Reg.CRY_S_RATE_BPS.rd c 0 i = 0)
  let draining := (List.range 64).any fun i => !on old i && on c i && draining.contains i
  let fixed := [Reg.CRY_S_CFG_SRC, Reg.CRY_S_CFG_DEST, Reg.CRY_S_CFG_QUEUE, Reg.CRY_S_CFG_ENGINE, Reg.CRY_S_CFG_PROF,
    Reg.CRY_S_CFG_COMP, Reg.CRY_S_SEL_CHAN, Reg.CRY_S_SEL_GROUP, Reg.CRY_S_BLOCK_SIZE]
  let active := en.any fun i => on old i && fixed.any fun f => decide (f.rd old 0 i ≠ f.rd c 0 i)
  let role := !mgr && decide (Reg.CRY_FWD_CFG_MIB.rd c 0 0 ≠ 0)
  let kib := Reg.CRY_GAP_CFG_KIB.rd c 0 0 * 1024
  let wg := ((gaps.head?).map (worstBlock c)).getD 0
  let gapres := decide (kib < 96 * en.length + wg)
  let thresh := decide (Reg.CRY_DEGRADE_T3.rd c 0 0 ≤ Reg.CRY_DEGRADE_T2.rd c 0 0 + 5 ∨ 99 < Reg.CRY_DEGRADE_T3.rd c 0 0)
  let keep := (en.filter kept).map fun i => 4096 * cdiv (reserveBytes c i) 4096
  let drains := ((List.range 64).filter fun i => draining' old i en).map fun i => 4096 * Reg.CRY_S_RESERVE_RES.rd old 0 i
  let total := keep.sum + drains.sum + kib + Reg.CRY_FWD_CFG_MIB.rd c 0 0 * 0x100000 +
    2 * (en.map (worstBlock c)).foldl max 0
  [(decide (spill < total), 0x10), (nogap, 0x11), (block, 0x12), (source, 0x13), (profile, 0x14), (queue, 0x15),
   (rate, 0x16), (draining, 0x17), (active, 0x18), (role, 0x19), (gapres, 0x1A), (thresh, 0x1B)].filterMap
    fun x => if x.1 then some x.2 else none
where
  /-- The stream is draining in `old`, or this commit would drain it. -/
  draining' (old : SMap Word) (i : Nat) (en : List Nat) : Bool :=
    !en.contains i && decide (Reg.CRY_S_RESERVE_RES.rd old 0 i ≠ 0)

namespace State

/-- A commit replaces the profiles of engine `e`: segments that are open keep theirs (R473). -/
def profCommit (s : State) (old : SMap Word) (e : Nat) : State :=
  (s.enabledStreams.filter fun i => decide (s.fld Reg.CRY_S_CFG_ENGINE 0 i = e) &&
      (s.flag Reg.CRY_S_CFG_COMP 0 i || s.flag Reg.CRY_S_CFG_FB_EN 0 i)).foldl (fun s i =>
    let st := s.stream i
    let changed := (List.range 4).filter fun p => decide (profIn old e p ≠ profIn s.regs e p)
    if st.buf = [] ∨ changed = [] then s
    else s.setStream i { st with profs := st.profs ++ changed.map fun p => (st.buf.length, p, profIn old e p) }) s

/-- The streams that a commit disables close their open block, with LAST (R487): done under the configuration
that is still in force. `new` is the configuration that the commit brings. -/
def cryDisable (s : State) (new : SMap Word) : State :=
  (s.enabledStreams.filter fun i => decide (Reg.CRY_S_CFG_EN.rd new 0 i = 0) && s.carries i).foldl (fun s i =>
    let st := s.stream i
    let s := closeDue i (st.ends.length + st.buf.length) s
    let n := if s.isFilter i then (s.stream i).slots.length else (s.stream i).buf.length
    ((s.closeBlock i n true).closeGap i).closeSummary i) s

/-- CRY takes a commit into force at grid index `k` (R486, R487, R500); `old` is what was in force. -/
def cryCommit (s : State) (old : SMap Word) (k : Int) : State :=
  let ns := s.gridNs k
  let s := (List.range 64).foldl (fun s i =>
    let was := decide (Reg.CRY_S_CFG_EN.rd old 0 i ≠ 0)
    let now := s.flag Reg.CRY_S_CFG_EN 0 i
    if now ∧ !was then
      let st : StreamState := { (default : StreamState) with
        startK := k, openNs := ns, openLife := s.gridLife k, prov := s.chainProv, hold := s.chainHold, shed := s.shed, ackT := s.life }
      let gen := (s.fld Reg.CRY_S_STATE_GEN 0 i + 1) % 0x100
      let s := ((s.setStream i st).setFld Reg.CRY_S_STATE_GEN 0 i gen).setFlag Reg.CRY_S_STATE_DRAINING 0 i false
      let s := ((s.setNext i 0).setAcked i 0).setFld Reg.CRY_S_STATE_LEVEL 0 i 0
      s.raise .CRY 0 25 (i + 0x40) gen
    else if was ∧ !now then (s.setFlag Reg.CRY_S_STATE_DRAINING 0 i true).endDraining i
    else s) s
  let s := s.liveStreams.foldl (fun s i =>
    if s.flag Reg.CRY_S_CFG_EN 0 i then
      s.setFld Reg.CRY_S_RESERVE_RES 0 i (if s.isKept i then cdiv (reserveBytes s.regs i) 4096 else 0)
    else s) s
  let s := (List.range 16).foldl (fun s q =>
    let place := fun (m : SMap Word) => (Reg.CRY_QCFG_EN.rd m 0 q, Reg.CRY_QCFG_BASE.rd m 0 q, Reg.CRY_QCFG_SIZE.rd m 0 q)
    if place old = place s.regs then s else s.setQueue q { (default : QueueState) with waiting := (s.queue q).waiting }) s
  (s.showLevel).refreshSpill

end State

/-! ### Commands -/

/-- BLOCK_CLOSE (R488, R490): the open block of a stream closes where it is due. -/
def execBlockClose (st : Fin 64) (s : State) : Host.Outcome State Fault Refusal :=
  if s.flag Reg.CRY_S_CFG_EN 0 st.val && s.carries st.val then .next (State.closeDue st.val 1 s).finish else .next s.finish

/-- BLOCK_AGE_EXPIRY (R489): a record-stream block has been open for 1 s. -/
def execBlockAgeExpiry (st : Fin 64) (s : State) : Host.Outcome State Fault Refusal :=
  let i := st.val
  if s.flag Reg.CRY_S_CFG_EN 0 i ∧ s.carries i ∧ !s.idles ∧ !s.isFilter i ∧ s.dueAt i = none ∧ (s.stream i).openLife + 1000000000 ≤ s.lifeNs then
    .next (s.closeBlock i (s.stream i).buf.length false).finish
  else .next s.finish

/-- OUTAGE_OVER (R504): a stream's outage has passed its declared maximum, or has fallen back. -/
def execOutageOver (st : Fin 64) (s : State) : Host.Outcome State Fault Refusal := .next (s.settleOver st.val).finish

/-- BLOCK_SEND (R495, R572): the next block of a stream goes to the manager; with none of the hub's own, the
block kept of a source whose turn it is, when it is of a stream of this number. -/
def execBlockSend (st : Fin 64) (s : State) : Host.Outcome State Fault Refusal :=
  let i := st.val
  if !s.booted ∨ !s.maySend then .next s.finish
  else
    match (if s.flag Reg.CRY_S_CFG_DEST 0 i then none else s.toSend i) with
    | some b => .next ((s.sendBlock b (s.fld Reg.CRY_S_CFG_PCP 0 i)).sent i b).finish
    | none =>
      if s.isManager ∧ !s.flag Reg.CRY_FWD_CFG_TO_HOST then
        match (s.nextKept fun _ => true).filter fun x => decide (x.1.stream = i) with
        | some (e, b, e') => .next ((s.sendBlock b e.pcp).setSource (s.sentOn e e')).finish
        | none => .next s.finish
      else .next s.finish

/-- ACK (R495): the entries of an ACK frame, in order. -/
def execAck (np : NetPort) (h : Hdr) (es : List AckEntry) (s : State) : Host.Outcome State Fault Refusal :=
  let body := le 4 es.length ++ es.flatMap fun e =>
    State.ackEntry e.source.toNat e.stream.val e.gen.toNat e.session e.a.toNat e.kind.val
  .next (s.arrive np 0x11 5 h body none fun s => es.foldl (fun s e => s.takeAck h.src.toNat e) s).finish

/-- The blocks kept of the sources' streams numbered `i` that have been sent on and are overdue are sent again (R44,
R497). -/
def State.sourceTimeouts (s : State) (i : Nat) : State :=
  (s.cry.sources.filter fun e => decide (e.stream = i ∧ e.acked < e.sent ∧
    e.ackT + s.fld Reg.CRY_ACK_CFG_TIMEOUT * msTm ≤ s.life)).foldl (fun s e => s.replaySource e e.acked 1) s

/-- ACK_TIMEOUT (R497): blocks have been sent and A has not advanced for TIMEOUT, of the hub's own stream and of those
that a manager keeps under the same number. -/
def execAckTimeout (st : Fin 64) (s : State) : Host.Outcome State Fault Refusal :=
  let i := st.val
  let t := (s.stream i).ackT + s.fld Reg.CRY_ACK_CFG_TIMEOUT * msTm
  let s1 := if s.ackedOf i < s.nextOf i ∧ t ≤ s.life ∧ !s.follows then s.beginReplay i (s.ackedOf i) 1 else s
  .next (s1.sourceTimeouts i).finish

/-- BLOCK (R498, R560): a fragment of a block arrives at a manager. -/
def execBlock (np : NetPort) (h : Hdr) (m : BlockMsg) (s : State) : Host.Outcome State Fault Refusal :=
  let body := le 2 m.source.toNat ++ le 1 m.stream.val ++ le 1 (b2n m.first + 2 * b2n m.last) ++ le 4 m.bseq.toNat ++
    le 4 m.offset.toNat ++ le 4 m.total.toNat ++ m.bytes
  .next (s.arrive np 0x10 m.pcp.val h body none fun s =>
    if s.isManager then s.takeFragment np h.src.toNat m else s).finish

end Sys2Proof.Machine
end

