-- ==== Sys2Proof/Machine/Cmp.lean ====
section
/-!
DEFINITION. Compression engines (R448 to R483): jobs of Carry and of the host, their start and end, what is
held after a failure, flushes, and the checks of a commit.
-/
namespace Sys2Proof.Machine
namespace State

/-- What CMP keeps of an engine. -/
def engine (s : State) (e : Nat) : CmpState := s.cmp.lookD e default

/-- Replace an engine, with BUSY, HOST_BUSY and HELD. -/
def setEngine (s : State) (e : Nat) (v : CmpState) : State :=
  let s := { s with cmp := s.cmp.put e v }
  let s := (s.setFlag Reg.CMP_STATUS_BUSY e 0 v.running.isSome).setFlag Reg.CMP_STATUS_HELD e 0 (decide (v.held ≠ []))
  s.setFlag Reg.CMP_STATUS_HOST_BUSY e 0
    (v.ready.any (·.host) || (match v.running with
      | some j => j.host
      | none => false))

/-- The engine's share of the scratch region is absent (R470). -/
def shareAbsent (s : State) (e : Nat) : Bool := decide (s.regionBase 5 - s.regionBase 4 < (e + 1) * 0x400000)

/-- RUN and RAWONLY of an engine as the configuration leaves them (R470, R479); an enabled engine that becomes
raw-only says so. -/
def showEngine (s : State) (e : Nat) : State :=
  let en := s.flag Reg.CMP_ENG_CFG_EN e
  let raw := en && s.shareAbsent e
  let was := s.flag Reg.CMP_STATUS_RAWONLY e
  let s := (s.setFlag Reg.CMP_STATUS_RUN e 0 en).setFlag Reg.CMP_STATUS_RAWONLY e 0 raw
  if raw ∧ !was then s.raise .CMP e 3 3 else s

/-- EV_CMP_FAULT (R483): `kind` 1 VERIFY, 2 MEMERR. -/
def cmpFault (s : State) (e kind : Nat) (j : Job) (frame : Nat) : State :=
  s.raise .CMP e 3 (kind + 4 * j.stream + 0x100 * b2n j.host) frame

/-- Add to a 64-bit counter of an engine, wrapping. -/
def count64 (s : State) (lo hi : Field) (e n : Nat) : State := s.setFld64 lo hi e 0 ((s.fld64 lo hi e + n) % 2 ^ 64)

/-- An encode job has been committed: the counters (R480). -/
def countEncode (s : State) (e input out frames raws : Nat) : State :=
  let s := s.count64 Reg.CMP_IN_BYTES_LO_IN Reg.CMP_IN_BYTES_HI_IN e input
  let s := s.count64 Reg.CMP_OUT_BYTES_LO_OUT Reg.CMP_OUT_BYTES_HI_OUT e out
  (s.bump Reg.CMP_FRAMES e 0 frames).bump Reg.CMP_RAW_FRAMES_RAW e 0 raws

/-! ### Carry's jobs -/

/-- A coded segment goes into its block (R493); the last one completes it. -/
def storeSegment (s : State) (j : Job) (bs : List Byte) : State :=
  let put := fun (b : Block) =>
    let coded := b.coded.put j.seg (bytesWords (bs.length / 4) bs)
    if b.segsLeft ≤ 1 then
      let p := coded.flatMap (·.2)
      { b with coded := [], segsLeft := 0, payload := p, size := 64 + 4 * p.length }
    else { b with coded := coded, segsLeft := b.segsLeft - 1 }
  let bs' := (s.stream j.stream).blocks.map fun b => if b.bseq = j.bseq ∧ 0 < b.segsLeft then put b else b
  let done := bs'.find? fun b => decide (b.bseq = j.bseq ∧ b.segsLeft = 0 ∧ !b.isGap)
  let s := (s.setBlocks j.stream bs').refreshSpill
  match done with
  | some b => s.blockDone b
  | none => s

/-- A job has failed twice: Carry withdraws it and stores the block raw, with POISON and without FALLBACK (R494, R491 Table
3). `bad` are the
words of its input that were read in error. -/
def withdraw (s : State) (e : Nat) (j : Job) (bad : List Nat) : State :=
  let mark := fun (b : Block) =>
    let p := (List.range b.payload.length).map fun i =>
      if j.start ≤ i ∧ bad.contains (i - j.start) then 0x00000081#32 else b.payload.getD i 0
    let tag := if b.srcCode = 1 then p.foldl (fun m w => m ||| wordTags w) 0 else 0
    { b with method := 0, tagOr := tag, flags := ((b.flags ||| 0x408) ^^^ 8), segsLeft := 0, coded := [], payload := p, size := 64 + 4 * p.length }
  let hit := fun (b : Block) => decide (b.bseq = j.bseq ∧ 0 < b.segsLeft)
  let bs := (s.stream j.stream).blocks
  let s := (s.setBlocks j.stream (bs.map fun b => if hit b then mark b else b)).refreshSpill
  let v := s.engine e
  let other := fun (x : Job) => x.host || decide (x.stream ≠ j.stream ∨ x.bseq ≠ j.bseq)
  let s := s.setEngine e { v with ready := v.ready.filter other, held := v.held.filter other }
  match bs.find? hit with
  | some b => s.blockDone (mark b)
  | none => s

/-- Frame of a word of a job's input. -/
def jobFrame (j : Job) (w : Nat) : Nat := w / max 1 (j.prof.frameWords j.nch)

/-- The frame whose check fails, when it is a frame that the engine has coded (R478). -/
def failedCheck (s : State) (e : Nat) (j : Job) (f : JobFault) (input : List Word) : Option Nat :=
  match f with
  | .check n => if j.prof.verify && frameCoded j.prof j.nch (s.flag Reg.CMP_STATUS_RAWONLY e) n input then some n else none
  | _ => none

/-- The job of Carry that the engine runs ends (R468, R469, R474, R478). -/
def endCarry (s : State) (e : Nat) (j : Job) (f : JobFault) : State :=
  let v := s.engine e
  match f with
  | .memErr bad =>
    let s := (s.setEngine e { v with running := none }).cmpFault e 2 j (jobFrame j (bad.headD 0))
    if 0 < j.tries then s.withdraw e j bad
    else s.setEngine e { s.engine e with held := (s.engine e).held ++ [{ j with tries := j.tries + 1 }] }
  | f =>
    let badFrame := s.failedCheck e j f j.input
    let raw := s.flag Reg.CMP_STATUS_RAWONLY e
    let r := codeSegment j.prof j.nch raw (fun n => decide (badFrame = some n)) j.flushed j.input
    let s := s.setEngine e { v with running := none }
    let s := match badFrame with
      | some n => (s.bump Reg.CMP_VERIFY_FAILS_VERIFY e 0).cmpFault e 1 j n
      | none => s
    let space := j.prof.bound j.nch j.input.length
    if space < r.1.length then
      let s := s.setEngine e { s.engine e with held := (s.engine e).held ++ [j] }
      (s.bump Reg.CMP_FAILS_NOSPACE e 0).raise .CMP e 1 j.stream (4 * j.input.length)
    else (s.countEncode e (4 * j.input.length) r.1.length r.2.1 r.2.2).storeSegment j r.1

/-! ### The host's job (R481) -/

/-- The host job ends with a result (R480, R481). -/
def endHost (s : State) (e result out : Nat) : State :=
  let s := (s.setFld Reg.CMP_JOB_RESULT_RESULT e 0 result).setFld Reg.CMP_JOB_OUT_BYTES e 0 out
  (s.setFlag Reg.CMP_JOB_RESULT_DONE e 0 true).raise .CMP e 0 result out

/-- The output space of a failed host job: its contents are undefined (R468). -/
def freeSpace (s : State) (a n : Nat) : State :=
  let bs := (List.range n).map fun i => BitVec.ofNat 8 (Config.freeWord (s.free + i)).toNat
  { s with free := s.free + n }.dramWrite a bs

/-- Run the host job (R466, R468, R475, R478). -/
def endHostJob (s : State) (e : Nat) (j : Job) (f : JobFault) : State :=
  let s := s.setEngine e { s.engine e with running := none }
  let bad := (codewords j.src j.len).find? fun cw => decide (rsDecode (s.errPat cw) = .bad)
  let r := s.dramRead j.src j.len
  let s := r.1
  if !r.2.2 then
    let off := 32 * bad.getD 0 - j.src
    let frame := if j.decode then frameAt r.2.1 off else jobFrame j (off / 4)
    (s.cmpFault e 2 j frame).endHost e 6 0
  else if j.decode then
    match readSegment r.2.1 j.limit with
    | .error (frame, code, off) =>
      let s := s.bump Reg.CMP_FAILS_DECODE e 0
      let s := (s.setFld Reg.CMP_JOB_RESULT_FRAME e 0 frame).setFld Reg.CMP_JOB_ERR_AT_OFFSET e 0 off
      (s.raise .CMP e 2 (code + 0x10 + 0x10000 * (frame % 0x10000)) off).endHost e code 0
    | .ok ws =>
      (s.dramWrite j.dst (wordsBytes ws)).endHost e 0 (4 * ws.length)
  else
    let input := bytesWords (min (j.len / 4) (j.prof.segWords j.nch)) r.2.1
    let badFrame := s.failedCheck e j f input
    let flushed := decide (input.length < j.prof.segWords j.nch)
    let raw := s.flag Reg.CMP_STATUS_RAWONLY e
    let c := codeSegment j.prof j.nch raw (fun n => decide (badFrame = some n)) flushed input
    let s := match badFrame with
      | some n => (s.bump Reg.CMP_VERIFY_FAILS_VERIFY e 0).cmpFault e 1 j n
      | none => s
    if j.space < c.1.length then
      let s := (s.freeSpace j.dst j.space).bump Reg.CMP_FAILS_NOSPACE e 0
      (s.raise .CMP e 1 0x40 (4 * input.length)).endHost e 1 0
    else
      let s := (s.dramWrite j.dst c.1).countEncode e (4 * input.length) c.1.length c.2.1 c.2.2
      s.endHost e 0 c.1.length

/-- The host job is queued or running. -/
def hostBusy (s : State) (e : Nat) : Bool := s.flag Reg.CMP_STATUS_HOST_BUSY e

/-- The job that the registers of an engine spell (R480). -/
def hostJob (s : State) (e : Nat) : Job :=
  { (default : Job) with
    host := true, decode := decide (s.fld Reg.CMP_JOB_OP_OP e = 2), prof := profIn s.regs e (s.fld Reg.CMP_JOB_OP_PROF e)
    nch := s.fld Reg.CMP_JOB_OP_NCH e, src := s.fld64 Reg.CMP_JOB_SRC_LO_SRC Reg.CMP_JOB_SRC_HI_SRC e
    len := s.fld Reg.CMP_JOB_SRC_LEN_LEN e, dst := s.fld64 Reg.CMP_JOB_DST_LO_DST Reg.CMP_JOB_DST_HI_DST e
    space := s.fld Reg.CMP_JOB_DST_LEN_LEN e, limit := s.fld Reg.CMP_JOB_LIMIT_LIMIT e }

/-- GO is refused with cause JOB (R480, R481, R541). -/
def jobBad (s : State) (e : Nat) : Bool :=
  let j := s.hostJob e
  let op := s.fld Reg.CMP_JOB_OP_OP e
  let residue := decide (op = 1 ∧ j.prof.method = 1)
  decide (op = 0) || decide (op = 1 ∧ j.prof.method = 0) ||
    decide (j.src % 4 ≠ 0 ∨ j.len % 4 ≠ 0 ∨ j.dst % 4 ≠ 0 ∨ j.space % 4 ≠ 0 ∨ j.limit % 4 ≠ 0) ||
    (residue && decide (j.len % (4 * j.nch) ≠ 0 ∨ 4096 < j.prof.fslots * j.nch)) ||
    decide (j.space < j.limit) ||
    decide (s.usableBytes < j.src + j.len ∨ s.usableBytes < j.dst + j.space ∨ j.dst < s.regionBase 5) ||
    (if op = 1 then decide (j.len < 4 ∨ 1048576 < j.len) else decide (j.len < 16 ∨ 2097152 < j.len))

/-- A write of CTRL.GO = 1 (R474, R481). -/
def cmpGo (s : State) (e : Nat) : State :=
  if s.hostBusy e then s.err .CMP e 0x15
  else if !s.flag Reg.CMP_ENG_CFG_EN e then s
  else if s.jobBad e then s.err .CMP e 0x14
  else
    let s := (s.setFlag Reg.CMP_JOB_RESULT_DONE e 0 false).setFld Reg.CMP_JOB_RESULT_RESULT e 0 0
    s.setEngine e { s.engine e with ready := (s.engine e).ready ++ [s.hostJob e] }

/-- A write of CTRL.CANCEL = 1 (R474). -/
def cmpCancel (s : State) (e : Nat) : State :=
  if s.hostBusy e then
    let v := s.engine e
    let run := v.running.filter fun j => !j.host
    (s.setEngine e { v with ready := v.ready.filter fun j => !j.host, running := run }).endHost e 7 0
  else s

/-- A write of CTRL.FLUSH = 1 (R472, R474): a cut in every open segment that has input. -/
def cmpFlush (s : State) (e : Nat) : State :=
  (s.enabledStreams.filter fun i => decide (s.fld Reg.CRY_S_CFG_ENGINE 0 i = e) &&
      (s.flag Reg.CRY_S_CFG_COMP 0 i || s.flag Reg.CRY_S_CFG_FB_EN 0 i)).foldl (fun s i =>
    let st := s.stream i
    let lv := s.fld Reg.CRY_S_STATE_LEVEL 0 i
    let fb := decide (lv = 2) && s.flag Reg.CRY_S_CFG_FB_EN 0 i
    if lv = 3 ∨ (!fb ∧ !s.flag Reg.CRY_S_CFG_COMP 0 i) then s
    else
      let idx := if fb then s.fld Reg.CRY_S_CFG_FB_PROF 0 i else s.fld Reg.CRY_S_CFG_PROF 0 i
      let n := st.buf.length
      let segs := segmentsFrom (profIn s.regs e idx) idx (s.streamNch i) n st.profs st.cuts n 0
      match segs.getLast? with
      | some x => if x.2.2.1 ∧ !st.cuts.contains n then s.setStream i { st with cuts := st.cuts ++ [n] } else s
      | none => s) s

/-- A write of a word to CMP.CTRL. -/
def cmpCtrl (s : State) (e : Nat) (w : Word) : State :=
  let s := if bit w.toNat 9 then s.cmpCancel e else s
  let s := if bit w.toNat 8 then s.cmpGo e else s
  if bit w.toNat 10 then s.cmpFlush e else s

/-- The first job that may start: not one of a stream with a held job (R467, R469). -/
def nextJob (v : CmpState) : Option Job :=
  v.ready.find? fun j => j.host || !(v.held.any fun h => decide (h.stream = j.stream))

/-- Remove the first copy of a job. -/
def dropJob (j : Job) : List Job → List Job
  | [] => []
  | x :: t => if x = j then t else x :: dropJob j t

end State

/-- Causes for which CMP page `e` refuses a commit that leaves configuration `c` (R449, R474, R482). -/
def cmpChecks (old c : SMap Word) (e : Nat) : List Nat :=
  let bound := (List.range 64).filter fun i => decide (Reg.CRY_S_CFG_EN.rd c 0 i ≠ 0 ∧ Reg.CRY_S_CFG_ENGINE.rd c 0 i = e)
  let uses := fun i => (if Reg.CRY_S_CFG_COMP.rd c 0 i ≠ 0 then [Reg.CRY_S_CFG_PROF.rd c 0 i] else []) ++
    (if Reg.CRY_S_CFG_FB_EN.rd c 0 i ≠ 0 then [Reg.CRY_S_CFG_FB_PROF.rd c 0 i] else [])
  let residue := fun p => decide (Reg.CMP_PROF_METHOD.rd c e p = 1)
  let method := bound.any fun i => decide (Reg.CRY_S_CFG_SRC.rd c 0 i ≠ 1) && (uses i).any residue
  let map := (List.range 4).any fun p => decide (Reg.CMP_PROF_MAP_EN.rd c e p ≠ 0) &&
    (List.range 256).any fun i => decide (i < (profIn c e p).map.getD i 0)
  let frame := bound.any fun i => decide (Reg.CRY_S_CFG_SRC.rd c 0 i = 1) && (uses i).any fun p => residue p &&
    decide (4096 < Reg.CMP_PROF_FSLOTS.rd c e p * popcount 16 (Reg.CRY_S_SEL_CHAN.rd c 0 i))
  let inUse := decide (Reg.CMP_ENG_CFG_EN.rd old e 0 ≠ 0 ∧ Reg.CMP_ENG_CFG_EN.rd c e 0 = 0) &&
    bound.any fun i => decide (uses i ≠ [])
  [(method, 0x10), (map, 0x11), (frame, 0x12), (inUse, 0x13)].filterMap fun x => if x.1 then some x.2 else none

/-- JOB_START (R467): an idle engine starts the next ready job. -/
def execJobStart (e : Fin 4) (s : State) : Host.Outcome State Fault Refusal :=
  let v := s.engine e.val
  match v.running, State.nextJob v with
  | none, some j =>
    .next (s.setEngine e.val { v with running := some j, ready := State.dropJob j v.ready }).finish
  | _, _ => .next s.finish

/-- JOB_END (R475): the job that the engine runs ends. -/
def execJobEnd (e : Fin 4) (f : JobFault) (s : State) : Host.Outcome State Fault Refusal :=
  match (s.engine e.val).running with
  | some j => .next (if j.host then s.endHostJob e.val j f else s.endCarry e.val j f).finish
  | none => .next s.finish

/-- HELD_JOB_RETRY (R469): Carry grants space to the job held first, which runs again ahead of the others. -/
def execHeldJobRetry (e : Fin 4) (s : State) : Host.Outcome State Fault Refusal :=
  let v := s.engine e.val
  match v.held with
  | j :: rest => .next (s.setEngine e.val { v with held := rest, ready := j :: v.ready }).finish
  | [] => .next s.finish

end Sys2Proof.Machine
end

