-- ==== Sys2Proof/Machine/MemCtl.lean ====
section
/-!
DEFINITION. The MEM page (R521 to R546): the host aperture and the staging window, the patrol scrub and what
it tells the owners of a region, MR4 and DQS tracking, the regions and the checks of a commit.
-/
namespace Sys2Proof.Machine
namespace State

/-! ### The host aperture (R539, R540, R542) -/

/-- A byte of the coefficient images (R536) as the devices hold it: the point tables at offset
12 × (64c + 8j + i). -/
def imageByte (s : State) (a : Nat) : Byte :=
  let t := a / 96
  let b : Byte := if t < 272 * 8 then
      (pointBytes (((s.cal.tables.lookD t []).drop (a / 12 % 8)).head?)).getD (a % 12) 0
    else 0
  b ^^^ memRd 0 s.mem.errs (36 * (a / 32) + a % 32)

/-- `n` bytes of free values. -/
def freeRead (s : State) (n : Nat) : State × List Byte :=
  ({ s with free := s.free + n }, (List.range n).map fun i => BitVec.ofNat 8 (Config.freeWord (s.free + i)).toNat)

/-- Bytes of one region, as a host reads them: the blocks of spill and the scratch of the engines are not laid
out by the spec, so what they hold is a free value. Answers whether every codeword was good. -/
def regionRead (s : State) (a n : Nat) : State × List Byte × Bool :=
  let r := s.regionOf a
  if r = 0 then
    let d := (codewords a n).foldl (fun (acc : State × Bool) cw =>
      let t := acc.1.imageTouch cw false
      (t.1, acc.2 && t.2)) (s, true)
    (d.1, (List.range n).map fun i => d.1.imageByte (a + i), d.2)
  else
  let d := s.dramRead a n
  if r = 1 ∨ r = 4 then
    let f := d.1.freeRead n
    (f.1, f.2, d.2.2)
  else d

/-- Bytes up to the end of the region of `a`, or of usable memory. -/
def regionRoom (s : State) (a : Nat) : Nat :=
  let r := s.regionOf a
  (if r < 5 then s.regionBase (r + 1) else s.usableBytes) - a

/-- Read bytes across regions; beyond USABLE they are 0. -/
def spanRead : Nat → State → Nat → Nat → State × List Byte × Bool
  | 0, s, _, n => (s, zeroBytes n, true)
  | fuel + 1, s, a, n =>
    if n = 0 then (s, [], true)
    else if s.usableBytes ≤ a then (s, zeroBytes n, true)
    else
      let m := min n (max 1 (s.regionRoom a))
      let r := s.regionRead a m
      let t := spanRead fuel r.1 (a + m) (n - m)
      (t.1, r.2.1 ++ t.2.1, r.2.2 && t.2.2)

/-- Training has completed and the boot has not ended: offsets below 4 MiB are the staging window. -/
def stagingOpen (s : State) : Bool := s.sys.trained && decide (s.sys.phase ≠ .booted)

/-- Bytes of the staging window (R102, R542); the rest of the aperture reads 0. -/
def stagingRead (s : State) (a n : Nat) : List Byte :=
  (List.range n).map fun i => if a + i < 0x400000 then s.sys.staging.lookD (a + i) 0 else 0

/-- Write the staging window: by the port that holds the claim. DESIGN CHOICE (log 135): one while a LOAD waits for the end of
the pass is ignored; R102 and R106 do not say. -/
def stagingWrite (s : State) (p : HostPort) (a : Nat) (bs : List Byte) : State :=
  if s.fld Reg.SYS_BOOT_STATUS_OWNER = p.code ∧ !s.sys.loadPending then
    { s with sys := { s.sys with staging := memWrs 0 s.sys.staging a (bs.take (0x400000 - a)) } }
  else s

/-- A read of the aperture (R540): the bytes, whether all were good, and whether it went beyond USABLE. -/
def aptRead (s : State) (a n : Nat) : State × List Byte × Bool × Bool :=
  if s.stagingOpen then (s, s.stagingRead a n, true, false)
  else if !s.booted then (s, zeroBytes n, true, false)
  else
    let r := spanRead 7 s a n
    let far := decide (s.usableBytes < a + n)
    (if far then r.1.bump Reg.MEM_PROT_COUNT_RANGE 0 0 else r.1, r.2.1, r.2.2, far)

/-- EV_MEM_PROTECT (R546): a write to a protected region at offset `a`. -/
def protect (s : State) (p : HostPort) (a : Nat) : State :=
  let from_ := if s.bound p then 3 else p.code
  (s.bump Reg.MEM_PROT_COUNT_PROTECTED 0 0).raise .MEM 0 3 (w32 a).toNat (a / 0x100000000 + 4 * from_)

/-- A write of the aperture (R540): whether part of it went beyond USABLE, or to a protected region. -/
def aptWrite (s : State) (p : HostPort) (a : Nat) (bs : List Byte) : State × Bool × Bool :=
  if s.stagingOpen then (s.stagingWrite p a bs, false, false)
  else if !s.booted then (s, false, false)
  else
    let far := decide (s.usableBytes < a + bs.length)
    let s := if far then s.bump Reg.MEM_PROT_COUNT_RANGE 0 0 else s
    let guarded := decide (a < s.regionBase 5 ∧ a < s.usableBytes ∧ bs ≠ [])
    let s := if guarded then s.protect p a else s
    let lo := max a (s.regionBase 5)
    let hi := min (a + bs.length) s.usableBytes
    let s := if lo < hi then s.dramWrite lo ((bs.drop (lo - a)).take (hi - lo)) else s
    (s, far, guarded)

/-- APT_ADDR. -/
def aptAddr (s : State) : Nat := s.fld64 Reg.MEM_APT_ADDR_LO_ADDR Reg.MEM_APT_ADDR_HI_ADDR

/-- Add 4 to APT_ADDR. -/
def aptStep (s : State) : State :=
  s.setFld64 Reg.MEM_APT_ADDR_LO_ADDR Reg.MEM_APT_ADDR_HI_ADDR 0 0 ((s.aptAddr + 4) % 2 ^ 34)

/-- A read of APT_DATA (R539, R540). -/
def aptDataRead (s : State) : State × Word :=
  let r := s.aptRead s.aptAddr 4
  let s := (r.1.setFlag Reg.MEM_APT_STATUS_UE 0 0 !r.2.2.1).setFlag Reg.MEM_APT_STATUS_RANGE 0 0 r.2.2.2
  (s.aptStep, leWord r.2.1)

/-- A write of APT_DATA (R539, R540). -/
def aptDataWrite (s : State) (p : HostPort) (w : Word) : State :=
  let r := s.aptWrite p s.aptAddr (wordBytes w)
  ((r.1.setFlag Reg.MEM_APT_STATUS_RANGE 0 0 r.2.1).setFlag Reg.MEM_APT_STATUS_PROTECTED 0 0 r.2.2).aptStep

/-! ### The places of a unit (R525, R532) -/

/-- The byte of its unit's 4,608 at which the devices hold symbol `j` of codeword `i` of the unit (R525). -/
def symbolPlace (i j : Nat) : Nat := if j < 32 then 32 * i + j else 4096 + 4 * i + (j - 32)

/-- Parity of the bits that a number and a mask share. -/
def maskParity (u m : Nat) : Nat := popcount 18 (u / 16 &&& m) % 2

/-- Channel and bank of unit `u` (R532), by the masks the hub has drawn. -/
def unitPlace (s : State) (u : Nat) : Nat × Nat :=
  let k := fun (i : Nat) => s.mem.masks.getD i 0
  let x := fun (i : Nat) => (u / 2 ^ i + maskParity u (k i)) % 2
  (x 0, x 1 + 2 * x 2 + 4 * x 3)

/-! ### Scrub (R530, R531) -/

/-- A codeword of an engine's share of the scratch region is uncorrectable: the job that the engine runs fails with MEMERR
(R529). Whether that job has data there is not given, so a free value says. -/
def scratchUe (s : State) (e : Nat) : State :=
  match (s.engine e).running with
  | none => s
  | some j =>
    let s1 := s.drawn
    if !Config.freeBit s.free then s1
    else if j.host then ((s1.setEngine e { s1.engine e with running := none }).cmpFault e 2 j 0).endHost e 6 0
    else s1.endCarry e j (.memErr [])

/-- The owner of a codeword is told that it is uncorrectable (R529 Table 3). -/
def tellOwner (s : State) (cw : Nat) : State :=
  let a := 32 * cw
  let r := s.regionOf a
  let off := a - s.talBase
  if r = 0 then s.emptyPoints cw
  else if r = 1 then s.spillUe
  else if r = 4 then s.scratchUe ((a - s.regionBase 4) / 0x400000)
  else if r = 3 ∧ off < 0x880000 then
    if off < 0x400000 then s.talFault 1 (off / 0x4000) off
    else if off < 0x480000 then s.talFault 2 ((off - 0x400000) / 0x800) off
    else s.talFault 3 ((off - 0x480000) / 0x40000) off
  else s

/-- One read of the scrubber. -/
def scrubRead (s : State) : State :=
  let cw := s.mem.pos
  let r := if s.regionOf (32 * cw) = 0 then s.imageTouch cw true else s.touch cw true false
  let s := if r.2 then r.1 else r.1.tellOwner cw
  let next := cw + 1
  if s.usableBytes / 32 ≤ next then
    let ce := min s.mem.ceInPass 0xFFFFFFFF
    let s := { s with mem := { s.mem with pos := 0, immediate := false, ceInPass := 0 } }
    let s := ((s.bump Reg.MEM_SCRUB_PASSES_PASSES 0 0).setFlag Reg.MEM_STATUS_SCRUBBING 0 0 false).setFld
      Reg.MEM_SCRUB_POS_UNIT 0 0 0
    s.raise .MEM 0 2 (s.fld Reg.MEM_SCRUB_PASSES_PASSES) ce
  else
    { s.setFld Reg.MEM_SCRUB_POS_UNIT 0 0 (next / 128) with mem := { s.mem with pos := next } }

/-- A write of CTRL.SCRUB_NOW = 1. -/
def scrubNow (s : State) : State :=
  if s.sys.trained then
    let s := { s with mem := { s.mem with pos := 0, immediate := true, ceInPass := 0 } }
    (s.setFlag Reg.MEM_STATUS_SCRUBBING 0 0 true).setFld Reg.MEM_SCRUB_POS_UNIT 0 0 0
  else s

/-- A write of a word to MEM.CTRL. -/
def memCtrl (s : State) (w : Word) : State := if bit w.toNat 8 then s.scrubNow else s

end State

/-! ### Regions and demand (R535 to R538) -/

/-- Sizes of regions 0 to 4 in a configuration, in MiB. -/
def regionSizes (c : SMap Word) : List Nat :=
  [1, Reg.MEM_SPILL_MIB_MIB.rd c 0 0, Reg.MEM_CAP_MIB_MIB.rd c 0 0, Reg.MEM_TAL_MIB_MIB.rd c 0 0,
   Reg.MEM_CMP_MIB_MIB.rd c 0 0]

/-- The sum of two fractions with positive denominators. -/
def addFrac (a b : Nat × Nat) : Nat × Nat := (a.1 * b.2 + b.1 * a.2, a.2 * b.2)

/-- D_int of a configuration in bytes per second, as a fraction (R535 Table 4). `draining` are the streams
DRAINING, `usable` the usable bytes. -/
def demand (c : SMap Word) (draining : List Nat) (usable : Nat) : Nat × Nat :=
  let rate := fun g => 256000 / max 1 (Reg.FLT_CHAIN_D.rd c g 0)
  let caps := (List.range 16).map fun u => if Reg.CAP_CAP_CFG_EN.rd c u 0 = 0 then (0, 1) else
    (2 * popcount 16 (Reg.CAP_CAP_CFG_CHAN.rd c u 0) * 4 * rate (Reg.CAP_CAP_CFG_GROUP.rd c u 0), 1)
  let streams := (List.range 64).map fun i =>
    if Reg.CRY_S_CFG_EN.rd c 0 i = 0 ∧ !draining.contains i then (0, 1)
    else
      let comp := Reg.CRY_S_CFG_COMP.rd c 0 i
      if Reg.CRY_S_CFG_SRC.rd c 0 i = 1 then
        addFrac (8000000000 * worstBlock c i, max 1 (blockTime c i))
          (comp * 2 * popcount 16 (Reg.CRY_S_SEL_CHAN.rd c 0 i) * 4 * rate (Reg.CRY_S_SEL_GROUP.rd c 0 i), 1)
      else (2 * Reg.CRY_S_RATE_BPS.rd c 0 i * (1 + comp), 1)
  let tally := (List.range 256).map fun n =>
    ((Reg.TAL_TCH_HIST_EN.rd c 0 n + Reg.TAL_TCH_RF_EN.rd c 0 n) * 64 * rate (n / 16), 1)
  (caps ++ streams ++ tally).foldl addFrac (usable, 3600 * max 1 (Reg.MEM_SCRUB_CFG_HOURS.rd c 0 0))

/-- Causes for which MEM refuses a commit that leaves configuration `c` (R535, R537, R538). `draining` are the
streams DRAINING, `usable` the usable MiB. -/
def memChecks (old c : SMap Word) (draining : List Nat) (usable : Nat) : List Nat :=
  let region := decide (usable < (regionSizes c).sum ∨ Reg.MEM_CMP_MIB_MIB.rd c 0 0 % 4 ≠ 0)
  let inForce := decide (draining ≠ []) || (List.range 64).any (fun i => decide (Reg.CRY_S_CFG_EN.rd old 0 i ≠ 0)) ||
    (List.range 16).any (fun u => decide (Reg.CAP_CAP_CFG_EN.rd old u 0 ≠ 0 ∨ Reg.TAL_PM_EN.rd old 0 u ≠ 0)) ||
    (List.range 256).any (fun n => decide (Reg.TAL_TCH_STAT_EN.rd old 0 n ≠ 0 ∨ Reg.TAL_TCH_HIST_EN.rd old 0 n ≠ 0 ∨
      Reg.TAL_TCH_RF_EN.rd old 0 n ≠ 0)) ||
    (List.range 4).any (fun e => decide (Reg.CMP_ENG_CFG_EN.rd old e 0 ≠ 0))
  let busy := decide (regionSizes old ≠ regionSizes c) && inForce
  let d := demand c draining (usable * 0x100000)
  let bandwidth := decide (Reg.MEM_BW_RES_GBPS.rd c 0 0 * 100000000 * d.2 < d.1)
  [(region, 0x10), (busy, 0x11), (bandwidth, 0x12)].filterMap fun x => if x.1 then some x.2 else none

namespace State

/-- The regions, the demand and what hangs on them, as a configuration leaves them (R535, R536). -/
def memCommit (s : State) : State :=
  let sizes := regionSizes s.regs
  let bases := (List.range 6).map fun r => (sizes.take r).sum
  let s := (List.range 6).foldl (fun s r => s.setFld Reg.MEM_REGION_BASE_MIB 0 r (bases.getD r 0)) s
  let s := s.setFld Reg.MEM_HOST_MIB_MIB 0 0 (s.fld Reg.MEM_USABLE_MIB - sizes.sum)
  let draining := (List.range 64).filter fun i => s.flag Reg.CRY_S_STATE_DRAINING 0 i
  let d := demand s.regs draining s.usableBytes
  let s := s.setFld Reg.MEM_BW_DEMAND_MBPS 0 0 (min (cdiv d.1 (d.2 * 1000000)) 0xFFFFFFFF)
  (List.range 4).foldl (fun s e => s.showEngine e) s

end State

/-! ### Commands -/

/-- APERTURE_READ (R540): a read of BAR2 in PCIe mode. `errs` are symbols that go wrong in the devices. -/
def execApertureRead (p : HostPort) (a : BitVec 34) (n : Nat) (errs : List (Nat × Byte)) (s : State) :
    Host.Outcome State Fault Refusal :=
  let s := s.addErrs errs
  if s.sys.inReset ∨ s.serialMode p ∨ !(s.hp p).inL0 then .next s.finish
  else if s.bound p then
    .next (s.setHp p { s.hp p with lastRead := List.replicate (cdiv n 4) 0, lastPoisoned := false }).finish
  else
    let r := s.aptRead a.toNat n
    .next (r.1.setHp p { r.1.hp p with
      lastRead := bytesWords (cdiv n 4) r.2.1, lastPoisoned := !r.2.2.1 }).finish

/-- APERTURE_WRITE (R540): a write of BAR2 in PCIe mode. -/
def execApertureWrite (p : HostPort) (a : BitVec 34) (bs : List Byte) (errs : List (Nat × Byte)) (s : State) :
    Host.Outcome State Fault Refusal :=
  let s := s.addErrs errs
  if s.sys.inReset ∨ s.serialMode p ∨ s.bound p ∨ !(s.hp p).inL0 then .next s.finish
  else .next (s.aptWrite p a.toNat bs).1.finish

/-- SCRUB_READ (R531): the scrubber reads the next codeword. -/
def execScrubRead (errs : List (Nat × Byte)) (s : State) : Host.Outcome State Fault Refusal :=
  let s := s.addErrs errs
  .next (if s.booted then s.scrubRead else s).finish

/-- MR4_POLL (R523): the refresh rates that MR4 of the two devices reports. -/
def execMr4Poll (m0 m1 : BitVec 3) (s : State) : Host.Outcome State Fault Refusal :=
  if !s.sys.trained then .next s.finish
  else
    let same := decide (s.fld Reg.MEM_DEV_TEMP_MR4_0 = m0.toNat ∧ s.fld Reg.MEM_DEV_TEMP_MR4_1 = m1.toNat)
    let s := (s.setFld Reg.MEM_DEV_TEMP_MR4_0 0 0 m0.toNat).setFld Reg.MEM_DEV_TEMP_MR4_1 0 0 m1.toNat
    .next (if same then s else s.raise .MEM 0 4 (m0.toNat + 0x100 * m1.toNat)).finish

/-- DQS_TRACKING (R523): the timing of the devices is followed; nothing a host or a block sees changes. -/
def execDqsTracking (s : State) : Host.Outcome State Fault Refusal := .next s.finish

end Sys2Proof.Machine
end

