-- ==== Sys2Proof/Machine/Net.lean ====
section
/-!
DEFINITION. The ports and the hierarchy (R547 to R583, R111 to R116): links, ring healing, discovery and
join, heartbeat and departure, what a manager passes on, the mailbox and the NET registers. What a link of
port T does to the twin stands in Machine/Twn.lean.
-/
namespace Sys2Proof

open Sys2Proof.Machine

/-! ### Bodies of frames (R555 Table 3) -/

/-- The bytes of an ANNOUNCE (R555 Table 3). -/
def AnnounceMsg.body (m : AnnounceMsg) : List Byte := le 8 m.uid.toNat ++ le 4 m.straps.toNat ++ le 4 m.digest.toNat

/-- The bytes of a GRANT. -/
def GrantMsg.body (m : GrantMsg) : List Byte :=
  le 8 m.uid.toNat ++ le 2 m.addr.toNat ++ le 2 0 ++ le 8 m.epoch.toNat ++ le 4 m.digest.toNat ++ le 8 m.mgrUid.toNat

/-- The bytes of a HEARTBEAT. -/
def HeartbeatMsg.body (m : HeartbeatMsg) : List Byte :=
  le 8 m.uid.toNat ++ le 1 m.timeState.toNat ++ le 1 (b2n m.active + 2 * b2n m.standby) ++ le 1 m.hopsN.toNat ++
    le 1 m.hopsS.toNat ++ le 4 m.digest.toNat ++ le 4 m.session.toNat ++ le 8 m.t1.toNat

/-- The bytes of an HB_REPLY. -/
def HbReplyMsg.body (m : HbReplyMsg) : List Byte :=
  le 8 m.mgrUid.toNat ++ le 1 m.timeState.toNat ++ le 3 0 ++ le 8 m.t1.toNat ++ le 8 m.t2.toNat ++ le 8 m.t3.toNat

/-- The bytes of a REG_RESP. -/
def RegRespMsg.body (m : RegRespMsg) : List Byte := le 2 m.tag.toNat ++ le 2 m.result.toNat ++ wordsBytes m.data

/-- The bytes of a REG_REQ. -/
def RegReqMsg.body (m : RegReqMsg) : List Byte :=
  le 2 m.tag.toNat ++ le 2 (b2n m.portB + 2 * b2n m.write + 4 * m.count.val) ++ le 4 m.addr.toNat ++ wordsBytes m.data

/-- The bytes of a TRIGGER. -/
def TriggerMsg.body (m : TriggerMsg) : List Byte :=
  le 1 m.id.toNat ++ le 1 0 ++ le 2 m.origin.toNat ++ le 4 m.time.toNat

/-- The bytes of a ROD_UPDATE. -/
def RodMsg.body (m : RodMsg) : List Byte :=
  le 1 m.netId.toNat ++ le 1 0 ++ le 6 m.pos.toNat ++ le 4 m.vel.toNat ++ le 4 m.time.toNat

end Sys2Proof

namespace Sys2Proof.Machine

/-! ### DIGEST (R561) -/

/-- The RWS bits of each register of a kind of page, by ascending offset. -/
def rwsWords (k : PageKind) : SMap Nat :=
  ((k.fields.filter fun f => decide (f.access = .rws)).flatMap fun f =>
    if f.stride = 0 then [(f.off, f.mask)] else (List.range f.count).map fun i => (f.off + f.stride * i, f.mask)).foldl
    (fun m e => SMap.put m e.1 (SMap.lookD m e.1 0 ||| e.2)) []

/-- The words that DIGEST covers: every RWS register in force with its other bits 0, page by page, and the bead
table. -/
def digestWords (m : SMap Word) : List Word :=
  (pageKinds.flatMap fun k =>
    let ws := rwsWords k
    (List.range k.count).flatMap fun n =>
      (ws.filter fun e => !(decide (k = .NET) && decide (n ≠ 0) && decide (0x200 ≤ e.1))).map fun e =>
        w32 ((regRd m (pageBase k n + e.1)).toNat &&& e.2)) ++
  (List.range 0x1000).map fun i => regRd m (0x18000 + 4 * i)

/-- Wire rate of a network stream in bits per second, as a fraction (R578); a stream of SRC 0 builds no block. -/
def wireRate (c : SMap Word) (i : Nat) : Nat × Nat :=
  let mtu := Reg.NET_CFG_MTU.rd c 0 0
  if Reg.CRY_S_CFG_SRC.rd c 0 i = 0 then (0, 1)
  else if Reg.CRY_S_CFG_SRC.rd c 0 i = 1 then
    let w := worstBlock c i
    (8 * (w + 74 * cdiv w (mtu - 32)) * 4000000000, max 1 (blockTime c i))
  else (8 * Reg.CRY_S_RATE_BPS.rd c 0 i * (mtu + 42) + 1104 * (mtu - 32), mtu - 32)

/-- Causes for which page NET[n] refuses a commit that leaves configuration `c` (R549, R578). -/
def netChecks (st : Straps) (c : SMap Word) (n : Nat) : List Nat :=
  let en := decide (Reg.NET_CFG_EN.rd c n 0 ≠ 0)
  let slow := decide (Reg.NET_CFG_MODE.rd c n 0 = 1)
  let mode := (decide (n < 2) && (slow || decide (1500 < Reg.NET_CFG_MTU.rd c n 0))) ||
    (decide (n = 2) && (slow || (en && !st.pair)))
  let total := (((List.range 64).filter fun i =>
    decide (Reg.CRY_S_CFG_EN.rd c 0 i ≠ 0 ∧ Reg.CRY_S_CFG_DEST.rd c 0 i = 0)).map (wireRate c)).foldl addFrac (0, 1)
  let budget := decide (n = 0 ∧ Reg.NET_UP_BUDGET_MBPS.rd c 0 0 * 1000000 * total.2 < total.1)
  [(mode, 0x10), (decide (n = 3) && en && !st.role, 0x11), (budget, 0x12)].filterMap
    fun x => if x.1 then some x.2 else none

namespace State

/-- NET[0].DIGEST (R561): 0 while nothing has been committed. -/
def digest (s : State) : Word := if s.net.committed then crc32c (wordsBytes (digestWords s.regs)) else 0

/-- T1, T2 or T3 of R555: the low 64 bits of the counter. -/
def stamp64 (s : State) : BitVec 64 := BitVec.ofNat 64 s.now

/-- `n` milliseconds have passed since `t`. -/
def past (s : State) (t : Tm) (ms : Nat) : Bool := decide (t + ms * 1000000 * Config.unitsPerNs ≤ s.life)

/-! ### Links and ring healing (R550, R568 to R570) -/

/-- EV_NET_LINK (R583): `code` 1 down, 2 up, 3 restored. -/
def netLink (s : State) (p : NetPort) (code cause : Nat) : State :=
  s.raise .NET p.ix 0 (code + 4 * cause) (s.fld Reg.TIM_LINK_DELAY_D 0 p.ix)

/-- EV_NET_HEAL (R583). -/
def netHeal (s : State) (p : NetPort) (code reporter hops : Nat) : State :=
  s.raise .NET p.ix 1 (code + 0x10000 * reporter) hops

/-- EV_NET_MEMBER (R583). -/
def netMember (s : State) (p : NetPort) (code address uid : Nat) : State :=
  s.raise .NET p.ix 2 (code + 0x10000 * address) (uid % 0x100000000)

/-- Show the hop counts and the primary port (R558, R580). -/
def refreshPrimary (s : State) : State :=
  [NetPort.N, NetPort.S].foldl (fun t p =>
    (t.setFld Reg.NET_STATUS_HOPS p.ix 0 (min ((s.hops p).getD 0xFF) 0xFF)).setFlag Reg.NET_STATUS_PRIMARY p.ix 0
      (!s.isManager && decide (s.primary = some p))) s

/-- A port goes down (R568): `cause` 1 LOS, 2 PCS fault, 3 probes, 0 disabled. The PCS link of a port that only
lost its probes stays up. -/
def portDown (s : State) (p : NetPort) (cause : Nat) : State :=
  let s := s.setFlag Reg.NET_STATUS_LINK p.ix 0 (s.flag Reg.NET_STATUS_LINK p.ix && decide (cause = 3))
  let s := (s.setFlag Reg.NET_STATUS_USABLE p.ix 0 false).bump Reg.NET_LINKS_DOWNS p.ix 0
  let q := s.port p
  let at_ := if cause = 0 then none else some (q.downAt.getD s.life)
  let s := s.setPort p { q with downAt := at_, restoring := none, probeOut := none, beacon := none, fell := true }
  (s.netLink p 1 cause).refreshPrimary

/-- The PCS link of an enabled port comes up (R550, R570): a port of the ring or of the twin that has been down
waits to be restored, another is usable at once. The hub announces faster if it seeks (R112). -/
def portUp (s : State) (p : NetPort) : State :=
  let q := s.port p
  let s := s.setPort p { q with los := false, fault := false, probeOut := none, missed := 0 }
  let wait := q.fell && decide (p ≠ .M)
  let s := (s.setFlag Reg.NET_STATUS_LINK p.ix 0 true).setFlag Reg.NET_STATUS_USABLE p.ix 0 (!wait)
  let s := s.netLink p 2 0
  let seeks := if s.isManager then decide (p = .M) else p.ring
  let s := if s.sys.announceMs ≠ 0 ∧ seeks then { s with sys := { s.sys with announceMs := 100 } } else s
  s.refreshPrimary

/-- A port is restored (R570). -/
def portRestored (s : State) (p : NetPort) : State :=
  let s := s.setPort p { s.port p with restoring := none, fell := false, downAt := none }
  let s := (s.setFlag Reg.NET_STATUS_USABLE p.ix 0 true).setFlag Reg.NET_STATUS_TURNING p.ix 0 false
  let s := s.netLink p 3 0
  let s := if p.ring then (s.sendRing 8 7 (le 1 2 ++ le 1 p.ix ++ le 2 0)).netHeal p 2 s.addr 0 else s
  s.refreshPrimary

/-- A probe of a port is due: one that was not answered is counted, and restoring starts anew (R565, R568, R570). -/
def probeNow (s : State) (p : NetPort) : State :=
  let q := s.port p
  let s := if q.probeOut.isSome then
      (s.bump Reg.NET_LINKS_PROBE_LOST p.ix 0).setPort p { q with missed := q.missed + 1, restoring := none }
    else s
  let s := s.setPort p { s.port p with probeOut := some s.life }
  s.sendOn p 5 6 none false (le 8 s.stamp64.toNat) true

/-- A PROBE_REPLY (R277, R565): the link delay, and the wait for the port to be restored. -/
def probeAnswer (s : State) (p : NetPort) (t1 t2 t3 : BitVec 64) : State :=
  let q := s.port p
  if q.probeOut.isNone then s
  else
    let d := rdiv ((s.stamp64 - t1) - (t3 - t2)).toInt 2
    let l := (d :: s.tim.probes.lookD p.ix []).take 100
    let s := { s with tim := { s.tim with probes := s.tim.probes.put p.ix l } }
    let s := s.setFld Reg.TIM_LINK_DELAY_D 0 p.ix (toU8 (meanI l))
    let wait := q.fell && q.restoring.isNone && !s.usable p
    let s := s.setPort p { q with probeOut := none, missed := 0, restoring := if wait then some s.life else q.restoring }
    if 4 ≤ q.missed ∧ q.fell then s.netLink p 2 0 else s

/-! ### Discovery and join (R111 to R116, R562 to R564) -/

/-- The ports on which the hub seeks its manager (R111). -/
def seeking (s : State) : List NetPort :=
  if s.isManager then (if s.flag Reg.SYS_ADDR_TOP then [] else [.M]) else [.N, .S]

/-- Members joined now (R581). -/
def showMembers (s : State) : State := s.setFld Reg.NET_MEMBERS_JOINED 0 0 s.net.members.length

/-- The join table entry that holds a UID in the range of a port (R562, R563). -/
def entryFor (s : State) (p : NetPort) (uid : BitVec 64) : Option (Nat × JtEntry) :=
  s.net.jt.find? fun e => e.2.valid && decide (e.2.uid = uid) &&
    (if p = .M then decide (256 < e.1) else decide (0 < e.1 ∧ e.1 < 256))

/-- A manager hears an ANNOUNCE (R563). On port M only the top manager answers. -/
def hearAnnounce (s : State) (p : NetPort) (h : Hdr) (m : AnnounceMsg) : State :=
  if p = .M ∧ !s.flag Reg.SYS_ADDR_TOP then s
  else
    match s.entryFor p m.uid with
    | some e =>
      if s.flag Reg.TIM_STATUS_EPOCH_VALID ∧ (s.flag Reg.SYS_ADDR_TOP ∨ s.flag Reg.SYS_JOIN_STATUS_JOINED) then
        let g : GrantMsg := ⟨m.uid, BitVec.ofNat 16 (s.entryAddr e.1), s.tim.epoch, e.2.digest, Config.uid⟩
        let f : Frame := { type := 2, pcp := 6, dmac := if p = .M then h.smac else s.groupMac
                           hdr := s.hdr 2 none false, body := g.body }
        ((if p.ring then s.transmitRing p f else s.transmit p f).nextSeq 2)
      else s
    | none =>
      if s.net.jt.any fun e => e.2.valid && decide (e.2.uid = m.uid) then s
      else
        let s := s.setFld64 Reg.NET_LAST_UNKNOWN_LO_UID Reg.NET_LAST_UNKNOWN_HI_UID 0 0 m.uid.toNat
        let told := s.net.unknown.any fun e => decide (e.1 = m.uid) && !s.past e.2 10000
        if told then s
        else
          let l := (m.uid, s.life) :: s.net.unknown.filter fun e => decide (e.1 ≠ m.uid)
          { s with net := { s.net with unknown := l } }.netMember p 3 0 m.uid.toNat

/-- Compare the digest of a grant with that of the configuration (R115). -/
def compareDigest (s : State) (g : GrantMsg) : State :=
  let mm := decide (g.digest ≠ s.digest)
  let s := s.setFlag Reg.SYS_JOIN_STATUS_DIGEST_MM 0 0 mm
  if mm then s.raise .SYS 0 6 else s

/-- The hub is joined to the sender of a grant (R113, R114). -/
def joinTo (s : State) (p : NetPort) (h : Hdr) (g : GrantMsg) : State :=
  let s := (s.setFlag Reg.SYS_JOIN_STATUS_JOINED 0 0 true).setFld Reg.SYS_JOIN_STATUS_PORT 0 0 (2 ^ p.ix)
  let s := (s.setFld Reg.NET_MGR_ADDR 0 0 h.src.toNat).setFlag Reg.NET_MGR_VALID 0 0 true
  let s := s.setFld64 Reg.NET_MGR_UID_LO_UID Reg.NET_MGR_UID_HI_UID 0 0 g.mgrUid.toNat
  let s := s.compareDigest g
  let s := s.raise .SYS 0 5
  let s := { s with sys := { s.sys with announceMs := 0 }
                    net := { s.net with lastReply := some s.life, joinedBefore := true }
                    twn := { s.twn with netLost := none } }
  s.leaveFree.refreshLinks

/-- A GRANT that names this hub arrives (R113, R114, R567). -/
def takeGrant (s : State) (p : NetPort) (h : Hdr) (g : GrantMsg) : State :=
  if s.hasAddr ∧ g.addr.toNat ≠ s.addr then (s.bumpSat Reg.SYS_JOIN_STATUS_CONFLICTS 0 0).raise .SYS 0 7
  else if !s.seeking.contains p then s
  else if !s.hasAddr then
    let s := (s.setFld Reg.SYS_ADDR 0 0 g.addr.toNat).setFlag Reg.SYS_ADDR_VALID 0 0 true
    (s.setEpoch g.epoch.toNat).joinTo p h g
  else if s.flag Reg.SYS_JOIN_STATUS_JOINED then s
  else if g.epoch ≠ s.tim.epoch then s.netMember p 4 h.src.toNat g.mgrUid.toNat
  else s.joinTo p h g

/-! ### Heartbeat and departure (R565 to R567, R608) -/

/-- A HEARTBEAT reaches the manager (R564 step 5, R565). -/
def hearHeartbeat (s : State) (p : NetPort) (h : Hdr) (m : HeartbeatMsg) : State :=
  let e := s.entryOf h.src.toNat
  let known := match s.net.jt.look e with
    | some j => j.valid && decide (j.uid = m.uid)
    | none => false
  if !h.srcv || !known || (decide (p = .M) != decide (256 < e)) then s
  else
    let old := s.net.members.look e
    let via := if h.turned then (old.map (·.via)).getD p else p
    let v : Member := { uid := m.uid, lastHb := s.life, active := m.active, standby := m.standby, port := p, via := via
                        session := m.session }
    let s := { s with net := { s.net with members := s.net.members.put e v } }.showMembers
    let s := if old.isSome then s else s.netMember p 1 h.src.toNat m.uid.toNat
    let r : HbReplyMsg := ⟨Config.uid, BitVec.ofNat 8 s.timeState, m.t1, s.stamp64, s.stamp64⟩
    s.toMember h.src.toNat 4 6 r.body

/-- Next TAG for an address (R574, R608). -/
def nextTag (s : State) (a : Nat) : Nat := (s.net.tags.lookD a 0 + 1) % 0x10000

/-- Remember the TAG used for an address. -/
def setTag (s : State) (a t : Nat) : State := { s with net := { s.net with tags := s.net.tags.put a t } }

/-- A manager confirms the twin of an active member that it has declared departed (R608). -/
def autoConfirm (s : State) (m : Member) (a : Nat) : State :=
  let t := a ^^^ 1
  match s.memberOf t with
  | some w =>
    if s.flag Reg.TWN_MGR_CFG_AUTO ∧ m.active ∧ w.standby then
      let tag := s.nextTag t
      let r : RegReqMsg := ⟨BitVec.ofNat 16 tag, s.flag Reg.TWN_MGR_CFG_PORT, true, 0, 0xA0110, [w32 (2 + 0x10000 * t)]⟩
      (s.setTag t tag).toMember t 0x20 4 r.body
    else s
  | none => s

/-- A manager declares a member departed (R566). -/
def memberDeparts (s : State) (e : Nat) (m : Member) : State :=
  let a := s.entryAddr e
  let s := { s with net := { s.net with members := s.net.members.del e } }.showMembers
  let s := (s.bump Reg.NET_MEMBERS_DEPARTS 0 0).netMember m.port 2 a m.uid.toNat
  s.autoConfirm m a

/-- The condition of a network yield, and since when it holds (R610): the active has declared its manager
departed and its twin is joined and in STANDBY. -/
def noteNetLost (s : State) : State :=
  let c := s.leads && s.net.joinedBefore && !s.flag Reg.SYS_JOIN_STATUS_JOINED && s.twn.twinJoined &&
    decide (s.fld Reg.TWN_STATUS_TWIN_ROLE = 2)
  { s with twn := { s.twn with netLost := if c then some (s.twn.netLost.getD s.life) else none } }

/-- The port through which the hub joined, for the page of an event. -/
def joinPort (s : State) : NetPort :=
  (netPorts.find? fun p => bit (s.fld Reg.SYS_JOIN_STATUS_PORT) p.ix).getD .N

/-- A member declares its manager departed (R566). -/
def managerDeparts (s : State) : State :=
  let s := (s.setFlag Reg.SYS_JOIN_STATUS_JOINED 0 0 false).setFlag Reg.NET_MGR_VALID 0 0 false
  let s := s.netMember s.joinPort 5 (s.fld Reg.NET_MGR_ADDR) (s.fld Reg.NET_MGR_UID_LO_UID)
  let s := if s.bound .A then s.portReset .A else s
  let s := if s.bound .B then s.portReset .B else s
  let s := { s with sys := { s.sys with announceMs := 100 }, net := { s.net with lastReply := none } }
  s.refreshLinks.noteNetLost

/-! ### Remote register access (R574 to R577) -/

/-- The mailbox request ends (R576). -/
def endRa (s : State) (dst result : Nat) : State :=
  let s := { s with net := { s.net with ra := none } }
  let s := (s.setFlag Reg.NET_RA_STATUS_BUSY 0 0 false).setFlag Reg.NET_RA_STATUS_DONE 0 0 true
  (s.setFld Reg.NET_RA_STATUS_RESULT 0 0 result).raise .NET 0 3 (1 + 4 * result + 0x10000 * dst) 0

/-- Send the mailbox request. -/
def sendRa (s : State) (r : RaReq) : State :=
  let m : RegReqMsg := ⟨BitVec.ofNat 16 r.tag, r.portB, r.write, Fin.ofNat 16 (r.count - 1), BitVec.ofNat 24 r.addr, r.data⟩
  let r := { r with sends := r.sends + 1, sentAt := s.life }
  { s with net := { s.net with ra := some r } }.toMember r.dst 0x20 4 m.body

/-- CTRL.RA_GO (R574). -/
def raGo (s : State) : State :=
  if s.flag Reg.NET_RA_STATUS_BUSY then s.err .NET 0 0x14
  else
    let dst := s.fld Reg.NET_RA_CTRL_DST
    if (s.memberOf dst).isNone ∨ !s.isManager then s.endRa dst 3
    else
      let n := s.fld Reg.NET_RA_CTRL_COUNT + 1
      let write := s.flag Reg.NET_RA_CTRL_WRITE
      let data := if write then (List.range n).map fun i => w32 (s.fld Reg.NET_RA_BUF_DATA 0 i) else []
      let r : RaReq := { dst := dst, tag := s.nextTag dst, sends := 0, sentAt := s.life, write := write, count := n
                         portB := s.flag Reg.NET_RA_CTRL_PORT, addr := s.fld Reg.NET_RA_ADDR_ADDR, data := data }
      ((s.setTag dst r.tag).setFlag Reg.NET_RA_STATUS_BUSY 0 0 true).sendRa r

/-- A REG_RESP from the hub that was asked (R576). -/
def takeResp (s : State) (h : Hdr) (m : RegRespMsg) : State :=
  match s.net.ra with
  | none => s
  | some r =>
    if h.srcv ∧ h.src.toNat = r.dst ∧ m.tag.toNat = r.tag then
      let ok := decide (m.result = 0)
      let s := if ok && !r.write then
          ((List.range (min r.count 16)).zip m.data).foldl (fun s e => s.setFld Reg.NET_RA_BUF_DATA 0 e.1 e.2.toNat) s
        else s
      s.endRa r.dst (if ok then 0 else 2)
    else s

/-! ### Triggers and rod updates between tiers (R572 Table 6) -/

/-- A TRIGGER for this hub. -/
def takeTrigger (s : State) (p : NetPort) (h : Hdr) (m : TriggerMsg) : State :=
  let key := (m.origin.toNat, m.time.toNat)
  if s.net.trigs.contains key then s
  else
    let s := { s with net := { s.net with trigs := (key :: s.net.trigs).take 64 } }
    let s := if s.follows then s
      else (s.networkTrigger m.id.toNat m.origin.toNat m.time).sendTwEvents (s.tim.k + 1) [.nettrig m]
    if !s.isManager then s
    else if h.bcast then
      if p = .M ∧ s.flag Reg.NET_RELAY_TRIG_DOWN then s.sendRing 0x30 6 m.body else s
    else if p = .M then (if s.flag Reg.SYS_ADDR_TOP then s.sendDown 0x30 6 m.body else s)
    else
      let s := s.sendRing 0x30 6 m.body
      if s.flag Reg.NET_RELAY_TRIG_UP then s.toManager 0x30 6 m.body else s

/-- A ROD_UPDATE for this hub (R320). -/
def takeRods (s : State) (p : NetPort) (m : RodMsg) : State :=
  let s := s.networkRods m
  if s.isManager ∧ p = .M ∧ s.flag Reg.NET_RELAY_ROD_DOWN then s.sendRing 0x31 6 m.body else s

/-! ### Registers (R580 to R582) -/

/-- The join table has this entry (R562). -/
def jtExists (s : State) (e : Nat) : Bool :=
  decide (0 < e ∧ e < 256) || (decide (256 < e) && s.flag Reg.SYS_ADDR_TOP)

/-- CTRL.JT_WRITE (R580, R582). -/
def jtWrite (s : State) : State :=
  let e := s.fld Reg.NET_JT_IDX_IDX
  if (s.net.members.look e).isSome then s.err .NET 0 0x13
  else if !s.jtExists e then s
  else
    let v : JtEntry := { uid := BitVec.ofNat 64 (s.fld64 Reg.NET_JT_DATA0_UID Reg.NET_JT_DATA1_UID)
                         digest := w32 (s.fld Reg.NET_JT_DATA2_DIGEST), valid := s.flag Reg.NET_JT_DATA3_VALID }
    { s with net := { s.net with jt := s.net.jt.put e v } }

/-- CTRL.JT_READ (R580). -/
def jtRead (s : State) : State :=
  let e := s.fld Reg.NET_JT_IDX_IDX
  let v := s.net.jt.lookD e ⟨0, 0, false⟩
  let s := s.setFld64 Reg.NET_JT_DATA0_UID Reg.NET_JT_DATA1_UID 0 0 v.uid.toNat
  let s := (s.setFld Reg.NET_JT_DATA2_DIGEST 0 0 v.digest.toNat).setFlag Reg.NET_JT_DATA3_VALID 0 0 v.valid
  let s := s.setFlag Reg.NET_JT_DATA3_JOINED 0 0 (s.net.members.look e).isSome
  s.setFld Reg.NET_JT_DATA3_PORT 0 0 (((s.net.members.look e).map fun m => m.port.ix).getD 0)

/-- CTRL.CLR of a port: its counters. -/
def netClear (s : State) (n : Nat) : State :=
  [Reg.NET_TX_FRAMES_FRAMES, Reg.NET_RX_FRAMES_FRAMES, Reg.NET_DROPS_A_DROP_TYPE, Reg.NET_DROPS_A_DROP_FCS,
    Reg.NET_DROPS_B_DROP_ROUTE, Reg.NET_DROPS_B_DROP_FRAG, Reg.NET_LINKS_PROBE_LOST, Reg.NET_LINKS_DOWNS,
    Reg.NET_TURNED_FRAMES].foldl (fun s f => s.setFld f n 0 0) s

/-- A write of CTRL[31:8] of NET[n]. -/
def netCtrl (s : State) (n : Nat) (w : Word) : State :=
  let s := if bit w.toNat 8 then s.netClear n else s
  if n ≠ 0 then s
  else
    let s := if bit w.toNat 9 then s.raGo else s
    let s := if bit w.toNat 10 then s.jtWrite else s
    if bit w.toNat 11 then s.jtRead else s

/-- What a commit does to the ports (R550): an enabled port waits for its link, a disabled one goes down. -/
def netCommit (s : State) (old : SMap Word) : State :=
  netPorts.foldl (fun s p =>
    let en := s.flag Reg.NET_CFG_EN p.ix
    if decide (Reg.NET_CFG_EN.rd old p.ix 0 ≠ 0) = en then s
    else
      let up := s.flag Reg.NET_STATUS_LINK p.ix
      let s := s.setFlag Reg.NET_STATUS_EN p.ix 0 en
      if !en && up then (s.portDown p 0).setFlag Reg.NET_STATUS_TURNING p.ix 0 false else s) s

end State

/-! ### The commands -/

/-- PROBE_LOSS: four probe periods without a reply take a ring port down (R568). -/
def execProbeLoss (np : NetPort) (s : State) : Host.Outcome State Fault Refusal :=
  let q := s.port np
  let lost := s.booted && np.ring && s.linked np && decide (4 ≤ q.missed) && !(q.fell && !s.usable np)
  .next (if lost then s.portDown np 3 else s).finish

/-- RING_TURN_START: 100 µs after a ring port went down, frames are turned (R568). -/
def execRingTurnStart (np : NetPort) (s : State) : Host.Outcome State Fault Refusal :=
  match (s.port np).downAt with
  | none => .next s.finish
  | some t =>
    if !s.booted || !np.ring || decide (s.life < t + 100000 * Config.unitsPerNs) then .next s.finish
    else
      let s := s.setPort np { s.port np with downAt := none }
      let s := s.setFlag Reg.NET_STATUS_TURNING np.ix 0 true
      .next ((s.sendOn np.other 8 7 none true (le 1 1 ++ le 1 np.ix ++ le 2 0)).netHeal np 1 s.addr 0).finish

/-- ANNOUNCE (R563). -/
def execAnnounce (np : NetPort) (h : Hdr) (m : AnnounceMsg) (s : State) : Host.Outcome State Fault Refusal :=
  .next (s.arrive np 1 6 h m.body none fun s => if s.isManager then s.hearAnnounce np h m else s).finish

/-- GRANT (R113, R555). -/
def execGrant (np : NetPort) (h : Hdr) (g : GrantMsg) (s : State) : Host.Outcome State Fault Refusal :=
  .next (s.arrive np 2 6 h g.body (some (decide (g.uid = Config.uid))) fun s => s.takeGrant np h g).finish

/-- ANNOUNCE_TIMER: an announce on every seeking port whose link is up; the interval doubles up to 3.2 s (R112). DESIGN
CHOICE (log 137): ANNOUNCES counts each frame sent, one for a port. -/
def execAnnounceTimer (s : State) : Host.Outcome State Fault Refusal :=
  let ports := s.seeking.filter fun p => s.linked p
  if !s.booted || decide (s.sys.announceMs = 0) || decide (ports = []) || s.flag Reg.SYS_JOIN_STATUS_JOINED then .next s.finish
  else
    let m : AnnounceMsg := ⟨Config.uid, regRd s.regs 0x108, s.digest⟩
    let s := ports.foldl (fun s p => (s.sendOn p 1 6 none false m.body true).bumpSat Reg.SYS_JOIN_STATUS_ANNOUNCES 0 0) s
    .next { s with sys := { s.sys with announceMs := min (2 * s.sys.announceMs) 3200 } }.finish

/-- HEARTBEAT (R565). -/
def execHeartbeat (np : NetPort) (h : Hdr) (m : HeartbeatMsg) (s : State) : Host.Outcome State Fault Refusal :=
  .next (s.arrive np 3 6 h m.body none fun s => if s.isManager then s.hearHeartbeat np h m else s).finish

/-- HB_REPLY (R565, R566). -/
def execHbReply (np : NetPort) (h : Hdr) (m : HbReplyMsg) (s : State) : Host.Outcome State Fault Refusal :=
  .next (s.arrive np 4 6 h m.body none fun s =>
    if s.flag Reg.SYS_JOIN_STATUS_JOINED ∧
        m.mgrUid.toNat = s.fld64 Reg.NET_MGR_UID_LO_UID Reg.NET_MGR_UID_HI_UID then
      { s with net := { s.net with lastReply := some s.life } }
    else s).finish

/-- HEARTBEAT_TIMER, every 10 ms of a member (R565, R584 Table 1). -/
def execHeartbeatTimer (s : State) : Host.Outcome State Fault Refusal :=
  if !s.booted || !s.flag Reg.SYS_JOIN_STATUS_JOINED then .next s.finish
  else
    let hop := fun p => BitVec.ofNat 8 (min ((s.hops p).getD 0xFF) 0xFF)
    let m : HeartbeatMsg :=
      ⟨Config.uid, BitVec.ofNat 8 s.timeState, decide (s.role = 1), decide (s.role = 2 ∨ s.role = 3), hop .N, hop .S,
       s.digest, w32 (s.fld Reg.CRY_SESSION), s.stamp64⟩
    .next (s.toManager 3 6 m.body).finish

/-- PROBE_TIMER, every 250 µs: a PROBE on N, S and T (R565). -/
def execProbeTimer (s : State) : Host.Outcome State Fault Refusal :=
  .next (if s.booted then
      ([NetPort.N, .S, .T].filter fun p => s.linked p).foldl (fun s p => s.probeNow p) s
    else s).finish

/-- PROBE: answered on the port it came by (R556, R565). -/
def execProbe (np : NetPort) (t1 : BitVec 64) (s : State) : Host.Outcome State Fault Refusal :=
  if !s.booted || !s.linked np then .next s.finish
  else
    let s := s.bump Reg.NET_RX_FRAMES_FRAMES np.ix 0
    if !State.admits np 5 then .next (s.bump Reg.NET_DROPS_A_DROP_TYPE np.ix 0).finish
    else
      .next (s.sendOn np 6 6 none false (le 8 t1.toNat ++ le 8 s.stamp64.toNat ++ le 8 s.stamp64.toNat) true).finish

/-- PROBE_REPLY (R277, R565). -/
def execProbeReply (np : NetPort) (t1 t2 t3 : BitVec 64) (s : State) : Host.Outcome State Fault Refusal :=
  if !s.booted || !s.linked np then .next s.finish
  else
    let s := s.bump Reg.NET_RX_FRAMES_FRAMES np.ix 0
    .next (if State.admits np 6 then s.probeAnswer np t1 t2 t3 else s.bump Reg.NET_DROPS_A_DROP_TYPE np.ix 0).finish

/-- BEACON_TIMER, every 5 ms of a manager that holds an address (R559). -/
def execBeaconTimer (s : State) : Host.Outcome State Fault Refusal :=
  .next (if s.booted && s.isManager && s.hasAddr then s.sendRing 7 6 (le 8 Config.uid.toNat) else s).finish

/-- BEACON: with TURNED = 0 it sets the hop count via its port (R558, R559). -/
def execBeacon (np : NetPort) (h : Hdr) (mgr : BitVec 64) (s : State) : Host.Outcome State Fault Refusal :=
  .next (s.arrive np 7 6 h (le 8 mgr.toNat) none fun s =>
    if s.isManager || h.turned || !np.ring then s
    else (s.setPort np { s.port np with beacon := some (s.life, h.hops.toNat + 1), invalidated := false }).refreshPrimary).finish

/-- HOP_COUNT_EXPIRY: no BEACON for 30 ms (R558). -/
def execHopCountExpiry (np : NetPort) (s : State) : Host.Outcome State Fault Refusal :=
  match (s.port np).beacon with
  | some b =>
    .next (if b.1 + 30000000 * Config.unitsPerNs < s.life then
        (s.setPort np { s.port np with beacon := none }).refreshPrimary
      else s).finish
  | none => .next s.finish

/-- RING_STATE (R569): a break nearer than the manager invalidates the port for the choice of the primary. -/
def execRingState (np : NetPort) (h : Hdr) (restored failedS : Bool) (s : State) : Host.Outcome State Fault Refusal :=
  .next (s.arrive np 8 7 h (le 1 (1 + b2n restored) ++ le 1 (b2n failedS) ++ le 2 0) none fun s =>
    let dist := h.hops.toNat + 1
    let s := s.netHeal np (3 + 4 * b2n restored) h.src.toNat dist
    let nearer := match s.hops np with
      | some d => decide (dist < d)
      | none => false
    if !restored && !s.isManager && nearer then (s.setPort np { s.port np with invalidated := true }).refreshPrimary
    else s).finish

/-- MEMBER_DEPARTED: three periods of 10 ms without a HEARTBEAT (R566). -/
def execMemberDeparted (entry : Fin 512) (s : State) : Host.Outcome State Fault Refusal :=
  match s.net.members.look entry.val with
  | some m => .next (if s.booted && s.past m.lastHb 30 then s.memberDeparts entry.val m else s).finish
  | none => .next s.finish

/-- MANAGER_DEPARTED: three periods of 10 ms without an HB_REPLY (R566). -/
def execManagerDeparted (s : State) : Host.Outcome State Fault Refusal :=
  match s.net.lastReply with
  | some t => .next (if s.booted && s.flag Reg.SYS_JOIN_STATUS_JOINED && s.past t 30 then s.managerDeparts else s).finish
  | none => .next s.finish

/-- RA_TIMEOUT: the request is sent again, four times in all, and then ends with TIMEOUT (R576). -/
def execRaTimeout (s : State) : Host.Outcome State Fault Refusal :=
  match s.net.ra with
  | some r =>
    if !s.past r.sentAt (s.fld Reg.NET_RA_TIMEOUT_MS) then .next s.finish
    else if r.sends < 4 then .next (s.sendRa r).finish
    else .next (s.endRa r.dst 1).finish
  | none => .next s.finish

/-- REG_RESP (R576). -/
def execRegResp (np : NetPort) (h : Hdr) (m : RegRespMsg) (s : State) : Host.Outcome State Fault Refusal :=
  .next (s.arrive np 0x21 4 h m.body none fun s => s.takeResp h m).finish

/-- EVENT_NOTICE (R577). -/
def execEventNotice (np : NetPort) (h : Hdr) (portB : Bool) (pend : Word) (s : State) : Host.Outcome State Fault Refusal :=
  .next (s.arrive np 0x22 4 h (le 1 (b2n portB) ++ le 3 0 ++ le 4 pend.toNat) none fun s =>
    if !s.isManager then s
    else
      let s := (s.setFld Reg.NET_NOTICE_SRC 0 0 h.src.toNat).setFlag Reg.NET_NOTICE_PORT 0 0 portB
      (s.setFld Reg.NET_NOTICE_PEND_PEND 0 0 pend.toNat).raise .NET np.ix 3 (2 + 0x10000 * h.src.toNat) pend.toNat).finish

/-- TRIGGER (R427, R572). -/
def execTrigger (np : NetPort) (h : Hdr) (m : TriggerMsg) (s : State) : Host.Outcome State Fault Refusal :=
  .next (s.arrive np 0x30 6 h m.body none fun s => s.takeTrigger np h m).finish

/-- ROD_UPDATE (R320, R572). -/
def execRodUpdate (np : NetPort) (h : Hdr) (m : RodMsg) (s : State) : Host.Outcome State Fault Refusal :=
  .next (s.arrive np 0x31 6 h m.body none fun s => s.takeRods np m).finish

/-- UNADMITTED_FRAME: dropped and counted (R269, R547, R554). -/
def execUnadmittedFrame (np : NetPort) (b : BadFrame) (s : State) : Host.Outcome State Fault Refusal :=
  if !s.booted || !s.linked np then .next s.finish
  else
    match b with
    | .fcs => .next (s.bump Reg.NET_DROPS_A_DROP_FCS np.ix 0).finish
    | .other => .next ((s.bump Reg.NET_RX_FRAMES_FRAMES np.ix 0).bump Reg.NET_DROPS_A_DROP_TYPE np.ix 0).finish
    | .ptp => .next (((s.bump Reg.NET_RX_FRAMES_FRAMES np.ix 0).bump Reg.NET_DROPS_A_DROP_TYPE np.ix 0).bumpSat Reg.TIM_PTP_DROP_DROPS 0 0).finish

end Sys2Proof.Machine
end

