-- ==== Sys2Proof/Machine/Twn.lean ====
section
/-!
DEFINITION. The Sorrel twin (R584 to R623): roles, the shared drive, comparison and self-check, becoming
active and handover, resynchronisation, and what a link of port T does. The commands that process a base
instant from the twin stand in Machine/Base.lean.
-/
namespace Sys2Proof.Machine
namespace State

/-! ### Roles and the shared drive -/

/-- floor(G) modulo 2³² of the last base instant, as events of TWN tell an instant of change. -/
def changeNs (s : State) : Nat := s.gridNs s.tim.k % 0x100000000

/-- A TW_ROLE frame (R590 Table 3). An analog SELFCHECK tells its channel in K_H. -/
def sendRole (s : State) (request result : Nat) (kH : Int) : State :=
  if !s.sys.straps.pair || !s.booted then s
  else
    s.sendTwin 0x44 (le 8 Config.uid.toNat ++ le 1 s.role ++
      le 1 (b2n (s.flag Reg.SYS_JOIN_STATUS_JOINED) + 2 * b2n s.sys.straps.twin) ++ le 1 request ++ le 1 result ++
      le 8 (toField 64 kH) ++ le 4 (s.fld Reg.SYS_IMAGE_VER_VERSION) ++ le 4 (s.fld Reg.MEM_USABLE_MIB))

/-- GATING: the member is active and its twin stands in STANDBY (R598). The blocks closed before gating starts
are held by the twin too (R618 phase 4). -/
def refreshGating (s : State) : State :=
  let g := s.sys.straps.pair && decide (s.role = 1 ∧ s.fld Reg.TWN_STATUS_TWIN_ROLE = 2) && s.flag Reg.TWN_STATUS_LINK
  let s := if g && !s.flag Reg.TWN_STATUS_GATING then
      let l := s.cry.streams.flatMap fun e => e.2.blocks.map fun b => (e.1, b.bseq)
      { s with twn := { s.twn with okd := l } }
    else s
  (s.setFlag Reg.TWN_STATUS_GATING 0 0 g).noteNetLost

/-- A member of a pair takes a role (R584): EV_TWN_ROLE with the cause of Table 13, and a TW_ROLE frame. -/
def setRole (s : State) (r cause : Nat) : State :=
  if !s.sys.straps.pair ∨ s.role = r then s
  else
    let old := s.role
    let s := s.setFld Reg.TWN_STATUS_ROLE 0 0 r
    let s := if r = 1 then s.bump Reg.TWN_COUNTS_SWITCHES 0 0 else s
    let s := s.raise .TWN 0 0 (r + 0x10 * old + 0x100 * cause) s.changeNs
    s.refreshGating.sendRole 0 0 0

/-- Enable or release the shared drive (R66, R67); the boost starts again with it (R670). -/
def setDrive (s : State) (on : Bool) : State :=
  let s := { s with twn := { s.twn with drive := on, driveAt := if on then s.life else s.twn.driveAt } }
  let s := (List.range 16).foldl (fun s b =>
    let s := (s.setFlag Reg.AFE_STATUS_DRIVING b 0 on).setFlag Reg.AFE_STATUS_EXC_ON b 0 (on && s.excDriven b)
    if on then s else s.tedsStop b) s
  let boost := on && s.flag Reg.MRK_CFG_BST_EN && !s.flag Reg.MRK_STATUS_BOOST_FAULT
  let s := { s with mrk := { s.mrk with duty := 0, vsetDue := on } }
  (s.setFlag Reg.MRK_STATUS_DRIVING 0 0 on).setFlag Reg.MRK_STATUS_BOOST_ON 0 0 boost

/-- Each excitation controller starts as an enable from MODE 0 (R616). -/
def restartExc (s : State) (b : Nat) : State :=
  if (s.afeOf b).exc.phase = .fault then s
  else
    let e := (s.afeOf b).exc
    let s := s.setExc b { (default : ExcState) with
      clearReq := e.clearReq, changeEnd := e.changeEnd, volt := e.volt, isense := e.isense }
    if s.fld Reg.AFE_EXC_MODE_MODE b = 0 then s else s.excEnable b

/-- A stream goes on from its oldest block held, at the earliest from the lowest number not acknowledged (R611
step 7, R616). -/
def resumeStream (s : State) (i : Nat) : State :=
  let a := s.ackedOf i
  let n := match (s.stream i).blocks with
    | b :: _ => max a b.bseq
    | [] => a
  s.setNext i n

/-- MiB copied so far. -/
def copiedMib (s : State) : Nat := s.twn.copied / 0x100000

/-- A resynchronisation ends without STANDBY: EV_TWN_RESYNC (R623), and nothing of it is kept. -/
def stopResync (s : State) (cause : Nat) : State :=
  let last := s.fld Reg.TWN_STATUS_PHASE - 1
  let s := s.raise .TWN 0 6 (last + 8 + 0x10 * cause) s.copiedMib
  let s := s.setFld Reg.TWN_STATUS_PHASE 0 0 0
  { s with twn := { s.twn with store := [], kept := [], keptEvents := [], events := [], copied := 0 } }

/-- The member becomes active outside a handover (R606, R616), when DRIVE_MON is low; never while TESTEN is high
(R677). A GRANT that takes effect in RESYNC ends the resynchronisation. -/
def takeOver (s : State) (cause : Nat) : State :=
  if s.pins.driveMon || s.pins.testen || decide (s.role = 1) then s
  else
    let s := if s.role = 4 then s.stopResync 0 else s
    let s := s.setDrive true
    let s := (List.range 16).foldl (fun s b => s.restartExc b) s
    let s := s.liveStreams.foldl (fun s i =>
      let s := s.resumeStream i
      s.setStream i { s.stream i with outageFrom := some s.lifeNs, replayAt := none }) s
    let s := { s with twn := { s.twn with activeDue := none } }
    (s.setFld Reg.TWN_HANDOVER_T 0 0 s.changeNs).setRole 1 cause

/-- The even member of a pair: the one with STRAP_TWIN = 0. -/
def evenMember (s : State) : Bool := !s.sys.straps.twin

/-- An active member yields (R610): by handover when its twin stands in STANDBY, else alone at the next base
instant. K_H is the first base instant at least 50 µs ahead (R611 step 1). -/
def yieldNow (s : State) (cause : Nat) (toFailed : Bool) : State :=
  if !s.sys.straps.pair || decide (s.role ≠ 1) || s.twn.handover.isSome then s
  else
    let alone := !(s.flag Reg.TWN_STATUS_LINK && decide (s.fld Reg.TWN_STATUS_TWIN_ROLE = 2))
    let kH : Int := if alone then s.tim.k + 1
      else cdivI ((s.now : Int) + 50000 * Config.unitsPerNs - s.tim.anchor) Config.baseUnits
    let h : Handover := { kH := kH, yields := true, acked := false, toFailed := toFailed, cause := cause, past := false
                          alone := alone }
    let s := { s with twn := { s.twn with handover := some h } }
    if alone then s else s.sendRole 1 0 kH

/-- G(K_H) has come (R611 steps 3 and 5, R610): what the member does at that instant. -/
def handoverAt (s : State) : State :=
  match s.twn.handover with
  | none => s
  | some h =>
    if h.past ∨ s.tim.k < h.kH then s
    else if h.alone then
      let s := { s with twn := { s.twn with handover := none } }
      (s.setDrive false).setRole (if h.toFailed then 5 else 3) h.cause
    else if h.yields && !h.acked then { s with twn := { s.twn with handover := none } }
    else
      let l := s.fld Reg.TWN_TW_CFG_XBLEND
      let s := s.setFld Reg.TWN_HANDOVER_T 0 0 (s.gridNs h.kH)
      let s := { s with twn := { s.twn with handover := some { h with past := true }, holdLoops := some h.kH, blendLeft := l } }
      if h.yields then s.setDrive false else s

/-- The excitation loop of a bank starts from the drive code that the twin last forwarded (R212, R611 step 4). -/
def resumeExc (s : State) (b : Nat) : State :=
  if s.excDriven b then s.setExc b { (s.afeOf b).exc with drv := (s.afeOf b).drvFromTwin } else s

/-- The taking member enables its drive once DRIVE_MON has fallen (R611 step 4). -/
def handoverDrive (s : State) : State :=
  if s.taking && !s.twn.drive && !s.pins.driveMon && !s.pins.testen then
    ((List.range 16).foldl (fun s b => s.resumeExc b) (s.setDrive true)).setRole 1 2
  else if !s.sys.straps.pair && decide (s.role = 1) && !s.twn.drive && !s.pins.driveMon then s.setDrive true
  else s

/-! ### Resynchronisation (R618, R619) -/

/-- A resynchronisation fails (R619): `cause` 1 link, 2 active lost, 3 VERSION, 4 COPY_ROOM. -/
def endResync (s : State) (cause role : Nat) : State :=
  if s.role ≠ 4 then s else (s.stopResync cause).setRole 0 role

/-- The member enters RESYNC and asks for it (R618). -/
def enterResync (s : State) (cause : Nat) : State :=
  let s := s.setRole 4 cause
  let s := s.setFld Reg.TWN_STATUS_PHASE 0 0 1
  let s := { s with twn := { s.twn with store := [], kept := [], keptEvents := [], copied := 0, own := [], got := [] } }
  s.sendRole 5 0 0

/-- Half the sum of CAP_MIB and TAL_MIB exceeds SPILL_MIB (R619). -/
def copyRoomFails (s : State) : Bool :=
  decide (2 * s.fld Reg.MEM_SPILL_MIB_MIB < s.fld Reg.MEM_CAP_MIB_MIB + s.fld Reg.MEM_TAL_MIB_MIB)

/-- What the active copies (R618): the words of its lockstep pages that differ from reset, SESSION, and, from
phase 2 on, the on-chip state. -/
def copyOf (s : State) (phase : Nat) : ResyncCopy :=
  let lock := fun (a : Nat) => match pageOf a with
    | some (k, _) => [PageKind.ABC, .AFE, .FLT, .TAL, .CAP, .CMP, .CRY, .MEM, .CTL, .MRK].contains k
    | none => false
  { kS := s.tim.k
    words := (s.regs.filter fun e => lock e.1).map fun e => (BitVec.ofNat 24 e.1, e.2), session := w32 (s.fld Reg.CRY_SESSION)
    state := if phase < 2 then none else some ⟨s.flt, s.abc, s.tal, s.cap, s.ctl, s.cry⟩ }

/-- The active is asked to resynchronise its twin (R618, R619). -/
def askedResync (s : State) (image usable : Word) : State :=
  if s.role ≠ 1 then s
  else if image.toNat ≠ s.fld Reg.SYS_IMAGE_VER_VERSION ∨ usable.toNat ≠ s.fld Reg.MEM_USABLE_MIB then
    (s.err .TWN 0 0x12).sendRole 5 1 0
  else if s.copyRoomFails then (s.err .TWN 0 0x13).sendRole 5 2 0
  else (s.setFld Reg.TWN_STATUS_PHASE 0 0 1).put (.copy 1 (s.copyOf 1))

/-! ### Self-check (R601 to R604, R620) -/

/-- Mark a channel in XMISM or CHFAIL. -/
def markChannel (s : State) (f : Field) (n : Nat) : State := s.orFld f 0 (n / 32) (2 ^ (n % 32))

/-- The decision of R604, once both results are there. -/
def decideSelf (s : State) (r : SelfRun) : State :=
  let own := decide (r.own = 1)
  let twin := decide (r.twin = 1)
  let s := { s with twn := { s.twn with selfRun := none, heldBack := false } }
  let s := (s.setFlag Reg.TWN_STATUS_CHECKING 0 0 false).raise .TWN 0 3
    (r.own + 4 * r.twin + 0x10 * r.test + 0x100 * b2n r.analog) (if r.analog then r.chan else 0)
  if r.analog then
    if own = twin then s.markChannel Reg.TWN_XMISM r.chan
    else if own then s
    else
      let s := s.markChannel Reg.TWN_CHFAIL r.chan
      if s.role = 1 then s.yieldNow 6 false else s
  else if s.role = 1 then (if !own && twin then s.yieldNow 6 true else s)
  else if s.role = 2 then
    if own && twin then s.enterResync 6 else if !own then s.setRole 5 6 else s
  else s

/-- The twin's result has come, or counts as FAIL (R603). -/
def twinResult (s : State) (result : Nat) : State :=
  match s.twn.selfRun with
  | none => s
  | some r =>
    let r := { r with twin := result }
    let s := { s with twn := { s.twn with selfRun := some r } }
    let s := s.setFld Reg.TWN_SELF_TWIN 0 0 result
    if r.own ≠ 0 then s.decideSelf r else s

/-- The member's own self-check is done (R603, R620): a self-check that the host asked for decides only a
failure, with the twin's result taken as pass. -/
def ownResult (s : State) (t : SelfResult) : State :=
  match s.twn.selfRun with
  | none => s
  | some r =>
    let test := match t with
      | some x => x.val
      | none => 0
    let own := if t.isSome then 2 else 1
    let r := { r with own := own, ownAt := s.life, test := test }
    let s := { s with twn := { s.twn with selfRun := some r } }
    let s := (s.setFld Reg.TWN_SELF_OWN 0 0 own).setFld Reg.TWN_SELF_TEST 0 0 test
    if r.host then
      if own = 2 then s.decideSelf { r with twin := 1 }
      else { s with twn := { s.twn with selfRun := none } }.setFlag Reg.TWN_STATUS_CHECKING 0 0 false
    else
      let s := s.sendRole 4 own 0
      if r.twin ≠ 0 then s.decideSelf r else s

/-- An analog mismatch on a channel, with the mean difference in ppm (R600). -/
def analogMismatch (s : State) (n : Nat) (ppm : Int) : State :=
  ((s.bump Reg.TWN_COUNTS_MISMATCH 0 0).raise .TWN 0 2 n (w32s ppm).toNat).startSelf true false n

/-! ### Port T -/

/-- STATUS.LINK changes: EV_TWN_LINK (R623); `code` 0 up, 1 link down, 2 missing sample, 3 silence. -/
def twinLink (s : State) (code : Nat) : State :=
  if s.flag Reg.TWN_STATUS_LINK = decide (code = 0) then s
  else
    let s := s.setFlag Reg.TWN_STATUS_LINK 0 0 (decide (code = 0))
    (s.raise .TWN 0 4 (b2n (decide (code = 0)) + 2 * code) (s.fld Reg.TWN_LAG_NS)).refreshGating

/-- A frame of the twin arrives on port T (R590). -/
def twinArrive (s : State) (handle : State → State) : State :=
  if !s.booted || !s.linked .T then s
  else
    let s := s.bump Reg.NET_RX_FRAMES_FRAMES 2 0
    if !s.sys.straps.pair then s.bump Reg.NET_DROPS_A_DROP_TYPE 2 0
    else
      let s := { s with twn := { s.twn with lastFrame := some s.life } }
      let s := if s.usable .T then s.twinLink 0 else s
      handle s

/-- The frames of the twin are lost (R614, R619): `code` of EV_TWN_LINK. -/
def twinLost (s : State) (code : Nat) : State :=
  if !s.sys.straps.pair then s
  else
    let s := s.twinLink code
    if s.role = 4 then s.endResync (if code = 1 then 1 else 2) 8
    else if s.role = 2 && !s.taking then
      let s := { s with twn := { s.twn with blendLeft := s.fld Reg.TWN_TW_CFG_XBLEND, handover := none } }
      s.setRole 3 8
    else if s.role = 1 then s.setFld Reg.TWN_STATUS_PHASE 0 0 0
    else s

/-- A TW_ROLE frame (R590, R602 to R604, R611, R618, R619). It does not tell the active the mean difference of an analog
mismatch: a free value (log 103). An active whose twin is not in RESYNC copies nothing to it. -/
def takeRole (s : State) (m : TwRoleMsg) : State :=
  let s := s.setFld Reg.TWN_STATUS_TWIN_ROLE 0 0 m.role.val
  let s := s.setFld64 Reg.TWN_TWIN_UID_LO_UID Reg.TWN_TWIN_UID_HI_UID 0 0 m.uid.toNat
  let s := { s with twn := { s.twn with twinJoined := m.joined, twinImage := m.imageVer, twinUsable := m.usable } }
  let s := s.refreshGating
  let s := if s.role = 1 ∧ m.role.val ≠ 4 then s.setFld Reg.TWN_STATUS_PHASE 0 0 0 else s
  let s : State := match m.request.val with
    | 1 =>
      if s.role = 2 ∧ s.twn.handover.isNone then
        let h : Handover := { kH := m.kH, yields := false, acked := true, toFailed := false, cause := 2, past := false
                              alone := false }
        { s with twn := { s.twn with handover := some h } }.sendRole 2 0 m.kH
      else s
    | 2 => { s with twn := { s.twn with handover := s.twn.handover.map fun h => { h with acked := h.acked || h.yields } } }
    | 3 => match m.channel with
      | some c => s.drawn.analogMismatch c.val (Config.freeWord s.free).toInt
      | none => s.startSelf false false 0
    | 4 => s.twinResult m.result.val
    | 5 =>
      if s.role = 4 ∧ m.result.val ≠ 0 then
        (s.err .TWN 0 (0x11 + m.result.val)).endResync (2 + m.result.val) 9
      else s.askedResync m.imageVer m.usable
    | _ => s
  if s.role = 4 ∧ m.role.val ≠ 1 then s.endResync 2 8
  else if m.role.val = 1 ∧ s.usable .T ∧ (s.role = 0 ∨ s.role = 3) ∧ m.request.val ≠ 5 then
    s.enterResync (if s.role = 0 then 1 else 9)
  else s

/-! ### Registers (R607, R620) -/

/-- A write of TWN.MGR_CMD (R607, R623): `remote` through the bound port `b` from the manager. -/
def mgrCmd (s : State) (w : Word) (remote portB : Bool) : State :=
  let cmd := w.toNat % 8
  let r := s.role
  let own := s.hasAddr && decide (w.toNat / 0x10000 = s.addr)
  let live := s.flag Reg.TWN_STATUS_TWHB_LIVE
  let may := decide (r = 0 ∨ r = 2 ∨ r = 3 ∨ r = 4) && !s.pins.driveMon
  let ok := s.sys.straps.pair && remote && own &&
    ((decide (cmd = 1) && may) || (decide (cmd = 2) && may && !live) || (decide (cmd = 3) && decide (r = 1)))
  let s := s.raise .TWN 0 7 (cmd + 8 * b2n ok + 0x10 * b2n s.pins.driveMon + 0x20 * b2n live)
    ((if remote then s.fld Reg.NET_MGR_ADDR else 0) + 0x10000 * b2n remote + 0x20000 * b2n portB)
  if !ok then s.err .TWN 0 0x11
  else if cmd = 3 then s.yieldNow 5 false
  else { s with twn := { s.twn with activeDue := some (if cmd = 1 then 4 else 3) } }

/-- A write of CTRL[31:8] of TWN (R585, R610, R620); on an unpaired hub it does nothing (R584). -/
def twnCtrl (s : State) (w : Word) : State :=
  if !s.sys.straps.pair then s
  else
    let s := if bit w.toNat 8 then s.yieldNow 5 false else s
    let s := if bit w.toNat 9 ∧ s.role = 5 then s.setRole 0 10 else s
    if bit w.toNat 10 then s.startSelf false true 0 else s

/-- What TWN does at a base instant (R606, R610, R611): it becomes active where that is due. -/
def twnInstant (s : State) : State :=
  let s := match s.twn.activeDue with
    | some c => { s with twn := { s.twn with activeDue := none } }.takeOver c
    | none => s
  let s := s.handoverAt
  s.handoverDrive

end State

/-! ### The commands -/

/-- LINK_DOWN: NETx_LOS rises, or the PCS reports a fault (R550, R568); port T takes the twin with it (R614). -/
def execLinkDown (np : NetPort) (c : DownCause) (s : State) : Host.Outcome State Fault Refusal :=
  if s.sys.inReset then .next s.finish
  else
    let los := decide (c = .los)
    let q := s.port np
    let s := s.setPort np { q with los := q.los || los, fault := q.fault || !los }
    let s := if los then s.setFlag Reg.NET_STATUS_LOS np.ix 0 true else s
    if !s.linked np then .next s.finish
    else
      let s := s.portDown np (if los then 1 else 2)
      .next (if np = .T then s.twinLost 1 else s).finish

/-- LINK_UP: NETx_LOS has fallen and the PCS link is up; the module answers its identity or does not (R550). -/
def execLinkUp (np : NetPort) (modId : Option Byte) (s : State) : Host.Outcome State Fault Refusal :=
  if s.sys.inReset then .next s.finish
  else
    let s := s.setFlag Reg.NET_STATUS_LOS np.ix 0 false
    let s := s.setFld Reg.NET_MOD_ID_ID np.ix 0 ((modId.map (·.toNat)).getD 0)
    let s := s.setPort np { s.port np with los := false, fault := false }
    .next (if s.flag Reg.NET_STATUS_EN np.ix && !s.flag Reg.NET_STATUS_LINK np.ix then s.portUp np else s).finish

/-- RESTORE_EXPIRY: every probe has been answered for RESTORE milliseconds (R570). -/
def execRestoreExpiry (np : NetPort) (s : State) : Host.Outcome State Fault Refusal :=
  match (s.port np).restoring with
  | some t =>
    .next (if s.booted && s.linked np && !s.usable np && s.past t (s.fld Reg.NET_RESTORE_MS np.ix) then s.portRestored np
      else s).finish
  | none => .next s.finish

/-- TW_CHECK: the standby compares each entry (R597). -/
def execTwCheck (es : List TwCheckMsg) (s : State) : Host.Outcome State Fault Refusal :=
  .next (s.twinArrive fun s => if s.role = 2 then es.foldl (fun s e => s.gotCheck e) s else s).finish

/-- TW_VERDICT: OK releases a gated block, MISMATCH and MISSING are digital mismatches (R598, R599). -/
def execTwVerdict (es : List (TwCheckMsg × Fin 3)) (s : State) : Host.Outcome State Fault Refusal :=
  .next (s.twinArrive fun s => es.foldl (fun s e =>
    if !s.leads then s
    else if e.2.val = 0 then
      let i := e.1.stream.val
      let l := ((s.stream i).blocks.filter fun b => decide (w32 b.bseq = e.1.n)).map fun b => (i, b.bseq)
      let l := if e.1.control then [] else l
      { s with twn := { s.twn with okd := s.twn.okd ++ l } }.bump Reg.TWN_CHECKED 0 0
    else s.digitalMismatch e.1.control e.1.stream.val e.1.n.toNat (decide (e.2.val = 2))) s).finish

/-- TW_ROLE (R603 and the rules that State.takeRole cites). -/
def execTwRole (m : TwRoleMsg) (s : State) : Host.Outcome State Fault Refusal :=
  .next (s.twinArrive fun s => s.takeRole m).finish

/-- TW_COPY: the member in RESYNC stores the data at its offset (R618). -/
def execTwCopy (phase : Fin 6) (off : Nat) (bs : List Byte) (s : State) : Host.Outcome State Fault Refusal :=
  .next (s.twinArrive fun s =>
    if s.role ≠ 4 then s
    else
      let m := (bs.zip (List.range bs.length)).foldl (fun m e => SMap.put m (0x10000000000 * phase.val + off + e.2) e.1) s.twn.store
      { s with twn := { s.twn with store := m, copied := s.twn.copied + bs.length } }).finish

/-- VERDICT_MISSING: no entry within 10 ms of the standby's own close (R597, R599). -/
def execVerdictMissing (s : State) : Host.Outcome State Fault Refusal :=
  if s.role ≠ 2 ∨ !s.sys.straps.pair then .next s.finish
  else
    match s.twn.own.find? fun r => s.past r.at_ 10 with
    | none => .next s.finish
    | some r =>
      let own := s.twn.own.filter fun x => !State.sameCheck x r.control r.stream r.n
      let s := { s with twn := { s.twn with own := own } }
      let s := s.sendTwin 0x43 (State.checkEntry r.control r.stream r.n r.crc 2)
      .next (s.digitalMismatch r.control r.stream r.n true).finish

/-- XCHK_WINDOW_END: a window of the analog cross-check of a channel is complete (R600, R605). -/
def execXchkWindowEnd (ch : Fin 256) (s : State) : Host.Outcome State Fault Refusal :=
  let x := s.twn.cross.lookD ch.val default
  let need := s.fld Reg.TWN_XCHK_XWIN * 256
  if s.role ≠ 2 ∨ !s.sys.straps.pair ∨ x.n < need then .next s.finish
  else
    let fresh : XWin := { (default : XWin) with fails := x.fails }
    let put := fun (s : State) (v : XWin) => { s with twn := { s.twn with cross := s.twn.cross.put ch.val v } }
    if x.bad then .next (put s fresh).finish
    else
      let fails := decide (s.fld Reg.TWN_XCHK_XTOL * 2147483648 * x.n < x.sum.natAbs * 1000000)
      let ppm := rdiv (x.sum * 1000000) (2147483648 * max 1 x.n)
      if !fails then .next (put s { fresh with fails := 0 }).finish
      else if x.fails + 1 < s.fld Reg.TWN_XCHK_XCOUNT then .next (put s { fresh with fails := x.fails + 1 }).finish
      else .next (((put s { fresh with fails := 0 }).sendRole 3 0 (ch.val + 1)).analogMismatch ch.val ppm).finish

/-- Test 3 of Table 5 fails: a word of queue memory carries a parity failure (R601). -/
def State.sramFails (s : State) : Bool := s.cry.queues.any fun e => e.2.words.any (·.bad)

/-- SELFCHECK_DONE (R601 to R604): the first test of a digital self-check that fails, which is test 3 at the latest while queue
memory holds a parity failure; an analog check ends once its readings are taken, with what they give. -/
def execSelfcheckDone (r : SelfResult) (s : State) : Host.Outcome State Fault Refusal :=
  .next (match s.twn.selfRun with
    | some x =>
      if !x.analog then s.ownResult (if r.isNone ∧ s.sramFails then some 3 else r)
      else if x.ended ∧ x.own = 0 then s.ownResult (if x.fails then some 4 else none)
      else s
    | none => s).finish

/-- SELFCHECK_RESULT_TIMEOUT: the twin's result counts as FAIL after 1 s (R603). -/
def execSelfcheckResultTimeout (s : State) : Host.Outcome State Fault Refusal :=
  match s.twn.selfRun with
  | some r => .next (if r.own ≠ 0 ∧ r.twin = 0 ∧ s.past r.ownAt 1000 then s.twinResult 2 else s).finish
  | none => .next s.finish

/-- TWHB_TOGGLE: TWHB_OUT of a pair member changes (R589). -/
def execTwhbToggle (s : State) : Host.Outcome State Fault Refusal :=
  .next (if s.booted && s.sys.straps.pair then { s with twn := { s.twn with twhbOut := !s.twn.twhbOut } } else s).finish

/-- TWHB_SILENT: TWHB_IN has been without an edge for TIMEOUT, or its next edge comes (R589). -/
def execTwhbSilent (silent : Bool) (s : State) : Host.Outcome State Fault Refusal :=
  let edge := s.twn.twhbEdge.any fun t =>
    decide (s.life < t + s.fld Reg.TWN_TWHB_CFG_TIMEOUT * 1000 * Config.unitsPerNs)
  if !s.booted || !s.sys.straps.pair || (silent && edge) then .next s.finish
  else
    let s := if silent then s else { s with twn := { s.twn with twhbEdge := some s.life } }
    if s.flag Reg.TWN_STATUS_TWHB_LIVE = !silent then .next s.finish
    else .next ((s.setFlag Reg.TWN_STATUS_TWHB_LIVE 0 0 (!silent)).raise .TWN 0 5 (b2n silent) 0).finish

/-- DRIVE_MON_CHANGE (R67, R68, R611 step 4): where both members have raised DRIVE_EN within 1 µs, the odd one
gives way. -/
def execDriveMonChange (level : Bool) (s : State) : Host.Outcome State Fault Refusal :=
  let s := { s with pins := { s.pins with driveMon := level } }.refreshTestDrive
  if s.sys.inReset then .next s.finish
  else
    let s := s.setFlag Reg.TWN_STATUS_DRIVE_MON 0 0 level
    let both := level && s.twn.drive && s.sys.straps.pair && s.sys.straps.twin &&
      decide (s.life ≤ s.twn.driveAt + 1000 * Config.unitsPerNs)
    if both then .next ((s.setDrive false).setRole 3 5).finish
    else .next s.handoverDrive.finish

/-- BECOME_ACTIVE_AT_START (R606): from SETTLING, at a base grid instant. -/
def execBecomeActiveAtStart (s : State) : Host.Outcome State Fault Refusal :=
  let twin := s.fld Reg.TWN_STATUS_TWIN_ROLE
  let may := s.booted && s.sys.straps.pair && decide (s.role = 0) && s.flag Reg.TWN_STATUS_LINK &&
    decide (twin = 0 ∨ twin = 5) && s.flag Reg.SYS_JOIN_STATUS_JOINED && (s.evenMember || decide (twin = 5))
  .next (if may then s.takeOver 1 else s).finish

/-- NETYIELD_EXPIRY (R610). -/
def execNetyieldExpiry (s : State) : Host.Outcome State Fault Refusal :=
  let n := s.fld Reg.TWN_TW_CFG_NETYIELD
  match s.twn.netLost with
  | some t => .next (if s.booted && decide (n ≠ 0) && s.past t n then s.yieldNow 7 false else s).finish
  | none => .next s.finish

/-- HANDOVER_INSTANT: G(K_H) (R611 steps 3 to 5). -/
def execHandoverInstant (s : State) : Host.Outcome State Fault Refusal := .next s.handoverAt.handoverDrive.finish

/-- HANDOVER_BLEND_END: the L samples of the blend are done (R611 step 7). -/
def execHandoverBlendEnd (s : State) : Host.Outcome State Fault Refusal :=
  match s.twn.handover with
  | none => .next s.finish
  | some h =>
    if !h.past ∨ s.twn.blendLeft ≠ 0 then .next s.finish
    else if h.yields then
      let s := { s with twn := { s.twn with handover := none } }
      .next (s.setRole (if h.toFailed then 5 else 2) h.cause).finish
    else if s.role ≠ 1 then .next s.finish
    else
      let s := { s with twn := { s.twn with handover := none } }
      .next ((s.liveStreams.foldl (fun s i => s.resumeStream i) s).refreshGating).finish

/-- The frames of the twin are lost (R614): the link is down (0), the sample of the next instant is missing 20 µs after it
(1), or no frame has come for 1 ms (2). -/
def State.frameMissing (s : State) (c : Fin 3) : Bool :=
  match c with
  | 0 => !s.usable .T
  | 1 => decide (s.gridT s.twn.nextK + 20000 * Config.unitsPerNs ≤ s.now)
  | 2 => !s.twn.lastFrame.any fun t => decide (s.life < t + 1000000 * Config.unitsPerNs)

/-- TW_SAMPLE_LOSS (R614). -/
def execTwSampleLoss (c : Fin 3) (s : State) : Host.Outcome State Fault Refusal :=
  .next (if s.booted && s.frameMissing c then s.twinLost (c.val + 1) else s).finish

/-- UNCOMPARED_BLOCK_RELEASE: a block has been kept for the stream's OUTAGE after its close (R615). -/
def execUncomparedBlockRelease (st : Fin 64) (s : State) : Host.Outcome State Fault Refusal :=
  let keep := s.fld Reg.CRY_S_OUTAGE_MS 0 st.val * 1000000
  if !s.uncompared then .next s.finish
  else
    match (s.stream st.val).blocks with
    | b :: rest =>
      .next (if b.closedNs + keep ≤ s.lifeNs then (s.setBlocks st.val rest).refreshSpill else s).finish
    | [] => .next s.finish

/-- TW_ROLE_TIMER: every 1 ms a member sends TW_ROLE (R590). -/
def execTwRoleTimer (s : State) : Host.Outcome State Fault Refusal := .next (s.sendRole 0 0 0).finish

end Sys2Proof.Machine
end

