-- ==== Sys2Proof/Machine/Ctl.lean ====
section
/-!
DEFINITION. The control loops (R624 to R650): the law, transfers, plausibility, overruns, commits and
registers. A loop takes its feedback from the base words of its bank (R378).
-/
namespace Sys2Proof.Machine

/-- Causes for which CTL[n] refuses a commit from `old` to `c` (R627, R649). A live loop is one in automatic. -/
def ctlChecks (live : Bool) (old c : SMap Word) (n : Nat) : List Nat :=
  let p := Reg.CTL_PERIOD_P.rd c n 0
  let period := decide (p < 16 ∨ 256000 < p ∨ 256000 % p ≠ 0)
  let limits := decide (Reg.CTL_LIMITS_OUT_MAX.rd c n 0 < Reg.CTL_LIMITS_OUT_MIN.rd c n 0)
  let fb := Reg.CTL_CFG_FB_CHAN.rd old n 0
  let gain := decide (Reg.AFE_CH_GAIN.rd old (fb / 16) (fb % 16) ≠ Reg.AFE_CH_GAIN.rd c (fb / 16) (fb % 16))
  let moved := decide (fb ≠ Reg.CTL_CFG_FB_CHAN.rd c n 0 ∨ Reg.CTL_PERIOD_P.rd old n 0 ≠ p) || gain
  [(period, 0x10), (limits, 0x11), (live && moved, 0x12)].filterMap fun x => if x.1 then some x.2 else none

/-- Fields whose change re-presets a loop in automatic (R638). -/
def presetFields : List Field :=
  [Reg.CTL_KP, Reg.CTL_KI, Reg.CTL_KD, Reg.CTL_KFF, Reg.CTL_FF_OFS_OFS, Reg.CTL_CFG_FF_SRC, Reg.CTL_CFG_FF_CHAN,
   Reg.CTL_CFG_FF_ROD]

namespace State

/-- What a loop keeps. -/
def loop (s : State) (n : Nat) : CtlState := s.ctl.lookD n default

/-- Replace what a loop keeps. -/
def setLoop (s : State) (n : Nat) (v : CtlState) : State := { s with ctl := s.ctl.put n v }

/-- The base word of a channel (R378). -/
def baseWord (s : State) (ch : Nat) : Word := (s.cnvOf (ch / 16)).base.getD (ch % 16) (0x80 : Word)

/-- The word of a channel carries S set under R189 or R195, or its channel has lost presence (R640). -/
def chanLost (s : State) (ch : Nat) : Bool :=
  bit (s.cnvOf (ch / 16)).lost (ch % 16) || !bit (s.fld Reg.AFE_PRES_STATUS_PRESENT (ch / 16)) (ch % 16)

/-- floor(G) modulo 2³² of the period's start. -/
def periodNs (s : State) : Nat := s.gridNs s.chainK % 0x100000000

/-- The code in force on a DAC. -/
def dac (s : State) (n : Nat) : Nat := s.fld Reg.CTL_OUT_CODE n

/-- A code takes effect (R624, R628); it enters the control interval of the twin's comparison (R596). -/
def setDac (s : State) (n code : Nat) (auto : Bool) : State :=
  let s := (s.setFld Reg.CTL_OUT_CODE n 0 code).setFlag Reg.CTL_OUT_MODE n 0 auto
  let l := s.twn.ctlBytes.lookD n []
  if s.sys.straps.pair then
    { s with twn := { s.twn with ctlBytes := s.twn.ctlBytes.put n (l ++ le 2 code ++ le 1 (b2n auto)) } }
  else s

/-- EV_CTL_MODE (R650). -/
def modeEvent (s : State) (n : Nat) (auto refused bump : Bool) (src : Nat) : State :=
  s.raise .CTL n 0 (b2n auto + 2 * b2n refused + 4 * b2n bump + 8 * src) s.periodNs

/-- A request for automatic is refused (R636); a bead's request is its failed action too (R343). -/
def refuseAuto (s : State) (n : Nat) (r : CtlReq) : State :=
  let s := (s.err .CTL n 0x13).modeEvent n (s.flag Reg.CTL_STATUS_MODE n) true false r.src
  if r.src = 1 then s.raise .ABC 0 10 (r.bead + 0x10000 * 0x13) (0xB0 + 0x100 * ((pageBase .CTL n) / 0x1000)) else s

/-- The code in force is held in manual (R637, R643). -/
def holdManual (s : State) (n : Nat) : State :=
  (s.setFld Reg.CTL_MAN_OUT_CODE n 0 (s.dac n)).setFlag Reg.CTL_STATUS_MODE n 0 false

/-- A loop drops to manual with a cause of FAULT_CAUSE (R642 to R645). -/
def dropLoop (s : State) (n cause : Nat) : State :=
  let v := s.loop n
  let auto := s.flag Reg.CTL_STATUS_MODE n
  let s := s.setLoop n { v with next := none, computed := false }
  let s := (s.holdManual n).setFlag Reg.CTL_STATUS_FAULT n 0 true
  let s := (s.setFld Reg.CTL_STATUS_FAULT_CAUSE n 0 cause).bump Reg.CTL_TRANSFERS_DROPS n 0
  let s := s.setFld Reg.CTL_LAST_DROP_T n 0 s.periodNs
  let s := s.raise .CTL n 1 (cause + 0x10000 * s.dac n) (s.fld Reg.CTL_RESID_R n)
  if auto then s.modeEvent n false false false 3 else s

/-- Clear SAT, or set it, with EV_CTL_SAT. -/
def setSat (s : State) (n : Nat) (sat upper slew : Bool) (u : Nat) : State :=
  if s.flag Reg.CTL_STATUS_SAT n = sat then s
  else (s.setFlag Reg.CTL_STATUS_SAT n 0 sat).raise .CTL n 2 (b2n sat + 2 * b2n upper + 4 * b2n slew) u

/-- The limits of a period's code, and whether the slew sets them (R631). -/
def codeLimits (s : State) (n : Nat) : Int × Int × Bool × Bool :=
  let mx : Int := s.fld Reg.CTL_LIMITS_OUT_MAX n
  let mn : Int := s.fld Reg.CTL_LIMITS_OUT_MIN n
  let slew : Int := s.fld Reg.CTL_SLEW n
  let u : Int := s.dac n
  if slew = 0 then (mn, mx, false, false)
  else (max mn (u - slew), min mx (u + slew), decide (mn < u - slew), decide (u + slew < mx))

/-- The feedforward input of the instant, and whether it is stale (R632). -/
def feedForward (s : State) (n : Nat) : Int × Bool :=
  let src := s.fld Reg.CTL_CFG_FF_SRC n
  if src = 1 then
    let ch := s.fld Reg.CTL_CFG_FF_CHAN n
    let w := s.baseWord ch
    if wordTags w &&& 0x11 ≠ 0 ∨ bit (s.cnvOf (ch / 16)).lost (ch % 16) then ((s.loop n).law.ffLast, true)
    else (wordValue w, false)
  else if src = 2 then
    let r := s.fld Reg.CTL_CFG_FF_ROD n
    (if s.rodQual r = 0 then 0 else sext 32 (s.fld Reg.ABC_VEL_V 0 r), false)
  else (0, false)

/-- The model and the residual of a period, both in 2⁻¹⁶ LSB (R641). -/
def modelStep (s : State) (n : Nat) (m y : Int) : Int × Int :=
  let g := s.fldS Reg.CTL_MODEL_G_G n
  let b := s.fldS Reg.CTL_MODEL_B_B n
  let m1 := m + rdiv ((s.fld Reg.CTL_MODEL_A_A n : Int) * (g * s.dac n + b * 65536 - m)) 65536
  (m1, y * 65536 - m1)

/-- The law of R631, or its preset of R635: the new state, the code, v and whether the preset was clamped. -/
def lawStep (s : State) (n : Nat) (w : CtlLaw) (y f : Int) (preset : Bool) : CtlLaw × Nat × Int × Bool :=
  let lim := s.codeLimits n
  let mn : Int := s.fld Reg.CTL_LIMITS_OUT_MIN n
  let mx : Int := s.fld Reg.CTL_LIMITS_OUT_MAX n
  let e := s.fldS Reg.CTL_SP n - y
  let p := rdiv (s.fldS Reg.CTL_KP n * e) 256
  let ff := rdiv (s.fldS Reg.CTL_KFF n * f) 256 + s.fldS Reg.CTL_FF_OFS_OFS n * 65536
  if preset then
    let want := (s.dac n : Int) * 65536 - p - ff
    let i := clamp (mn * 65536) (mx * 65536) want
    let v := p + i + ff
    ({ w with i := i, d := 0, yPrev := y, preset := false }, (clamp lim.1 lim.2.1 (rdiv v 65536)).toNat, v, decide (i ≠ want))
  else
    let d := w.d + rdiv ((w.yPrev - y) * 65536 - w.d) (2 ^ s.fld Reg.CTL_CFG_DF n : Nat)
    let dd := rdiv (s.fldS Reg.CTL_KD n * d) 0x1000000
    let step := rdiv (s.fldS Reg.CTL_KI n * e) 256
    let iNew := clamp (mn * 65536) (mx * 65536) (w.i + step)
    let v := p + iNew + dd + ff
    let wind := decide ((lim.2.1 * 65536 < v ∧ 0 < step) ∨ (v < lim.1 * 65536 ∧ step < 0))
    let i := if wind then w.i else iNew
    let v := if wind then p + w.i + dd + ff else v
    ({ w with i := i, d := d, yPrev := y }, (clamp lim.1 lim.2.1 (rdiv v 65536)).toNat, v, false)

/-- The last `n` periods are frozen (R642): all `n` are there, y has stayed within 1 LSB of its value at the first of them, and
the codes in force over them have spread by `du`. -/
def frozen (seen : List (Int × Nat)) (n du : Nat) : Bool :=
  let l := seen.take n
  match l.getLast? with
  | none => false
  | some a =>
    decide (l.length = n) && l.all (fun e => decide ((e.1 - a.1).natAbs ≤ 1)) &&
      decide (du + (l.map (·.2)).foldl min a.2 ≤ (l.map (·.2)).foldl max a.2)

/-- The FROZEN and IMPLAUSIBLE checks of an automatic period (R642), `r` in 2⁻¹⁶ LSB: the law and the cause that
drops the loop, 0 none. -/
def plausible (s : State) (n : Nat) (w : CtlLaw) (y r : Int) : CtlLaw × Nat :=
  let w := { w with seen := ((y, s.dac n) :: w.seen).take 255 }
  let w := { w with implRun := if s.fld Reg.CTL_RES_LIM_LIM n * 65536 < r.natAbs then w.implRun + 1 else 0 }
  if !s.flag Reg.CTL_CFG_PL_EN n then (w, 0)
  else if frozen w.seen (s.fld Reg.CTL_PLAUS_N_FROZ_N n) (s.fld Reg.CTL_FROZ_DU_DU n) then (w, 2)
  else if s.fld Reg.CTL_PLAUS_N_IMPL_M n ≤ w.implRun then (w, 3)
  else (w, 0)

/-- The requests of a period, in their order (R635 to R637, R646): answers the source of a move to automatic that
is still to be told, when one stands. -/
def takeReqs (s : State) (n : Nat) (lost : Bool) : List CtlReq → State × Option Nat
  | [] => (s, none)
  | r :: rest =>
    let auto := s.flag Reg.CTL_STATUS_MODE n
    if r.auto then
      if lost ∨ s.flag Reg.CTL_STATUS_FAULT n then (s.refuseAuto n r).takeReqs n lost rest
      else if auto then s.takeReqs n lost rest
      else
        let v := s.loop n
        let s := s.setLoop n { v with law := { v.law with preset := true, implRun := 0, seen := [], skips := 0 } }
        let t := (s.setFlag Reg.CTL_STATUS_MODE n 0 true).takeReqs n lost rest
        (t.1, if t.1.flag Reg.CTL_STATUS_MODE n then some (t.2.getD r.src) else none)
    else if auto then ((s.holdManual n).modeEvent n false false false r.src).takeReqs n lost rest
    else s.takeReqs n lost rest

/-- The computation of a period whose word is usable (R631 to R633, R641, R642). `moved` is the source of a move to
automatic in this period. -/
def computeLoop (s : State) (n : Nat) (y : Int) (moved : Option Nat) : State :=
  let v := s.loop n
  let w := v.law
  let auto := s.flag Reg.CTL_STATUS_MODE n
  let f := s.feedForward n
  let s := s.setFlag Reg.CTL_STATUS_FF_STALE n 0 f.2
  let w := { w with skips := 0, ffLast := f.1 }
  let mr := s.modelStep n w.m y
  let first := decide (moved ≠ none)
  let m := if auto ∧ !first then mr.1 else y * 65536
  let s := s.setFldS Reg.CTL_RESID_R n 0 (rdiv mr.2 65536)
  let s := s.setFldS Reg.CTL_MODEL_M n 0 m
  let chk := if auto then s.plausible n w y mr.2 else (w, 0)
  if chk.2 ≠ 0 then (s.setLoop n { v with law := { chk.1 with m := m } }).dropLoop n chk.2
  else
    let w := { chk.1 with m := m }
    if auto then
      let preset := first || w.preset
      let t := s.lawStep n w y f.1 preset
      let lim := s.codeLimits n
      let u := t.2.1
      let v16 := t.2.2.1
      let up := decide ((u : Int) = lim.2.1 ∧ lim.2.1 * 65536 < v16)
      let low := decide ((u : Int) = lim.1 ∧ v16 < lim.1 * 65536)
      let saved := { v.saved with preset := preset }
      let s := s.setLoop n { v with law := t.1, next := some (u, true), computed := true, saved := saved }
      let s := s.setFld Reg.CTL_I_STATE_I n 0 (w32s t.1.i).toNat
      let s := s.setSat n (up || low) up ((up && lim.2.2.2) || (low && lim.2.2.1)) u
      match moved with
      | some src =>
        let s := (s.setFlag Reg.CTL_STATUS_BUMP n 0 t.2.2.2).bump Reg.CTL_TRANSFERS_TO_AUTO n 0
        s.modeEvent n true false t.2.2.2 src
      | none => s
    else
      let lim := s.codeLimits n
      let u := (clamp lim.1 lim.2.1 (s.fld Reg.CTL_MAN_OUT_CODE n)).toNat
      let s := s.setLoop n { v with law := { w with yPrev := y }, next := some (u, false), computed := true }
      s.setSat n false false false u

/-- The requests that a skipped period takes, and those that wait for the next usable word: a move to manual acts at
once (R637), and a move to automatic that none follows waits (R646 Table 2). -/
def skipSplit (rs : List CtlReq) : List CtlReq × List CtlReq :=
  let n := rs.length - (rs.reverse.takeWhile fun r => r.auto).length
  (rs.take n, rs.drop n)

/-- A period of loop `n` begins at base index `k` (R627 to R646): the result of the period before takes effect, the
requests act, and this period is computed, skipped or ends in a drop. With `parity` the loop's state fails its parity, and the
loop drops whatever its mode (R645). -/
def loopPeriod (s : State) (n : Nat) (k : Int) (parity : Bool) : State :=
  let v := s.loop n
  let held := match s.twn.holdLoops with
    | some h => decide (h ≤ k) && (v.lastK.map fun x => decide (x < h)).getD false
    | none => false
  let s := match v.next with
    | some (u, a) => if held then s else s.setDac n u a
    | none => s
  let met := v.computed && !held
  let law := if held then v.saved else v.law
  let s := s.setLoop n { v with next := none, computed := false, law := law, saved := law, lastK := some k
                                overruns := if met then 0 else v.overruns }
  let s := s.setFlag Reg.CTL_STATUS_HOLDING n 0 held
  let ch := s.fld Reg.CTL_CFG_FB_CHAN n
  let word := s.baseWord ch
  let s := s.setFld Reg.CTL_LAST_FB_WORD n 0 word.toNat
  let skip := !s.chanLost ch && decide (wordTags word &&& 0x11 ≠ 0)
  let skips := if skip then (s.loop n).law.skips + 1 else 0
  let lost := s.chanLost ch || (skip && decide (s.fld Reg.CTL_PLAUS_N_LOST_N n ≤ skips))
  let s := s.setLoop n { s.loop n with law := { (s.loop n).law with skips := skips } }
  let s := if skip then (s.bump Reg.CTL_COUNTS_SKIPS n 0).setFlag Reg.CTL_STATUS_HOLDING n 0 true else s
  if parity || (lost && s.flag Reg.CTL_STATUS_MODE n) then
    let s := s.dropLoop n (if parity then 5 else 1)
    let rs := (s.loop n).reqs
    ((s.setLoop n { s.loop n with reqs := [] }).takeReqs n true rs).1
  else if skip && !lost then
    let rs := (s.loop n).reqs
    let p := skipSplit rs
    ((s.setLoop n { s.loop n with reqs := p.2 }).takeReqs n false p.1).1
  else
    let rs := (s.loop n).reqs
    let t := (s.setLoop n { s.loop n with reqs := [] }).takeReqs n lost rs
    if skip then t.1 else t.1.computeLoop n (wordValue word) t.2

/-- A request for automatic or manual (R635 to R637): of a disabled loop it is refused at once. -/
def loopReq (s : State) (n : Nat) (r : CtlReq) : State :=
  if !s.flag Reg.CTL_STATUS_EN n then (if r.auto then s.refuseAuto n r else s)
  else s.setLoop n { s.loop n with reqs := (s.loop n).reqs ++ [r] }

/-- A write of CTRL[31:8] of CTL[n] (R643, R647). -/
def ctlCtrl (s : State) (n : Nat) (w : Word) : State :=
  let s := if bit w.toNat 8 then s.loopReq n ⟨true, 0, 0⟩ else s
  let s := if bit w.toNat 9 then s.loopReq n ⟨false, 0, 0⟩ else s
  if bit w.toNat 10 then (s.setFlag Reg.CTL_STATUS_FAULT n 0 false).setFld Reg.CTL_STATUS_FAULT_CAUSE n 0 0 else s

/-- What a commit does to loop `n` (R625, R638, R639). -/
def ctlCommit (s : State) (old : SMap Word) (n : Nat) : State :=
  let was := decide (Reg.CTL_CFG_EN.rd old n 0 ≠ 0)
  let en := s.flag Reg.CTL_CFG_EN n
  if en && !was then
    let s := (s.setLoop n default).setFlag Reg.CTL_STATUS_EN n 0 true
    let s := (s.setFld Reg.CTL_OUT_CODE n 0 (s.fld Reg.CTL_MAN_OUT_CODE n)).setFlag Reg.CTL_OUT_MODE n 0 false
    if s.flag Reg.CTL_CFG_START_AUTO n then s.loopReq n ⟨true, 2, 0⟩ else s
  else if was && !en then
    let s := (s.setLoop n default).setFlag Reg.CTL_STATUS_EN n 0 false
    let s := (s.setFlag Reg.CTL_STATUS_MODE n 0 false).setFlag Reg.CTL_STATUS_HOLDING n 0 false
    let s := (s.setFlag Reg.CTL_STATUS_SAT n 0 false).setFlag Reg.CTL_STATUS_FF_STALE n 0 false
    (s.setFld Reg.CTL_OUT_CODE n 0 0).setFlag Reg.CTL_OUT_MODE n 0 false
  else if en && s.flag Reg.CTL_STATUS_MODE n && presetFields.any fun f => decide (f.rd old n 0 ≠ s.fld f n) then
    s.setLoop n { s.loop n with law := { (s.loop n).law with preset := true } }
  else s

/-- The registers show the integrator and the model of the law as it stands. -/
def showLaw (s : State) (n : Nat) : State :=
  let w := (s.loop n).law
  (s.setFld Reg.CTL_I_STATE_I n 0 (w32s w.i).toNat).setFldS Reg.CTL_MODEL_M n 0 w.m

/-- At a re-anchoring to grid index `k` each loop abandons its period, holds its code and begins another one (R630). -/
def ctlReanchor (s : State) (k : Int) : State :=
  ((List.range 16).filter fun n => s.flag Reg.CTL_STATUS_EN n).foldl (fun s n =>
    let v := s.loop n
    let s := s.setLoop n { v with next := none, computed := false, law := v.saved, lastK := none, restart := some k }
    (((s.showLaw n).setFlag Reg.CTL_STATUS_HOLDING n 0 true).bump Reg.CTL_COUNTS_SKIPS n 0)) s

/-- The control interval that ends at base instant `k` (R596): its CRC goes to the comparison. -/
def ctlInterval (s : State) (k : Int) : State :=
  if s.sys.straps.pair ∧ k % 256 = 0 ∧ (s.leads ∨ s.follows) then
    let bytes := s.twn.ctlBytes.flatMap (·.2)
    let s := { s with twn := { s.twn with ctlBytes := [] } }
    s.ownCheck true 0 (toField 32 (k - 256)) (crc32c bytes)
  else s

end State

/-- LOOP_PERIOD_START of an enabled loop at a base index that its period divides, or at the re-anchoring instant (R627, R628,
R630); the operand says whether its state fails its parity (R645). -/
def execLoopPeriodStart (x : LoopStart) (s : State) : Host.Outcome State Fault Refusal :=
  let n := x.loop.val
  let k := s.chainK
  let due := s.booted && !s.idles && s.flag Reg.CTL_STATUS_EN n &&
    decide (k % (s.fld Reg.CTL_PERIOD_P n : Int) = 0 ∨ (s.loop n).restart = some k) && decide ((s.loop n).lastK ≠ some k)
  .next (if due then s.loopPeriod n k x.parity else s).finish

/-- LOOP_DEADLINE: the result of the period in progress is not ready in time (R644). -/
def execLoopDeadline (n : Fin 16) (s : State) : Host.Outcome State Fault Refusal :=
  let v := s.loop n.val
  if !s.flag Reg.CTL_STATUS_EN n.val || !v.computed then .next s.finish
  else
    let s := s.setLoop n.val { v with next := none, computed := false, law := v.saved, overruns := v.overruns + 1 }
    let s := ((s.showLaw n.val).bump Reg.CTL_COUNTS_OVERRUNS n.val 0).setFlag Reg.CTL_STATUS_HOLDING n.val 0 true
    let start := s.gridNs (v.lastK.getD s.chainK) % 0x100000000
    let s := if v.overruns = 0 then s.raise .CTL n.val 3 (s.fld Reg.CTL_COUNTS_OVERRUNS n.val) start else s
    .next (if s.fld Reg.CTL_PLAUS_N_OVR_LIMIT n.val ≤ v.overruns + 1 ∧ s.flag Reg.CTL_STATUS_MODE n.val then s.dropLoop n.val 4 else s).finish

end Sys2Proof.Machine
end

