-- ==== Sys2Proof/Machine/Bead.lean ====
section
/-!
DEFINITION. The bead table (R331): an entry as its four words hold it, and the beads that are enabled.
-/
namespace Sys2Proof.Machine

/-- Address of word `w` of bead `b` (R331). -/
def beadAddr (b w : Nat) : Nat := 0x18000 + 16 * b + 4 * w

/-- A bead (R331 Table 3). -/
structure Bead where
  pos : Nat
  rod : Nat
  dir : Nat
  mode : Nat
  minq : Nat
  action : Nat
  en : Bool
  arg : Nat
  rep : Nat
deriving DecidableEq, Repr, Inhabited

/-- The bead that four words hold. -/
def beadOf (w0 w1 w2 w3 : Word) : Bead :=
  let n := w1.toNat
  { pos := w0.toNat + 0x100000000 * (n % 0x10000), rod := n / 0x10000 % 8, dir := n / 0x80000 % 4, mode := n / 0x200000 % 4
    minq := n / 0x800000 % 4, action := n / 0x2000000 % 32, en := bit n 31, arg := w2.toNat, rep := w3.toNat }

namespace State

/-- Bead `b` as the table holds it. -/
def bead (s : State) (b : Nat) : Bead :=
  beadOf (regRd s.regs (beadAddr b 0)) (regRd s.regs (beadAddr b 1)) (regRd s.regs (beadAddr b 2)) (regRd s.regs (beadAddr b 3))

/-- The enabled beads, in ascending number. -/
def enabledBeads (s : State) : List Nat :=
  (s.regs.filter fun e => decide (0x18000 ≤ e.1 ∧ e.1 < 0x1C000 ∧ e.1 % 16 = 4) && bit e.2.toNat 31).map fun e =>
    (e.1 - 0x18000) / 16

/-- Set or clear EN of a bead. -/
def setBeadEn (s : State) (b : Nat) (en : Bool) : State :=
  let w := (regRd s.regs (beadAddr b 1)).toNat % 0x80000000
  { s with regs := regWr s.regs (beadAddr b 1) (w32 (w + 0x80000000 * b2n en)) }

/-- Move a bead. -/
def setBeadPos (s : State) (b p : Nat) : State :=
  let w := (regRd s.regs (beadAddr b 1)).toNat / 0x10000 * 0x10000
  let m := regWr s.regs (beadAddr b 0) (w32 p)
  { s with regs := regWr m (beadAddr b 1) (w32 (w + p / 0x100000000 % 0x10000)) }

end State
end Sys2Proof.Machine
end

