-- ==== Sys2Proof/Machine/Mrk.lean ====
section
/-!
DEFINITION. The marker drive (R651 to R675): refreshes and latches, flips and fades, the open-string diagnosis,
the boost and the frame memory.
-/
namespace Sys2Proof

/-- A returned control word carries MARK (R653 Table 1). -/
def BoardRet.marked (b : BoardRet) : Bool := decide (b.ctl.toNat / 0x10000000 = 0xA)

/-- CRCERR of a returned control word. -/
def BoardRet.crcErr (b : BoardRet) : Bool := b.marked && Machine.bit b.ctl.toNat 27

/-- HEADROOM of a returned control word, in 25 mV units. -/
def BoardRet.headroom (b : BoardRet) : Nat := b.ctl.toNat / 0x10000 % 0x100

/-- OPEN of a returned control word, a bit for each channel. -/
def BoardRet.opens (b : BoardRet) : Nat := b.ctl.toNat % 0x10000

end Sys2Proof

namespace Sys2Proof.Machine

/-- Address of entry `i` of a frame buffer (R659). -/
def frameAddr (buf i : Nat) : Nat := 0xC8000 + 0x1000 * buf + 4 * i

/-- One bit into the CRC-8 of R653: polynomial 0x07. -/
def crc8Bit (c : Nat) (b : Bool) : Nat :=
  if bit c 7 != b then (2 * c % 0x100) ^^^ 0x07 else 2 * c % 0x100

/-- CRC-8 over bits in sending order (R653). -/
def crc8 (bits : List Bool) : Nat := bits.foldl crc8Bit 0

/-- The 17 words of a board's register as sent (R653 Table 1): control, then START and WIDTH of its channels. -/
def boardWords (board : Nat) (oneshot : Bool) (chans : List Nat) : List Nat :=
  let top := 0xB4 * 0x10000 + board * 0x100 + 0x40 * b2n oneshot
  (top * 0x100 + crc8 (msbBits 24 top ++ chans.flatMap (msbBits 20))) :: chans

/-- PWM periods that a refresh lasts (R657). -/
def refreshPeriods (n : Nat) : Nat := cdiv (352 * n + 1) 768

/-- MKDAT over a refresh (R653, R654, R657): zeros that pass out of the chain, the registers, each word most significant bit
first, and the clock of the latch. -/
def refreshBits (registers : List (List Nat)) : List Bool :=
  let n := registers.length
  List.replicate (768 * refreshPeriods n - 352 * n - 1) false ++
    registers.flatMap (fun ws => msbBits 32 (ws.headD 0) ++ ws.tail.flatMap (msbBits 20)) ++ [false]

/-- A board's output at count `t` of a PWM period (R652). -/
def pwmOn (start width t : Nat) : Bool := decide ((t + 768 - start) % 768 < width)

/-- Causes for which MRK refuses a commit that leaves configuration `c` (R674). -/
def mrkChecks (c : SMap Word) : List Nat :=
  let vInit := Reg.MRK_BST_CFG_V_INIT.rd c 0 0
  let vMax := Reg.MRK_BST_CFG_V_MAX.rd c 0 0
  if vInit < Reg.MRK_BST_LIM_V_MIN.rd c 0 0 ∨ vMax < vInit ∨
    1500 * 100 * Reg.MRK_BST_DIV_DIV.rd c 0 0 < 105 * vMax * 256 then [0x11] else []

/-- The time that a fade takes (R662). -/
def WFade.time (f : WFade) : Nat := f.ms * 1000000 * Config.unitsPerNs

namespace State

/-- MODE in force. -/
def mrkMode (s : State) : Nat := s.fld Reg.MRK_CFG_MODE

/-- Boards on the chain, or rows of the matrix. -/
def boards (s : State) : Nat := if s.mrkMode = 1 then s.fld Reg.MRK_CFG_CHAIN_LEN + 1 else 16

/-- Entry `i` of the front buffer. -/
def frontEntry (s : State) (i : Nat) : Nat := (regRd s.regs (frameAddr (s.fld Reg.MRK_STATUS_FRONT) i)).toNat

/-- Low 32 bits of the counter in ns. -/
def lowNs (s : State) : Nat := s.nowNs % 0x100000000

/-! ### Flips and fades (R660, R662) -/

/-- A flip is requested (R660): `src` 0 host, 1 bead, 2 MKSYNC. -/
def flipReq (s : State) (src : Nat) : State :=
  if s.flag Reg.MRK_STATUS_FLIP_PEND then s.bump Reg.MRK_COUNTS_MERGED 0 0
  else { s.setFlag Reg.MRK_STATUS_FLIP_PEND 0 0 true with mrk := { s.mrk with flipSrc := src } }

/-- The width that entry `i` is sent now (R662). -/
def widthNow (s : State) (i : Nat) : Nat :=
  match s.mrk.fades.look i with
  | some f =>
    let t := max 1 f.time
    (rdiv ((f.w0 : Int) * t + ((f.w1 : Int) - f.w0) * (min (s.life - f.t0) t : Nat)) t).toNat
  | none => s.frontEntry i % 0x400

/-- STATUS.FADING. -/
def showFading (s : State) : State := s.setFlag Reg.MRK_STATUS_FADING 0 0 (!s.mrk.fades.isEmpty)

/-- A pending flip is taken at a refresh start (R660, R662). -/
def takeFlip (s : State) : State :=
  let front := 1 - s.fld Reg.MRK_STATUS_FRONT
  let s := (s.setFld Reg.MRK_STATUS_FRONT 0 0 front).setFlag Reg.MRK_STATUS_FLIP_PEND 0 0 false
  let s := s.bump Reg.MRK_COUNTS_FLIPS 0 0
  let ms := s.fld Reg.MRK_FADE_MS
  let fades : SMap WFade := if ms = 0 then [] else
    (List.range (16 * s.boards)).filterMap fun i =>
      let e := s.frontEntry i
      let w0 := s.mrk.widths.lookD i 0
      if bit e 20 ∧ w0 ≠ e % 0x400 then some (i, ⟨w0, e % 0x400, s.life, ms⟩) else none
  let s := { s with mrk := { s.mrk with fades := fades } }
  s.showFading.raise .MRK 0 0 (front + 2 * s.mrk.flipSrc) s.lowNs

/-- The fades that have run their time end (R662). -/
def endFades (s : State) : State :=
  let done := s.mrk.fades.filter fun e => decide (e.2.t0 + e.2.time ≤ s.life)
  let s := { s with mrk := { s.mrk with fades := s.mrk.fades.filter fun e => !decide (e.2.t0 + e.2.time ≤ s.life) } }
  done.foldl (fun s e =>
    s.raise .MRK 0 5 e.2.ms (s.ofLife (e.2.t0 + e.2.time) / Config.unitsPerNs % 0x100000000)) s.showFading

/-! ### The diagnosis (R667, R668) -/

/-- A diagnostic refresh becomes due (R667, R672). -/
def diagDue (s : State) : State :=
  if s.mrkMode ≠ 1 ∨ s.flag Reg.MRK_STATUS_DIAG_DUE then s
  else { s.setFlag Reg.MRK_STATUS_DIAG_DUE 0 0 true with mrk := { s.mrk with dueAt := s.life, told := false } }

/-- The instants nearest to now at which the enabled rod-0 beads of an exposure action of a camera stand: rod 0
wraps at 2³² samples (R309). -/
def exposeBeads (s : State) (cam action : Nat) : List Int :=
  let here : Int := ((s.now : Int) - s.tim.anchor) * 65536 / Config.baseUnits
  (s.enabledBeads.map s.bead).filterMap fun b =>
    if b.rod = 0 ∧ b.action = action ∧ b.arg % 16 = cam then
      some ((s.now : Int) + sext 48 (toField 48 (b.pos - here)) * Config.baseUnits / 65536)
    else none

/-- A diagnostic interval from `t0` to `t1` meets a known exposure window of a camera, or none may be chosen. -/
def camBlocks (s : State) (cam : Nat) (t0 t1 : Int) : Bool :=
  let opens := s.exposeBeads cam 14
  let closes := s.exposeBeads cam 15
  let foreign := (s.enabledBeads.map s.bead).any fun b =>
    decide (b.rod ≠ 0 ∧ (b.action = 14 ∨ b.action = 15) ∧ b.arg % 16 = cam)
  let isOpen := match s.abc.exposures.look cam with
    | some e => e.2.isNone
    | none => false
  let nextClose := fun (t : Int) => (closes.filter fun c => decide (t < c)).min?
  let meets := fun (a : Int) (b : Option Int) => decide (a < t1) && (b.map fun x => decide (t0 < x)).getD true
  foreign || (isOpen && (decide (closes = []) || meets s.now (nextClose s.now))) || opens.any fun o => meets o (nextClose o)

/-- The cameras of DIAG.CAMS that block a diagnostic refresh starting now, as a mask (R668). -/
def blocking (s : State) : Nat :=
  let t0 : Int := s.now + 62500 * Config.unitsPerNs * refreshPeriods s.boards
  let t1 := t0 + (62500 + 1000 * s.fld Reg.MRK_DIAG_TIME_GUARD) * Config.unitsPerNs
  ((bitsOf 16 (s.fld Reg.MRK_DIAG_CAMS)).filter fun c => s.camBlocks c t0 t1).foldl (fun m c => m + 2 ^ c) 0

/-- An exposure window of a camera is known (R668): one that is open, or one that a rod-0 bead will open. -/
def camKnown (s : State) (cam : Nat) : Bool :=
  (match s.abc.exposures.look cam with
    | some e => e.2.isNone
    | none => false) || decide (s.exposeBeads cam 14 ≠ [])

/-- A diagnostic refresh may start now (R668). Without a known exposure window of any camera of CAMS none is sent (R35
Table 2). -/
def diagNow (s : State) : Bool :=
  s.flag Reg.MRK_STATUS_DIAG_DUE && !s.flag Reg.MRK_STATUS_FLIP_PEND && decide (s.blocking = 0) &&
    (bitsOf 16 (s.fld Reg.MRK_DIAG_CAMS)).any fun c => s.camKnown c

/-! ### Refreshes (R653 to R658, R661, R663) -/

/-- START of channel `c` of board `k` (R661). -/
def startOf (s : State) (k c : Nat) : Nat :=
  if s.flag Reg.MRK_CFG_SPREAD then (48 * c + 3 * k) % 768 else s.frontEntry (16 * k + c) / 0x400 % 0x400

/-- The width that a diagnostic refresh sends for an entry (R667). -/
def diagWidth (s : State) (i : Nat) : Nat :=
  let e := s.frontEntry i
  let w := s.widthNow i
  let covered := bit e 21 && (decide (0 < w ∧ w < s.fld Reg.MRK_DIAG_W) || (decide (w = 0) && s.flag Reg.MRK_DIAG_DARK))
  if covered then s.fld Reg.MRK_DIAG_W else w

/-- The registers of a refresh, in sending order: board N − 1 first (R653). -/
def chainWords (s : State) (diag : Bool) : List (List Nat) :=
  (List.range s.boards).reverse.map fun k =>
    boardWords k diag ((List.range 16).map fun c =>
      let i := 16 * k + c
      s.startOf k c * 0x400 + (if diag then s.diagWidth i else s.widthNow i))

/-- A refresh starts, at the beginning of a PWM period (R651, R657, R660, R668); in matrix mode a PWM period does (R663). -/
def refreshStart (s : State) : State :=
  if s.mrkMode = 0 ∨ s.mrk.running ∨ s.chainK % 16 ≠ 0 then s
  else
    let diag := decide (s.mrkMode = 1) && s.diagNow
    let s := if s.flag Reg.MRK_STATUS_FLIP_PEND then s.takeFlip else s
    let widths : SMap Nat := (List.range (16 * s.boards)).filterMap fun i =>
      let w := s.widthNow i
      if w = 0 then none else some (i, w)
    let drive := s.flag Reg.MRK_STATUS_DRIVING && decide (s.mrkMode = 1)
    let words := s.chainWords diag
    let s := if drive then s.put (.chain words diag) else s
    let s := { s with mrk := { s.mrk with sending := (words.map fun (ws : List Nat) => ws.tail).reverse, startAt := s.life } }
    let s := if diag then s.setFlag Reg.MRK_STATUS_DIAG_DUE 0 0 false else s
    { s with mrk := { s.mrk with widths := widths, running := decide (s.mrkMode = 1), diag := diag } }

/-- V_set follows the lowest headroom (R665). -/
def followHeadroom (s : State) (h : Nat) : State :=
  if s.mrkMode = 1 ∧ s.flag Reg.MRK_STATUS_CHAIN_OK ∧ s.flag Reg.MRK_STATUS_BOOST_ON then
    let step := clamp (-400) 400 (((s.fld Reg.MRK_BST_LIM_HR_TARGET : Int) - h) * 25)
    let v := rdiv (4 * (s.fld Reg.MRK_BST_NOW_V_SET : Int) + step) 4
    s.setFld Reg.MRK_BST_NOW_V_SET 0 0
      (clamp (s.fld Reg.MRK_BST_LIM_V_MIN) (s.fld Reg.MRK_BST_CFG_V_MAX) v).toNat
  else s

/-- The register returned by a board passes its check (R658): MARK is 0xA, and the echo equals what the refresh before sent it. -/
def echoOk (s : State) (b : BoardRet) : Bool :=
  b.marked && decide (s.mrk.sent.getD b.board.val [] = b.echo)

/-- The registers that a latch returns are checked (R658, R665, R669). A board of which nothing returns fails, and what a
control word tells is taken from every one that carries its MARK. -/
def checkReturn (s : State) (bs : List BoardRet) : State :=
  let get := fun (k : Nat) => bs.find? fun b => decide (b.board.val = k)
  let ks := List.range s.boards
  let bad := ks.filter fun k => !(get k).any s.echoOk
  let good := ks.filterMap fun k => (get k).filter (·.marked)
  let s := (s.bump Reg.MRK_ERRS_ECHO 0 0 bad.length).bump Reg.MRK_ERRS_BOARD_CRC 0 0 (good.filter (·.crcErr)).length
  let run := if bad = [] then 0 else s.mrk.failRun + 1
  let s := { s with mrk := { s.mrk with failRun := run } }
  let s := if bad = [] then s.setFlag Reg.MRK_STATUS_CHAIN_OK 0 0 true
    else if s.flag Reg.MRK_STATUS_CHAIN_OK ∧ s.fld Reg.MRK_CFG_CHAIN_LIMIT ≤ run then
      (s.setFlag Reg.MRK_STATUS_CHAIN_OK 0 0 false).raise .MRK 0 1 (bad.headD 0) (regRd s.regs 0xC01C4).toNat
    else s
  let opens := good.flatMap fun b => (bitsOf 16 b.opens).map fun c => 16 * b.board.val + c
  let new := opens.filter fun i => !bit (s.fld Reg.MRK_OPEN 0 (i / 32)) (i % 32)
  let s := opens.foldl (fun s i => s.orFld Reg.MRK_OPEN 0 (i / 32) (2 ^ (i % 32))) s
  let s := match new with
    | i :: _ => s.raise .MRK 0 2 (i + 0x400 * b2n s.mrk.wasDiag) s.lowNs
    | [] => s
  let low := good.foldl (fun (acc : Option BoardRet) b => match acc with
    | some a => if b.headroom < a.headroom then some b else some a
    | none => some b) none
  match low with
  | some b =>
    ((s.setFld Reg.MRK_HR_MIN_HR 0 0 b.headroom).setFld Reg.MRK_HR_MIN_BOARD 0 0 b.board.val).followHeadroom b.headroom
  | none => s

/-! ### The boost (R664 to R666) -/

/-- The boost starts: V_set at V_INIT, the duty from 0 (R665). -/
def boostStart (s : State) : State :=
  let s := { s with mrk := { s.mrk with duty := 0, vsetDue := false } }
  let s := s.setFld Reg.MRK_BST_NOW_V_SET 0 0 (s.fld Reg.MRK_BST_CFG_V_INIT)
  s.setFlag Reg.MRK_STATUS_BOOST_ON 0 0 (s.flag Reg.MRK_STATUS_DRIVING)

/-- V_meas for a voltage on BSTSNS in millivolts (R664). -/
def vMeas (s : State) (mv : Nat) : Nat := min (mv * s.fld Reg.MRK_BST_DIV_DIV / 256) 0xFFFF

/-- V_meas exceeds V_MAX by more than 5 % (R666). -/
def overMax (s : State) (v : Nat) : Bool := decide (105 * s.fld Reg.MRK_BST_CFG_V_MAX < 100 * v)

/-! ### Registers and commits -/

/-- A write of CTRL[31:8] of MRK (R660, R666, R672). -/
def mrkCtrl (s : State) (w : Word) : State :=
  let s := if bit w.toNat 8 then s.flipReq 0 else s
  let s := if bit w.toNat 9 then s.diagDue else s
  if bit w.toNat 10 ∧ s.flag Reg.MRK_STATUS_BOOST_FAULT then
    let s := s.setFlag Reg.MRK_STATUS_BOOST_FAULT 0 0 false
    if s.flag Reg.MRK_CFG_BST_EN then s.boostStart else s
  else s

/-- A write of entry `i` of the frame memory, both buffers counted (R659). -/
def frameWrite (s : State) (i : Nat) (w : Word) : State :=
  if i / 0x400 = s.fld Reg.MRK_STATUS_FRONT then s.err .MRK 0 0x10
  else if 768 < w.toNat % 0x400 then s.err .MRK 0 0x07
  else { s with regs := regWr s.regs (0xC8000 + 4 * i) (w32 (w.toNat % 0x400000)) }

/-- What a commit does to MRK (R664, R665, R671). -/
def mrkCommit (s : State) (old : SMap Word) : State :=
  let mode := s.mrkMode
  let moved := decide (Reg.MRK_CFG_MODE.rd old 0 0 ≠ mode ∨ Reg.MRK_CFG_CHAIN_LEN.rd old 0 0 ≠ s.fld Reg.MRK_CFG_CHAIN_LEN)
  let s := if moved then
      { s with mrk := { s.mrk with running := false, diag := false, wasDiag := false, sentOnce := false, failRun := 0 } }
    else s
  let s := s.setFlag Reg.MRK_STATUS_RUN 0 0 (decide (mode ≠ 0))
  let was := decide (Reg.MRK_CFG_BST_EN.rd old 0 0 ≠ 0)
  let en := s.flag Reg.MRK_CFG_BST_EN
  let s := if en && !was && !s.flag Reg.MRK_STATUS_BOOST_FAULT then s.boostStart
    else if !en then s.setFlag Reg.MRK_STATUS_BOOST_ON 0 0 false else s
  if mode = 2 ∧ en then s.setFld Reg.MRK_BST_NOW_V_SET 0 0 (s.fld Reg.MRK_BST_CFG_V_INIT) else s

end State

/-- REFRESH_START (R657). -/
def execRefreshStart (s : State) : Host.Outcome State Fault Refusal :=
  .next (if s.booted && !s.idles then s.refreshStart else s).finish

/-- The refresh in progress has lasted its PWM periods (R657). -/
def State.latchDue (s : State) : Bool :=
  s.booted && s.mrk.running &&
    decide (s.mrk.startAt + refreshPeriods s.boards * 62500 * Config.unitsPerNs ≤ s.life)

/-- LATCH: a refresh ends; a member that does not drive the chain reads nothing back (R658, R670). -/
def execLatch (bs : List BoardRet) (s : State) : Host.Outcome State Fault Refusal :=
  if !s.latchDue then .next s.finish
  else
    let diag := s.mrk.diag
    let s := if diag then s.bump Reg.MRK_DIAGS_DONE 0 0 else s
    let s := if s.flag Reg.MRK_STATUS_DRIVING && s.mrk.sentOnce then s.checkReturn bs else s
    .next { s with mrk := { s.mrk with
      running := false, wasDiag := diag, sentOnce := true, sent := s.mrk.sending } }.finish

/-- An accepted edge of MKSYNC (R660). -/
def State.mkSync (s : State) (level : Bool) (ns : Nat) : State :=
  let s := { s.setFld Reg.MRK_LAST_SYNC_T 0 0 (ns % 0x100000000) with mrk := { s.mrk with syncLevel := level } }
  if s.flag Reg.MRK_CFG_SYNC_EN ∧ s.flag Reg.MRK_CFG_SYNC_EDGE = !level then s.flipReq 2 else s

/-- MKSYNC_EDGE; a member that follows takes its twin's (R593, R660). -/
def execMksyncEdge (level : Bool) (t : Tm) (s : State) : Host.Outcome State Fault Refusal :=
  if !s.booted || s.follows then .next s.finish
  else
    let ns := t / Config.unitsPerNs
    .next ((s.mkSync level ns).sendTwEvents (s.tim.k + 1) [.edge 21 level ns]).finish

/-- DIAG_PERIOD_EXPIRY, every DIAG_TIME.PERIOD ms (R667). -/
def execDiagPeriodExpiry (s : State) : Host.Outcome State Fault Refusal :=
  .next (if s.booted && s.past s.mrk.diagFrom (s.fld Reg.MRK_DIAG_TIME_PERIOD) then
      { s with mrk := { s.mrk with diagFrom := s.life } }.diagDue
    else s).finish

/-- DIAG_DEFERRED: a due refresh has not been sent for 1 s (R668). -/
def execDiagDeferred (s : State) : Host.Outcome State Fault Refusal :=
  if s.flag Reg.MRK_STATUS_DIAG_DUE && !s.mrk.told && s.past s.mrk.dueAt 1000 then
    let s := (s.bump Reg.MRK_DIAGS_DEFERRED 0 0)
    let s := { s with mrk := { s.mrk with told := true } }
    .next (s.raise .MRK 0 4 s.blocking (regRd s.regs 0xC01C8).toNat).finish
  else .next s.finish

/-- MARKER_FADE_END (R662). -/
def execMarkerFadeEnd (s : State) : Host.Outcome State Fault Refusal := .next s.endFades.finish

/-- BOOST_CYCLE: a switching cycle with BSTSNS at `mv` millivolts (R664). The law of the duty is not given: a free
value from 0 up to DUTY_MAX. -/
def execBoostCycle (mv : Nat) (s : State) : Host.Outcome State Fault Refusal :=
  if !s.booted || !s.flag Reg.MRK_STATUS_BOOST_ON then .next s.finish
  else
    let v := s.vMeas mv
    let s := s.setFld Reg.MRK_BST_NOW_V_MEAS 0 0 v
    let s := if s.mrk.vsetDue ∧ s.mrkMode ≠ 2 then s.setFld Reg.MRK_BST_NOW_V_SET 0 0 v else s
    let top := s.fld Reg.MRK_BST_LIM_DUTY_MAX * 65536 / 100
    let duty := (Config.freeWord s.free).toNat % (top + 1)
    let since := if s.overMax v then some (s.mrk.overAt.getD s.life) else none
    .next { s.drawn with mrk := { s.mrk with duty := duty, vsetDue := false, overAt := since } }.finish

/-- BOOST_TRIP: V_meas has exceeded V_MAX by 5 % for 10 µs (R666). -/
def execBoostTrip (mv : Nat) (s : State) : Host.Outcome State Fault Refusal :=
  let v := s.vMeas mv
  let long := s.mrk.overAt.any fun t => decide (t + 10000 * Config.unitsPerNs ≤ s.life)
  if !s.booted || !s.flag Reg.MRK_STATUS_BOOST_ON || !s.overMax v || !long then .next s.finish
  else
    let s := (s.setFld Reg.MRK_BST_NOW_V_MEAS 0 0 v).setFlag Reg.MRK_STATUS_BOOST_FAULT 0 0 true
    let s := { s.setFlag Reg.MRK_STATUS_BOOST_ON 0 0 false with mrk := { s.mrk with duty := 0, overAt := none } }
    .next (s.raise .MRK 0 3 v (s.fld Reg.MRK_BST_NOW_V_SET)).finish

end Sys2Proof.Machine
end

