-- ==== Sys2Proof/Machine/Dbg.lean ====
section
/-!
DEFINITION. Test access (R676 to R694): TESTEN, the test access port with its instructions and boundary
cells, the selections of the test outputs, and the self-tests.
-/
namespace Sys2Proof.Machine
namespace State

/-- The register between TDI and TDO (R679 Table 1), as the instruction in force selects it: the identity word of R680, bit 0
first, the boundary cells, or the bypass bit. -/
def tapRegister (s : State) : List Bool :=
  let ir := s.fld Reg.DBG_STATUS_IR
  if ir = 1 then (List.range 32).map fun i => bit (s.fld Reg.DBG_IDCODE_ID) i
  else if ir = 2 ∨ ir = 3 then s.dbg.cells
  else [false]

/-- An instruction comes into force at the test access port (R679). -/
def setIr (s : State) (code : Nat) : State := (s.setFld Reg.DBG_STATUS_IR 0 0 code).refreshTestDrive

/-- Load an instruction that acts only while TESTEN is high, and as BYPASS otherwise (R677, R679). -/
def setTestIr (s : State) (code : Nat) : State := s.setIr (if s.pins.testen then code else 0xFF)

/-! ### Self-tests (R688 to R691) -/

/-- The memory of a target is in use (R688 Table 4), in a configuration and with the beads enabled. -/
def bistInUse (c : SMap Word) (beads : Bool) (target group : Nat) : Bool :=
  match target with
  | 1 => (List.range 16).any (fun q => decide (Reg.CRY_QCFG_EN.rd c 0 q = 1)) ||
      (List.range 64).any fun i => decide (Reg.CRY_S_CFG_EN.rd c 0 i = 1) && decide (Reg.CRY_S_CFG_DEST.rd c 0 i = 1)
  | 2 => decide (Reg.FLT_CHAIN_EN.rd c group 0 = 1)
  | 3 => beads
  | 4 => decide (Reg.MRK_CFG_MODE.rd c 0 0 ≠ 0)
  | _ => false

/-- A memory test of `target` runs. -/
def bistOn (s : State) (target : Nat) : Bool :=
  s.flag Reg.DBG_STATUS_BIST_BUSY && decide (s.dbg.target = target)

/-- DBG.CTRL.BIST_GO (R688). A GO with a TARGET that names no test starts none. -/
def bistGo (s : State) : State :=
  let t := s.fld Reg.DBG_BIST_SEL_TARGET
  let g := s.fld Reg.DBG_BIST_SEL_GROUP
  if s.flag Reg.DBG_STATUS_BIST_BUSY then s.err .DBG 0 0x10
  else if t = 0 ∨ 5 < t then s
  else if bistInUse s.regs (!s.enabledBeads.isEmpty) t g then s.err .DBG 0 0x11
  else
    let s := { s with dbg := { s.dbg with target := t, group := g, measured := 0 } }
    s.setFlag Reg.DBG_STATUS_BIST_BUSY 0 0 true

/-- The causes for which DBG refuses a commit that leaves configuration `c` (R688): it would put the memory
under test back into use. -/
def dbgChecks (s : State) (c : SMap Word) : List Nat :=
  if s.flag Reg.DBG_STATUS_BIST_BUSY && decide (s.dbg.target ≠ 3) && bistInUse c false s.dbg.target s.dbg.group
  then [0x10] else []

/-- Words of the register space back at 0, from `lo` to before `hi` (R689). -/
def zeroWords (s : State) (lo hi : Nat) : State :=
  let f := fun (m : SMap Word) => m.filter fun e => !(decide (lo ≤ e.1) && decide (e.1 < hi))
  { s with regs := f s.regs, shadow := f s.shadow }

/-- A memory test leaves every word of its memory at 0 (R689). -/
def bistClear (s : State) : State :=
  match s.dbg.target with
  | 1 => { s with cry := { s.cry with queues := s.cry.queues.map fun e => (e.1, { e.2 with words := [], left := 0 }) } }
  | 2 => s.zeroWords (0x100000 + 0x10000 * s.dbg.group) (0x110000 + 0x10000 * s.dbg.group)
  | 3 => s.zeroWords 0x18000 0x1C000
  | 4 => s.zeroWords 0xC8000 0xCA000
  | _ => s

/-- The reference test's verdict (R690): deviations of points P and N of each bank in ppm; a bank whose spare
table for gain 1 is empty is void. -/
def refVerdict (s : State) (devs : List (Int × Int)) : State × Bool :=
  let void := fun (b : Nat) => decide (s.table (17 * b + 16) 0 = [])
  let dev := fun (b : Nat) => if void b then (0, 0) else devs.getD b (0, 0)
  let live := (List.range 16).filter fun b => !void b
  let okBank := live.all fun b => decide ((dev b).1.natAbs ≤ 1000 ∧ (dev b).2.natAbs ≤ 1000)
  let agree := live.all fun a => live.all fun b => decide (((dev a).1 - (dev b).1).natAbs ≤ 500)
  let s := (List.range 16).foldl (fun s b => s.setFld Reg.DBG_REF_DEV_PPM 0 b (ppm16 (dev b).1)) s
  (s, okBank && agree)

/-- A self-test ends (R691); the reference test once every bank has been measured (R690). -/
def bistDone (s : State) (e : BistEnd) (devs : List (Int × Int)) : State :=
  if !s.flag Reg.DBG_STATUS_BIST_BUSY || (decide (s.dbg.target = 5) && decide (s.dbg.measured ≠ 0xFFFF)) then s
  else
    let t := s.dbg.target
    let r := if t = 5 then s.refVerdict devs else (s.bistClear, decide (e = .pass))
    let addr : Word := match e with
      | .fail a => if t = 5 then 0 else a
      | .pass => 0
    let res := if r.2 then 1 else 2
    let s := ((r.1.setFld Reg.DBG_BIST_RES_RESULT 0 0 res).setFld Reg.DBG_BIST_RES_TARGET 0 0 t).setFld
      Reg.DBG_FAIL_ADDR_ADDR 0 0 addr.toNat
    let s := { s with dbg := { s.dbg with target := 0, measured := 0 } }
    (s.setFlag Reg.DBG_STATUS_BIST_BUSY 0 0 false).raise .DBG 0 0 (res + 4 * t) addr.toNat

/-- A write of DBG.CTRL (R692). -/
def dbgCtrl (s : State) (w : Word) : State := if bit w.toNat 8 then s.bistGo else s

/-- Largest instance that R684 Table 2 gives a digital selection code; `none` for a code outside it. -/
def dselLast (code : Nat) : Option Nat :=
  if code = 6 then some 1023
  else if code = 7 then some 19
  else if code = 8 ∨ code = 0xA then some 255
  else if code = 9 ∨ code = 0xB ∨ code = 0xC ∨ code = 0xD then some 15
  else if code = 0xE then some 63
  else if code = 0xF then some 3
  else if code ≤ 0x10 then some 1023
  else none

/-- A selection of Table 2 (R684); a code without an instance takes any. -/
def dselOk (code inst : Nat) : Bool :=
  match dselLast code with
  | some n => decide (inst ≤ n)
  | none => false

/-- What drives the balls: DRIVE_EN (R67, R683). -/
def driveEn (s : State) : Bool := s.twn.drive || s.dbg.testDrive

/-- The level of a test output whose code follows a level (R684 Table 2), before INV; `none` for an output at
high impedance, and for one that carries pulses or a clock. -/
def dbgLevel (s : State) (k : Nat) : Option Bool :=
  let code := s.fld Reg.DBG_DSEL_CODE 0 k
  let i := s.fld Reg.DBG_DSEL_INST 0 k
  if !dselOk code i then none
  else if code = 3 then some (decide (s.timeState = 2))
  else if code = 4 then some (decide (s.timeState = 3))
  else if code = 7 then some (s.inLevel i)
  else if code = 8 then some (bit (s.fld Reg.AFE_BRK_STATUS_BREAK (i / 16)) (i % 16))
  else if code = 0xB then some (decide (s.capState i = 2))
  else if code = 0xD then some (!(s.queue i).words.isEmpty)
  else if code = 0xE then some (s.flag Reg.CRY_S_STATE_OVER 0 i)
  else none

end State

/-- TESTEN_CHANGE (R676, R677, R682). -/
def execTestenChange (level : Bool) (s : State) : Host.Outcome State Fault Refusal :=
  if s.pins.testen = level then .next s.finish
  else
    let s := { s with pins := { s.pins with testen := level } }
    let s := s.setFlag Reg.DBG_STATUS_TESTMODE 0 0 level
    let s := if s.sys.inReset then s else s.raise .DBG 0 1 (b2n level)
    let ir := s.fld Reg.DBG_STATUS_IR
    let s := if !level && decide (ir = 3 ∨ ir = 4 ∨ ir = 5) then s.setIr 0xFF else s
    .next (if level then s.yieldNow 5 false else s).finish

/-- TEST_LOGIC_RESET (R678): TRST_L low, or five TCK cycles with TMS high. -/
def execTestLogicReset (s : State) : Host.Outcome State Fault Refusal := .next s.testReset.finish

/-- IDCODE (R679, R680). -/
def execIdcode (s : State) : Host.Outcome State Fault Refusal := .next (s.setIr 1).finish

/-- SAMPLE/PRELOAD (R679): the boundary cells are loaded, the balls stay in function. -/
def execSamplePreload (cells : List Bool) (s : State) : Host.Outcome State Fault Refusal :=
  .next ({ s with dbg := { s.dbg with cells := cells } }.setIr 2).finish

/-- EXTEST (R679, R683): the cells are loaded and drive the balls; BYPASS while TESTEN is low. -/
def execExtest (cells : List Bool) (s : State) : Host.Outcome State Fault Refusal :=
  let s := if s.pins.testen then { s with dbg := { s.dbg with cells := cells } } else s
  .next (s.setTestIr 3).finish

/-- CLAMP (R679, R683): the outputs are held from the cells; BYPASS while TESTEN is low. -/
def execClamp (s : State) : Host.Outcome State Fault Refusal := .next (s.setTestIr 4).finish

/-- HIGHZ (R679): every celled output at high impedance; BYPASS while TESTEN is low. -/
def execHighz (s : State) : Host.Outcome State Fault Refusal := .next (s.setTestIr 5).finish

/-- BYPASS (R679): 0xFF and every code that Table 1 does not name; a code that names another instruction is not
this one. -/
def execBypass (code : Byte) (s : State) : Host.Outcome State Fault Refusal :=
  if 1 ≤ code.toNat ∧ code.toNat ≤ 5 then .next s.finish else .next (s.setIr 0xFF).finish

/-- BIST_END (R689 to R691). -/
def execBistEnd (e : BistEnd) (devs : List (Int × Int)) (s : State) : Host.Outcome State Fault Refusal :=
  .next (s.bistDone e devs).finish

end Sys2Proof.Machine
end

