-- ==== Sys2Proof/Machine/Balls.lean ====
section
/-!
DEFINITION. The balls (R53 to R72) as views of the state: where each lies on the grid, its direction and its supply
domains, what it does in each condition of R64 Table 5, under boundary scan (R679, R681, R683), and what the test outputs
carry (R684, R686).
-/
namespace Sys2Proof.Machine

/-- A supply of R77 Table 8. -/
inductive Supply where
  | agnd | dgnd | avdd5 | avdd18 | dvdd | vdd2 | vddq | vddio (k : Nat)
deriving DecidableEq, Repr, Inhabited

/-- A ball (R55 to R62). A lane index counts the balls of R62 Table 4 in their order, a memory index those of R60 Table 3;
`n` before a port's index says that it is of host port B. -/
inductive Ball where
  | supply (x : Supply)
  | inP (n : Nat) | inN (n : Nat) | grd (g : Nat)
  | excSp (b : Nat) | excSn (b : Nat) | excIsp (b : Nat) | excIsn (b : Nat) | excDrv (b : Nat) | excRev (b : Nat)
  | teds (b : Nat) | vcap (b : Nat)
  | refP (i : Nat) | refN (i : Nat) | msenseP | msenseN | dacref | dac (n : Nat)
  | axi (n : Nat) | trig (n : Nat) | sync | mksync
  | mkdat | mkclk | mklat | mkret | bstg | bstsns | mxa (n : Nat) | mxk (n : Nat)
  | hpLane (p : HostPort) (i : Nat) | hpPerst (p : HostPort) | hpClkreq (p : HostPort) | hpInt (p : HostPort)
  | hpCs (p : HostPort) | hpSck (p : HostPort) | hpIo (p : HostPort) (i : Nat)
  | spiCs | spiSck | spiIo (i : Nat)
  | strap (i : Nat) | testen | resetL | refclkP | refclkN
  | twhbOut | twhbIn | active | driveEn | driveMon
  | netLane (p : NetPort) (i : Nat) | netLos (p : NetPort) | netTxdis (p : NetPort) | netScl (p : NetPort) | netSda (p : NetPort)
  | mem (ch i : Nat)
  | tck | tms | tdi | tdo | trst | dbg (k : Nat) | atb (m : Nat) | sdsCal
deriving DecidableEq, Repr, Inhabited

/-! ### The grid (R53 to R62) -/

/-- The rows of the grid by name, from row 1 on (R8, R53). -/
def rowNames : List String :=
  ["A", "B", "C", "D", "E", "F", "G", "H", "J", "K", "L", "M", "N", "P", "T", "U", "V", "W", "Y"] ++
  ["AA", "AB", "AC", "AD", "AE", "AF", "AG", "AH", "AJ", "AK", "AL", "AM", "AN", "AP", "AT", "AU", "AV", "AW", "AY"] ++
  ["BA", "BB", "BC"]

/-- Row and column of INn_P (R55, R56); INn_N lies in the next column. -/
def inPlace (n : Nat) : Nat × Nat :=
  let b := n / 16
  let p := n % 16
  let c0 := 5 * (b % 8) + 1
  (if b < 8 then 1 + p % 8 else 41 - p % 8, if p < 8 then c0 else c0 + 3)

/-- The ball at row `i` of the block of bank `b`, counted from the package edge, and column `j` of it (R56, R57 Table 2). -/
def bankBall (b i j : Nat) : Ball :=
  if j = 2 ∨ i = 11 then .supply .agnd
  else if i < 8 then
    let n := 16 * b + i + (if j < 2 then 0 else 8)
    if j = 0 ∨ j = 3 then .inP n else .inN n
  else if i = 8 then .grd (4 * b + (if j < 2 then j else j - 1))
  else if i = 9 then (if j = 0 then .excSp b else if j = 1 then .excSn b else if j = 3 then .excIsp b else .excIsn b)
  else (if j = 0 then .excDrv b else if j = 1 then .excRev b else if j = 3 then .teds b else .vcap b)

/-- Column 41 of rows A to M and AL to BC (R58). -/
def edgeBall (row : Nat) : Ball :=
  if row ≤ 8 then (if row % 2 = 1 then .refP (row / 2) else .refN (row / 2 - 1))
  else match row with
    | 9 => .msenseP
    | 10 => .msenseN
    | 11 => .dacref
    | 12 => .supply .agnd
    | _ => .supply (if row % 2 = 0 then .avdd5 else .agnd)

/-- Columns 24 or 20 on to 34 of a digital row, where supplies `a` and `b` alternate (R62). -/
def alternate (even odd : Supply) (col : Nat) : Ball := .supply (if col % 2 = 0 then even else odd)

/-- A row of a host port (R62 Table 4). -/
def hostRow (p : HostPort) (col : Nat) : Ball :=
  if col ≤ 17 then .hpLane p (col - 8)
  else match col with
    | 18 => .hpPerst p
    | 19 => .hpClkreq p
    | 20 => .hpInt p
    | 21 => .hpCs p
    | 22 => .hpSck p
    | _ => if col ≤ 26 then .hpIo p (col - 23) else alternate .dgnd (.vddio 2) col

/-- The ports in the order of R62 Table 4. -/
def portAt (i : Nat) : NetPort := if i = 0 then .N else if i = 1 then .S else if i = 2 then .T else .M

/-- Columns 8 to 34 of rows T to AH (R62 Table 4). -/
def digitalBall (row col : Nat) : Ball :=
  let i := col - 8
  match row with
  | 15 => if col ≤ 23 then .dac i else .supply .agnd
  | 16 =>
    if col ≤ 23 then .axi i else if col ≤ 27 then .trig (col - 24) else if col = 28 then .sync
    else if col = 29 then .mksync else alternate (.vddio 0) .dgnd col
  | 17 =>
    if col ≤ 13 then [Ball.mkdat, .mkclk, .mklat, .mkret, .bstg, .bstsns].getD i .mkdat
    else if col ≤ 29 then .mxa (col - 14) else alternate (.vddio 1) .dgnd col
  | 18 => if col ≤ 23 then .mxk i else alternate (.vddio 1) .dgnd col
  | 19 => hostRow .A col
  | 20 => hostRow .B col
  | 21 =>
    if col = 8 then .spiCs else if col = 9 then .spiSck else if col ≤ 13 then .spiIo (col - 10)
    else if col ≤ 20 then .strap (col - 14)
    else if col ≤ 24 then [Ball.testen, .resetL, .refclkP, .refclkN].getD (col - 21) .testen
    else alternate .dgnd (.vddio 2) col
  | 22 =>
    if col ≤ 11 then [Ball.twhbOut, .twhbIn, .active, .driveEn].getD i .twhbOut
    else if col ≤ 27 then
      let p := portAt ((col - 12) / 4)
      [Ball.netLos p, .netTxdis p, .netScl p, .netSda p].getD ((col - 12) % 4) (.netLos p)
    else if col = 28 then .driveMon else alternate (.vddio 3) .dgnd col
  | 23 =>
    if col ≤ 12 then [Ball.tck, .tms, .tdi, .tdo, .trst].getD i .tck
    else if col ≤ 16 then .dbg (col - 13) else if col ≤ 18 then .atb (col - 17) else if col = 19 then .sdsCal
    else alternate .dvdd .dgnd col
  | 24 =>
    if col ≤ 31 then
      let p := portAt (i / 6)
      match i % 6 with
      | 0 => .netLane p 0
      | 1 => .netLane p 1
      | 3 => .netLane p 2
      | 4 => .netLane p 3
      | _ => .supply .dgnd
    else .supply .avdd18
  | _ => alternate .dvdd .dgnd col

/-- The ball at a row and a column, each from 1 to 41 (R54 Table 1, R59 to R61). -/
def ballAt (row col : Nat) : Ball :=
  if row ≤ 12 then (if col = 41 then edgeBall row else bankBall ((col - 1) / 5) (row - 1) ((col - 1) % 5))
  else if 30 ≤ row then (if col = 41 then edgeBall row else bankBall (8 + (col - 1) / 5) (41 - row) ((col - 1) % 5))
  else if row = 13 ∨ row = 29 then alternate .agnd .avdd5 col
  else if row = 14 ∨ row = 28 then alternate .agnd .avdd18 col
  else
    let i := row - 15
    if col ≤ 5 then .mem 0 (5 * i + (col - 1))
    else if 37 ≤ col then .mem 1 (5 * i + (col - 37))
    else if col = 6 ∨ col = 36 then .supply (if i % 2 = 0 then .vddq else .dgnd)
    else if col = 7 ∨ col = 35 then .supply (if i % 2 = 0 then .vdd2 else .dgnd)
    else digitalBall row col

/-! ### Direction and domain (R64 Table 5) -/

/-- Direction of a ball. -/
inductive Dir where
  | in_ | out | io | openDrain | ioOpenDrain | analog | diff | power
deriving DecidableEq, Repr, Inhabited

/-- The direction and the supply domains of a ball (R64 Table 5). -/
def Ball.group : Ball → Dir × List Supply
  | .supply x => (.power, [x])
  | .inP _ | .inN _ | .excSp _ | .excSn _ | .excIsp _ | .excIsn _ | .refP _ | .refN _ | .msenseP | .msenseN => (.in_, [.avdd5])
  | .grd _ | .excDrv _ | .excRev _ | .dac _ => (.out, [.avdd5])
  | .teds _ => (.ioOpenDrain, [.avdd5])
  | .vcap _ | .dacref => (.analog, [.avdd5])
  | .axi _ | .trig _ | .sync | .mksync => (.in_, [.vddio 0])
  | .mkdat | .mkclk | .mklat | .mxa _ | .mxk _ | .bstg => (.out, [.vddio 1])
  | .mkret => (.in_, [.vddio 1])
  | .bstsns | .refclkP | .refclkN => (.in_, [.avdd18])
  | .hpLane _ _ | .netLane _ _ => (.diff, [.avdd18, .dvdd])
  | .hpPerst _ | .hpCs _ | .hpSck _ | .strap _ | .testen | .resetL => (.in_, [.vddio 2])
  | .hpClkreq _ | .hpInt _ => (.openDrain, [.vddio 2])
  | .hpIo _ _ | .spiIo _ => (.io, [.vddio 2])
  | .spiCs | .spiSck => (.out, [.vddio 2])
  | .twhbOut | .active | .driveEn | .netTxdis _ | .tdo => (.out, [.vddio 3])
  | .twhbIn | .driveMon | .netLos _ | .tck | .tms | .tdi | .trst => (.in_, [.vddio 3])
  | .netScl _ | .netSda _ => (.ioOpenDrain, [.vddio 3])
  | .mem _ _ => (.io, [.vddq, .vdd2])
  | .dbg _ => (.out, [.vddio 3])
  | .atb _ => (.analog, [.avdd18])
  | .sdsCal => (.analog, [.avdd18])

/-- The shared-drive balls (R65); the test currents of the input pairs count as such. -/
def Ball.shared : Ball → Bool
  | .grd _ | .excDrv _ | .excRev _ | .teds _ | .mkdat | .mkclk | .mklat | .mxa _ | .mxk _ | .bstg => true
  | _ => false

/-- The balls with a boundary cell (R681): the signal balls of VDDIO0 to VDDIO3, but for those of the test access port, and
TESTEN. -/
def Ball.celled (b : Ball) : Bool :=
  match b with
  | .supply _ | .tck | .tms | .tdi | .tdo | .trst | .testen => false
  | _ => b.group.2.any fun x => match x with
    | .vddio _ => true
    | _ => false

/-- A celled ball that its cell may drive: an output (R681: RESET_L and the straps only observe). -/
def Ball.driven (b : Ball) : Bool := b.celled && decide (b.group.1 ≠ .in_)

/-! ### What a ball does -/

/-- What the hub does at a ball: nothing, reads it, drives a level, a voltage or a current, leaves an open drain released, or
runs it as its interface does. -/
inductive BallState where
  | highZ
  | input
  | ignored            -- an input that the hub does not look at
  | low
  | high
  | released           -- an open drain that is not pulled
  | electricalIdle
  | passive
  | weakLow            -- 0 V through the internal 20 kΩ
  | volts (microvolts : Int)
  | current (nanoamps : Int)
  | operating          -- as the interface on it runs
deriving DecidableEq, Repr, Inhabited

/-- A level driven. -/
def BallState.level (b : Bool) : BallState := if b then .high else .low

/-- What a ball does while any supply is below its minimum (R64 Table 5, Unpowered). -/
def Ball.unpowered : Ball → BallState
  | .supply _ | .vcap _ | .dacref | .sdsCal => .passive
  | .dac _ => .weakLow
  | .hpLane _ _ | .netLane _ _ => .electricalIdle
  | _ => .highZ

/-- What a ball does in reset (R64 Table 5, Reset; R93): of a memory, Mc_RESET_L and the two CKE are driven low. -/
def Ball.inReset : Ball → BallState
  | .supply _ | .vcap _ | .dacref | .sdsCal => .passive
  | .dac _ => .volts 0
  | .hpLane _ _ | .netLane _ _ => .electricalIdle
  | .hpPerst _ | .strap _ | .testen | .resetL | .refclkP | .refclkN | .twhbIn | .driveMon | .netLos _ => .input
  | .tck | .tms | .tdi | .trst => .input
  | .hpCs _ | .hpSck _ => .ignored
  | .hpClkreq _ | .hpInt _ | .netScl _ | .netSda _ => .released
  | .twhbOut | .active | .driveEn => .low
  | .netTxdis _ => .high
  | .mem _ i => if i = 46 ∨ i = 56 ∨ i = 64 then .low else .highZ
  | _ => .highZ

/-- ATBm at code `code`, instance `inst`, for a node at `uv` microvolts (R686 Table 3), within what the buffer covers. Code 0 and
a selection outside Table 3 leave the ball high-impedance (the latter DESIGN CHOICE, log 146). -/
def atbOut (code inst : Nat) (uv : Int) : BallState :=
  let last := [0, 255, 63, 15, 15, 15, 15, 255, 15, 255, 255, 255, 255, 255, 15].getD code 0
  if code = 0 ∨ 14 < code ∨ last < inst then .highZ
  else
    let y : Int := match code with
      | 1 => uv / 4 + 900000
      | 2 => uv / 4 + 100000
      | 3 => uv / 8 + 200000
      | 4 => uv / 4 + 100000
      | 5 => uv / 2
      | 6 => uv
      | 7 => uv / 2
      | 8 => uv / 2 + 100000
      | 9 => uv / 4
      | 10 => uv / 2
      | 14 => uv + 100000
      | _ => uv
    .volts (clamp 100000 1700000 y)

/-- A DAC code in microvolts (R624): 2.5 V × code ÷ 65,535. -/
def dacMicrovolts (code : Nat) : Int := rdiv (2500000 * (code : Int)) 65535

namespace State

/-- ACTIVE (R69): the active member of a pair, but from K_H of a handover on (R611 step 3), or an unpaired hub from the end
of boot on. -/
def activeBall (s : State) : Bool := s.booted && decide (s.role = 1) && !s.yielded

/-- A supply stands below its minimum (R64). -/
def unpowered (s : State) : Bool := s.sys.sources.any fun x => match x with
  | .rail _ => true
  | _ => false

/-- What the cells hold for the ball at a place: the cell order is that of the BSDL description, which the spec does not give
(R681, log 146). -/
def cellOf (s : State) (row col : Nat) : BallState :=
  match Config.cellLevel row col s.dbg.cells with
  | some x => .level x
  | none => .highZ

/-- EXTEST and CLAMP drive a ball from its cell (R679, R683): on a paired hub a shared-drive ball only while DRIVE_MON is low,
and DRIVE_EN then from its function. -/
def fromCell (s : State) (row col : Nat) : Option BallState :=
  let b := ballAt row col
  let ir := s.fld Reg.DBG_STATUS_IR
  if !s.pins.testen || !b.driven then none
  else if ir = 5 then some .highZ
  else if ir ≠ 3 ∧ ir ≠ 4 then none
  else if !s.sys.straps.pair then some (s.cellOf row col)
  else if b.shared then some (if s.dbg.testDrive then s.cellOf row col else .highZ)
  else if b = .driveEn ∧ s.dbg.testDrive then some .high
  else some (s.cellOf row col)

/-- The level, or the signal, on DBGk (R684). -/
def dbgBall (s : State) (k : Nat) : BallState :=
  let code := s.fld Reg.DBG_DSEL_CODE 0 k
  if code = 0 ∨ !dselOk code (s.fld Reg.DBG_DSEL_INST 0 k) then .highZ
  else match s.dbgLevel k with
    | some x => .level (x != s.flag Reg.DBG_DSEL_INV 0 k)
    | none => .operating

/-- The node that a selection of R686 Table 3 taps, in microvolts, where the state holds it: the guard drives, the sense of the
excitation, the reference points, the temperature, DACREF, the DACs and AGND. -/
def atbNode (s : State) (code inst : Nat) : Option Int :=
  match code with
  | 2 => some ((s.guardDrive (inst / 4) (inst % 4)).getD 0)
  | 3 => some ((s.afeOf inst).exc.volt * 1000)
  | 5 => some 1875000
  | 6 => some (700000 - 2000 * (s.bankTemp inst / 8 - 25))
  | 7 => some 2500000
  | 8 => some (dacMicrovolts (s.dac inst))
  | 14 => some 0
  | _ => none

/-- What ATBm carries (R686). `node` is the voltage of a node that the state does not hold. -/
def atbBall (s : State) (m : Nat) (node : Int) : BallState :=
  let code := s.fld Reg.DBG_ASEL_CODE 0 m
  let inst := s.fld Reg.DBG_ASEL_INST 0 m
  atbOut code inst ((s.atbNode code inst).getD node)

/-- What a shared-drive ball does while the hub drives (R66, R200, R203, R212, R663, R664, R671). -/
def sharedBall (s : State) : Ball → BallState
  | .grd g => match s.guardDrive (g / 4) (g % 4) with
    | some v => .volts v
    | none => .highZ
  | .excDrv b =>
    let e := (s.afeOf b).exc
    if s.fld Reg.AFE_EXC_MODE_MODE b = 0 ∧ e.phase = .idle ∧ e.changeEnd = none then .highZ else .volts (e.drv * 1000)
  | .excRev b => .level (s.flag Reg.AFE_EXC_NOW_REV b)
  | .teds b => if s.flag Reg.AFE_STATUS_TEDS_BUSY b then .operating else .released
  | .mkdat | .mkclk | .mklat => if s.mrkMode = 1 then .operating else .low
  | .mxa _ | .mxk _ => if s.mrkMode = 2 then .operating else .highZ
  | .bstg => if s.flag Reg.MRK_STATUS_BOOST_ON then .operating else .low
  | _ => .highZ

/-- What a ball does after boot and in standby (R64 Table 5). -/
def serviceBall (s : State) (b : Ball) : BallState :=
  if b.shared then (if s.twn.drive then s.sharedBall b else .highZ)
  else match b with
    | .inP n => match s.testCurrent (n / 16) (n % 16) with
      | 0 => .highZ
      | x => .current x
    | .inN n => match s.testCurrent (n / 16) (n % 16) with
      | 0 => .highZ
      | x => .current (-(x : Int))
    | .excSp _ | .excSn _ | .excIsp _ | .excIsn _ | .refP _ | .refN _ | .msenseP | .msenseN => .highZ
    | .vcap _ | .dacref | .sdsCal => .operating
    | .supply _ => .passive
    | .dac n => .volts (dacMicrovolts (s.dac n))
    | .hpLane p _ => if (if p = .A then s.sys.straps.hpa else s.sys.straps.hpb) then .electricalIdle else .operating
    | .hpClkreq p => if (if p = .A then s.sys.straps.hpa else s.sys.straps.hpb) then .released else .low
    | .hpInt p => if s.intLow p then .low else .released
    | .hpIo _ _ => .operating
    | .spiCs => .high
    | .spiSck | .spiIo _ => .operating
    | .twhbOut => .level s.twn.twhbOut
    | .active => .level s.activeBall
    | .driveEn => .level s.driveEn
    | .netTxdis p => .level (!s.flag Reg.NET_STATUS_EN p.ix)
    | .netLane p _ => if s.flag Reg.NET_STATUS_EN p.ix then .operating else .electricalIdle
    | .netScl _ | .netSda _ | .mem _ _ | .tdo => .operating
    | .dbg k => s.dbgBall k
    | .atb m => s.atbBall m 0
    | _ => .input

/-- What a ball does between the release of reset and the end of boot (R63): its reset state, but for the boot flash, the host
ports, the memories and TWHB_OUT. -/
def bootBall (s : State) (b : Ball) : BallState :=
  match b with
  | .spiCs | .spiSck | .spiIo _ | .mem _ _ | .hpIo _ _ => .operating
  | .hpLane _ _ | .hpClkreq _ | .hpInt _ | .hpCs _ | .hpSck _ | .twhbOut => s.serviceBall b
  | _ => b.inReset

/-- What the hub does now at the ball of a row and a column (R63, R64, R66, R72, R93). -/
def ballState (s : State) (row col : Nat) : BallState :=
  let b := ballAt row col
  if s.unpowered then b.unpowered
  else match s.fromCell row col with
    | some x => x
    | none => if s.sys.inReset then b.inReset else if s.booted then s.serviceBall b else s.bootBall b

end State
end Sys2Proof.Machine
end

