-- ==== Sys2Proof/Machine/Commit.lean ====
section
/-!
DEFINITION. Shadow commit (R147 to R154): the snapshot, the checks of every block run on the configuration
that would be in force, the refusal, and what taking a commit into force does on each block.
-/
namespace Sys2Proof.Machine

/-! ### Configurations -/

/-- Mask of the RWS fields of the word at `a`. -/
def rwsMask (a : Nat) : Nat :=
  ((fieldsAt a).filter fun f => decide (f.access = .rws)).foldl (fun m f => m ||| f.mask) 0

/-- `old` with the bits of `mask` taken from `new`. -/
def mix (mask : Nat) (old new : Word) : Word :=
  w32 ((old.toNat &&& (0xFFFFFFFF ^^^ mask)) ||| (new.toNat &&& mask))

/-- The base of the page whose shadow holds `a`. -/
def shadowPage (a : Nat) : Option Nat := (pageOf a).map fun p => pageBase p.1 p.2

/-- The page that begins at `base`, when one does (R141). -/
def pageAt (base : Nat) : Option (PageKind × Nat) :=
  match pageOf base with
  | some (k, n) => if pageBase k n = base then some (k, n) else none
  | none => none

/-- The words of a shadow or a register file that belong to some pages. -/
def wordsOf (m : SMap Word) (pages : List Nat) : SMap Word :=
  m.filter fun e => match shadowPage e.1 with
    | some b => pages.contains b
    | none => false

/-- A configuration with the RWS fields of some pages taken from a snapshot. -/
def takeSnap (m : SMap Word) (pages : List Nat) (snap : SMap Word) : SMap Word :=
  let as := ((wordsOf m pages).map (·.1)) ++ (snap.map (·.1))
  as.foldl (fun m a => regWr m a (mix (rwsMask a) (regRd m a) (regRd snap a))) m

/-- Every page, by ascending base. -/
def allPages : List Nat :=
  pageKinds.flatMap fun k => (List.range k.count).map (pageBase k)

namespace State

/-- The configuration in force once the accepted commits have been taken. -/
def soon (s : State) : SMap Word := s.accepted.foldl (fun m c => takeSnap m c.pages c.snap) s.regs

/-! ### Checks that no other file has -/

/-- A commit from `old` to `c` reconfigures filter group `g` (R360). -/
def fltMoves (old c : SMap Word) (g : Nat) : Bool :=
  (decide (Reg.FLT_CHAIN_EN.rd c g 0 = 1) && decide (Reg.FLT_CHAIN_EN.rd old g 0 = 0)) ||
    decide (Reg.FLT_CHAIN_D.rd old g 0 ≠ Reg.FLT_CHAIN_D.rd c g 0) ||
    decide (Reg.FLT_CHAIN_BQ_EN.rd old g 0 ≠ Reg.FLT_CHAIN_BQ_EN.rd c g 0)

/-- A stream, capture unit, Tally channel or control loop sources group `g` in a configuration: the consumers of
R361, as marks that two configurations can be compared by. -/
def sourcing (c : SMap Word) (g : Nat) : List Nat :=
  ((List.range 64).filter fun i => decide (Reg.CRY_S_CFG_EN.rd c 0 i = 1 ∧ Reg.CRY_S_CFG_SRC.rd c 0 i = 1 ∧
    Reg.CRY_S_SEL_GROUP.rd c 0 i = g)) ++
  ((List.range 16).filter fun u => decide (Reg.CAP_CAP_CFG_EN.rd c u 0 = 1 ∧ Reg.CAP_CAP_CFG_GROUP.rd c u 0 = g)).map (64 + ·) ++
  ((List.range 16).filter fun p => decide (Reg.TAL_TCH_STAT_EN.rd c 0 (16 * g + p) = 1 ∨
    Reg.TAL_TCH_HIST_EN.rd c 0 (16 * g + p) = 1 ∨ Reg.TAL_TCH_RF_EN.rd c 0 (16 * g + p) = 1)).map (128 + ·) ++
  ((List.range 16).filter fun n => decide (Reg.CTL_CFG_EN.rd c n 0 = 1 ∧ Reg.CTL_CFG_FB_CHAN.rd c n 0 / 16 = g)).map (192 + ·)

/-- The swap request that a commit makes on group `g` (R361): its target. -/
def commitSwap (s : State) (old c : SMap Word) (g : Nat) : Option Nat :=
  let x := Reg.FLT_BANK_SEL_BANK.rd c g 0
  if s.fltRuns g && decide (Reg.FLT_CHAIN_EN.rd c g 0 = 1) && !fltMoves old c g &&
      decide (Reg.FLT_BANK_SEL_BANK.rd old g 0 ≠ x) then some x
  else none

/-- The causes for which FLT[g] refuses a commit (R361, R364). A commit that leaves the group stopped puts no bank into force
(R358). -/
def fltChecks (s : State) (old c : SMap Word) (g : Nat) : List Nat :=
  let d := Reg.FLT_CHAIN_D.rd c g 0
  let x := Reg.FLT_BANK_SEL_BANK.rd c g 0
  let used := (sourcing old g).any fun i => (sourcing c g).contains i
  let busy := s.flag Reg.FLT_STATUS_FADING g || s.flag Reg.FLT_STATUS_QUEUED g
  if fltMoves old c g then
    let empty := Reg.FLT_CHAIN_EN.rd c g 0 = 1 ∧ s.fld Reg.FLT_BANK_SHAPE_N g x = 0
    (if rateOk d then [] else [0x10]) ++ (if empty then [0x11] else []) ++
    (if used then [0x13] else []) ++ (if busy then [0x16] else [])
  else match s.commitSwap old c g with
    | some x => (s.judgeSwap g x).2.toList
    | none => []

/-- The causes for which TAL refuses a commit (R385, R405, R408). -/
def talChecks (old c : SMap Word) : List Nat :=
  let on := fun (m : SMap Word) (f : Field) (n : Nat) => decide (f.rd m 0 n = 1)
  let fs := [Reg.TAL_TCH_STAT_EN, Reg.TAL_TCH_HIST_EN, Reg.TAL_TCH_RF_EN]
  let any := ((List.range 256).any fun n => fs.any fun f => on c f n) || (List.range 16).any fun u => on c Reg.TAL_PM_EN u
  let nogroup := (List.range 256).any fun n =>
    (fs.any fun f => on c f n && !on old f n) && decide (Reg.FLT_CHAIN_EN.rd c (n / 16) 0 = 0)
  let chan := (List.range 16).any fun u =>
    let n := Reg.TAL_PM_CHAN.rd c 0 u
    on c Reg.TAL_PM_EN u && !(decide (Reg.CAP_CAP_CFG_GROUP.rd c u 0 = n / 16) && bit (Reg.CAP_CAP_CFG_CHAN.rd c u 0) (n % 16))
  (if any && decide (Reg.MEM_TAL_MIB_MIB.rd c 0 0 < 9) then [0x10] else []) ++ (if nogroup then [0x11] else []) ++
  (if chan then [0x12] else [])

/-- EPOCH_LO or EPOCH_HI changes. -/
def epochMoves (old c : SMap Word) : Bool :=
  decide (Reg.TIM_EPOCH_LO_EPOCH.rd old 0 0 ≠ Reg.TIM_EPOCH_LO_EPOCH.rd c 0 0 ∨
    Reg.TIM_EPOCH_HI_EPOCH.rd old 0 0 ≠ Reg.TIM_EPOCH_HI_EPOCH.rd c 0 0)

/-- The causes for which TIM refuses a commit (R298, R304, R305). -/
def timChecks (s : State) (old c : SMap Word) : List Nat :=
  let fixed := epochMoves old c &&
    (!s.isManager || s.flag Reg.SYS_JOIN_STATUS_JOINED || (s.hasAddr && !s.flag Reg.SYS_ADDR_TOP) ||
      s.flag Reg.TIM_STATUS_EPOCH_VALID)
  let asym := (List.range 4).any fun x => decide (1000000 < (Reg.TIM_LINK_ASYM_ALPHA.rdS c 0 x).natAbs)
  let out := fun (f : Field) (lo hi : Int) => decide (f.rdS c 0 0 < lo ∨ hi < f.rdS c 0 0)
  let ints := out Reg.TIM_INTERVALS_LOG_SYNC (-7) 0 || out Reg.TIM_INTERVALS_LOG_DELAY (-7) 0 ||
    out Reg.TIM_INTERVALS_LOG_ANNOUNCE (-3) 2 || decide (6 < Reg.TIM_INTERVALS_LOOP_BW.rd c 0 0)
  (if fixed then [0x10] else []) ++ (if asym then [0x11] else []) ++ (if ints then [0x12] else [])

/-- CRY's own ranges that a commit judges, of an enabled stream (R518): OUTAGE is 1 or more with KEPT = 1, and SIZE at most
1,024 KiB for records. -/
def streamRange (c : SMap Word) : Bool :=
  (List.range 64).any fun i => decide (Reg.CRY_S_CFG_EN.rd c 0 i = 1) &&
    (decide (Reg.CRY_S_CFG_KEPT.rd c 0 i = 1 ∧ Reg.CRY_S_OUTAGE_MS.rd c 0 i = 0) ||
      decide (1 < Reg.CRY_S_CFG_SRC.rd c 0 i ∧ 1024 < Reg.CRY_S_BLOCK_SIZE.rd c 0 i))

/-- The streams that will be DRAINING (R487): those that are, and those that the commit stops. -/
def drainingAfter (old c : SMap Word) (now : List Nat) : List Nat :=
  (List.range 64).filter fun i => decide (Reg.CRY_S_CFG_EN.rd c 0 i = 0) &&
    (now.contains i || decide (Reg.CRY_S_CFG_EN.rd old 0 i = 1))

/-- The causes for which page `n` of a kind refuses a commit from `old` to `c` (R148). -/
def pageChecks (s : State) (old c : SMap Word) (k : PageKind) (n : Nat) : List Nat :=
  let draining := (List.range 64).filter fun i => s.flag Reg.CRY_S_STATE_DRAINING 0 i
  match k with
  | .TIM => s.timChecks old c
  | .ABC => s.abcChecks c
  | .AFE => afeChecks c n
  | .FLT => s.fltChecks old c n
  | .TAL => talChecks old c
  | .CAP => s.capChecks c n
  | .CMP => cmpChecks old c n
  | .CRY => (if streamRange c then [0x07] else []) ++
      cryChecks old c draining (Reg.MEM_SPILL_MIB_MIB.rd c 0 0 * 0x100000) s.isManager
  | .MEM => memChecks old c (drainingAfter old c draining) (s.fld Reg.MEM_USABLE_MIB)
  | .NET => netChecks s.sys.straps c n
  | .CTL => ctlChecks (s.flag Reg.CTL_STATUS_MODE n) old c n
  | .MRK => mrkChecks c
  | .CAL => calChecks c
  | .DBG => s.dbgChecks c
  | .COMMON => []
  | .SYS => []
  | .SEM => []
  | .EVT => []
  | .HP => []
  | .CNV => []
  | .TWN => []

/-- Every failing page, by ascending base, with the lowest cause it fails for (R148, R152). -/
def failures (s : State) (old c : SMap Word) : List (PageKind × Nat × Nat) :=
  pageKinds.flatMap fun k => (List.range k.count).filterMap fun n =>
    match s.pageChecks old c k n with
    | [] => none
    | x :: t => some (k, n, t.foldl min x)

/-! ### Requests -/

/-- A flag of SHADOW_STATE of the page at `base`. -/
def shadowFlag (s : State) (f : Field) (base : Nat) : Bool := s.flag f (base / 0x1000) 0

/-- Set a flag of SHADOW_STATE. -/
def setShadowFlag (s : State) (f : Field) (base : Nat) (v : Bool) : State := s.setFlag f (base / 0x1000) 0 v

/-- The page holds LOCKED = 1 (R154). -/
def pageLocked (s : State) (base : Nat) : Bool := s.shadowFlag Reg.COMMON_SHADOW_STATE_LOCKED base

/-- The pages whose registers a Sorrel pair holds in lockstep (R591). -/
def lockstepKind (k : PageKind) : Bool :=
  [PageKind.ABC, .AFE, .FLT, .TAL, .CAP, .CMP, .CRY, .MEM, .CTL, .MRK].contains k

/-- The member takes its lockstep pages from its twin (R592): STANDBY, RESYNC and UNCOMPARED. -/
def standsBy (s : State) : Bool :=
  s.sys.straps.pair && decide (s.role = 2 ∨ s.role = 4 ∨ s.role = 3)

/-- COMMIT on the page at `base`: a page commit, or on SYS a global commit (R148, R149, R154). A global commit of a
member that stands by leaves out the lockstep pages, which its twin commits (R592). DESIGN CHOICE (log 139): a commit of a
LOCKED page while another is checking records BUSY, which is tested first. -/
def requestCommit (s : State) (base : Nat) : State :=
  match pageAt base with
  | none => s
  | some (k, n) =>
    if s.commit.isSome then s.err k n 3
    else if base ≠ 0 ∧ s.pageLocked base then s.err k n 4
    else
      let theirs := fun (b : Nat) => s.standsBy && ((pageAt b).map fun p => lockstepKind p.1).getD false
      let pages := if base = 0 then allPages.filter fun b =>
          s.shadowFlag Reg.COMMON_SHADOW_STATE_PENDING b && !s.pageLocked b && !theirs b
        else [base]
      let s := pages.foldl (fun s b => s.setShadowFlag Reg.COMMON_SHADOW_STATE_CHECKING b true) s
      { s with commit := some ⟨decide (base = 0), pages, wordsOf s.shadow pages, []⟩ }

/-- The words in force of a page, as its shadow holds them. -/
def forceWords (s : State) (base : Nat) : SMap Word :=
  (wordsOf s.regs [base]).map fun e => (e.1, mix (rwsMask e.1) (resetWord e.1) (regRd s.regs e.1))

/-- DISCARD (R144, R154): the values in force into the shadow. -/
def discardShadow (s : State) (base : Nat) : State :=
  match pageAt base with
  | none => s
  | some (k, n) =>
    if s.pageLocked base then s.err k n 4
    else
      let others := s.shadow.filter fun e => decide (shadowPage e.1 ≠ some base)
      let shadow := (s.forceWords base).foldl (fun m e => regWr m e.1 e.2) others
      { s with shadow := shadow }.setShadowFlag Reg.COMMON_SHADOW_STATE_PENDING base false

/-- A page's shadow has been written (R147, R151): PENDING, and the commits whose snapshot lacks it remember. -/
def shadowWritten (s : State) (base : Nat) : State :=
  let mark := fun (c : CommitState) => if c.pages.contains base then { c with dirty := base :: c.dirty } else c
  { s with commit := s.commit.map mark, accepted := s.accepted.map mark }.setShadowFlag
    Reg.COMMON_SHADOW_STATE_PENDING base true

/-! ### Refusal and taking into force -/

/-- Record a refusal (R152, R364): each failing page its own cause, the other pages of the commit REFUSED_DEP. -/
def refuseCommit (s : State) (old c : SMap Word) (pages : List Nat) (fails : List (PageKind × Nat × Nat)) : State :=
  let first := match fails with
    | f :: _ => f.1.type
    | [] => 0
  let s := fails.foldl (fun s f => s.err f.1 f.2.1 f.2.2) s
  let s := (List.range 16).foldl (fun s g =>
    match s.commitSwap old c g with
    | none => s
    | some x =>
      let r := s.judgeSwap g x
      if r.2.isNone then s
      else (s.bump Reg.FLT_COUNTS_REFUSED g 0).xfadeEvent g r.1 (s.fld Reg.FLT_STATUS_IN_FORCE g) x false s.nowNs) s
  pages.foldl (fun s b =>
    let s := s.setShadowFlag Reg.COMMON_SHADOW_STATE_REFUSED b true
    match pageAt b with
    | none => s
    | some (k, n) => if fails.any fun f => decide (f.1 = k ∧ f.2.1 = n) then s else s.errDep k n first) s

/-- The pages of a commit count it (R146, R151). -/
def countCommit (s : State) (pages dirty : List Nat) : State :=
  pages.foldl (fun s b =>
    let p := b / 0x1000
    let s := (s.bump Reg.COMMON_SHADOW_STATE_COMMITS p 0).setFlag Reg.COMMON_SHADOW_STATE_REFUSED p 0 false
    let s := if dirty.contains b then s else s.setFlag Reg.COMMON_SHADOW_STATE_PENDING p 0 false
    (s.setFld Reg.COMMON_ERRCODE_CAUSE p 0 0).setFld Reg.COMMON_ERRCODE_BLOCK p 0 0) s

/-- A change of CHp.GAIN of a channel of bank `b` (R185). -/
def gainMoves (old c : SMap Word) (b : Nat) : Bool :=
  (List.range 16).any fun p => decide (Reg.AFE_CH_GAIN.rd old b p ≠ Reg.AFE_CH_GAIN.rd c b p)

/-- What a gain change does at grid index `k` (R185, R227, R241, R249). -/
def gainCommit (s : State) (old : SMap Word) (b : Nat) (k : Int) : State :=
  if gainMoves old s.regs b then
    let s := ((s.roundAbandon b k true).bankStep b).1
    (s.bump Reg.CNV_STEPS b 0).syncReset b k 4 true
  else s

/-- What a commit of TIM does (R297). -/
def timCommit (s : State) (old : SMap Word) : State :=
  if epochMoves old s.regs then s.setEpoch (s.fld64 Reg.TIM_EPOCH_LO_EPOCH Reg.TIM_EPOCH_HI_EPOCH) else s

/-- Each block takes the configuration that has just replaced `old`, at grid index `k`. -/
def blocksCommit (s : State) (old : SMap Word) (k : Int) : State :=
  let each := fun (n : Nat) (f : State → Nat → State) (s : State) => (List.range n).foldl f s
  let s := (s.memCommit.timCommit old).abcCommit old (s.gridT k).toNat
  let s := each 16 (fun s b => ((s.afeCommit old b).gainCommit old b k).cnvCommit old b k) s
  let s := each 16 (fun s g => s.fltCommit old g k) s
  let s := each 16 (fun s u => s.capCommit old u k) (s.talCommit old k)
  let s := each 4 (fun s e => s.profCommit old e) s
  let s := each 16 showHeld (((s.cryCommit old k).memCommit).netCommit old)
  let s := each 16 (fun s n => s.ctlCommit old n) s
  s.mrkCommit old

/-- Take pages into force at grid index `k` from a snapshot (R151); EV_EVT_COMMIT_DONE. -/
def takeCommit (s : State) (pages : List Nat) (snap : SMap Word) (dirty : List Nat) (k : Int) : State :=
  let s := s.cryDisable (takeSnap s.regs pages snap)
  let old := s.regs
  let s := { s with regs := takeSnap s.regs pages snap }
  let s := if pages.contains 0x70000 then
      (List.range 64).foldl (fun s i => s.setFlag Reg.CRY_S_STATE_OVERRATE 0 i false) s
    else s
  let s := s.blocksCommit old k
  let s := { s with net := { s.net with committed := true } }
  (s.countCommit pages dirty).raise .EVT 0 0

/-- The checks of the commit under check end (R148, R152). -/
def endChecks (s : State) : State :=
  match s.commit with
  | none => s
  | some c =>
    let old := s.soon
    let new := takeSnap old c.pages c.snap
    let fails := s.failures old new
    let s := { s with commit := none }
    let s := c.pages.foldl (fun s b => s.setShadowFlag Reg.COMMON_SHADOW_STATE_CHECKING b false) s
    if fails = [] then { s with accepted := s.accepted ++ [c] }
    else (s.refuseCommit old new c.pages fails).raise .EVT 0 1

/-- The page number of TW_EVENT's COMMIT entry for a commit (R590 Table 4). -/
def commitPage (c : CommitState) : Nat := if c.whole then 0xFFF else c.pages.headD 0 / 0x1000

/-- The commits accepted are taken into force at grid index `k`, and the active tells its twin (R151, R592). -/
def takeAccepted (s : State) (k : Int) : State :=
  s.accepted.foldl (fun s c =>
    let s := s.takeCommit c.pages c.snap c.dirty k
    let lock := c.pages.any fun b => ((pageAt b).map fun p => lockstepKind p.1).getD false
    if lock then s.sendTwEvents k [.commit (BitVec.ofNat 12 (commitPage c))] else s) { s with accepted := [] }

/-- The twin's commit at grid index `k` (R592): of a page, or of every lockstep page with PENDING = 1. -/
def twinCommit (s : State) (page : Nat) (k : Int) : State :=
  let lock := fun (b : Nat) => ((pageAt b).map fun p => lockstepKind p.1).getD false
  let pages := if page = 0xFFF then allPages.filter fun b => lock b && s.shadowFlag Reg.COMMON_SHADOW_STATE_PENDING b
    else if lock (page * 0x1000) then [page * 0x1000] else []
  s.takeCommit pages (wordsOf s.shadow pages) [] k

end State

/-- COMMIT_CHECKS_END (R150, R152). -/
def execCommitChecksEnd (s : State) : Host.Outcome State Fault Refusal := .next s.endChecks.finish

end Sys2Proof.Machine
end

