-- ==== Sys2Proof/Machine/Beads.lean ====
section
/-!
DEFINITION. Beads (R331 to R345): writes of the bead table with the checks of an enable, the crossings of an
evaluation, the actions and what a jump of rod 0 does to the beads it passes over.
-/
namespace Sys2Proof.Machine

/-! ### The table and the checks of an enable -/

/-- The page of a SHADOW_COMMIT bead is one that R344 admits. -/
def beadPageOk (page : Nat) : Bool :=
  match pageAt (0x1000 * page) with
  | some (k, _) => !(decide (k = .SYS) || decide (k = .SEM) || decide (k = .EVT) || decide (k = .HP))
  | none => false

/-- ARG lies within R342 Table 4 for the action. -/
def beadArgOk (x : Bead) : Bool :=
  match x.action with
  | 0 => decide (x.arg = 0)
  | 7 => decide (x.arg / 0x10 % 0x1000 = 0)
  | 8 => decide (x.arg < 0x30000)
  | 9 => decide (x.arg = 0)
  | 10 => decide (x.arg < 0x20)
  | 11 => decide (x.arg < 0x1000 ∧ x.mode = 1) && beadPageOk x.arg
  | 12 => decide (x.arg = 0)
  | 13 => decide (x.arg < 0x30)
  | 14 => decide (x.arg < 0x10)
  | 15 => decide (x.arg < 0x10)
  | _ => decide (x.arg < 0x10000)

namespace State

/-- An enabled SHADOW_COMMIT bead names the page. -/
def beadCommits (s : State) (page : Nat) : Bool :=
  s.enabledBeads.any fun b => decide ((s.bead b).action = 11 ∧ (s.bead b).arg = page)

/-- The cause for which the enable of a bead is refused (R333, R344, R348), without the check of R154. -/
def beadCause (s : State) (x : Bead) : Option Nat :=
  if 16 ≤ x.action ∨ x.dir = 3 ∨ x.mode = 3 ∨ (x.mode = 2 ∧ x.rep = 0) then some 0x12
  else if s.rodKind x.rod = 0 then some 0x11
  else if !beadArgOk x then some 0x13
  else if x.action = 11 ∧ s.beadCommits x.arg then some 0x14
  else none

/-- The pages that fail when the shadow of a page is checked as for a commit of it (R154). -/
def beadFailures (s : State) (page : Nat) : List (PageKind × Nat × Nat) :=
  let old := s.soon
  s.failures old (takeSnap old [0x1000 * page] (wordsOf s.shadow [0x1000 * page]))

/-- Where a rod stands now, as a register shows it (R309, R312). -/
def rodNow (s : State) (r : Nat) : Nat :=
  s.rodShown r (if r = 0 then quotZ (((s.now : Int) - s.tim.anchor) * 0x10000) Config.baseUnits
    else (s.rod r).at_ (s.rodKind r) (s.pitch r) s.now)

/-- EN of bead `b` is set. Where its rod stands exactly at its position, it fires at a later crossing only (R334). -/
def admitBead (s : State) (b : Nat) : State :=
  let x := s.bead b
  let s := if s.rodNow x.rod = x.pos then { s with abc := { s.abc with exact_ := s.abc.exact_.put b s.now } } else s
  s.setBeadEn b true

/-- Bead `b` is enabled, if the checks pass (R333, R154). A page whose shadow fails records its own cause, and
ABC then records REFUSED_DEP. -/
def enableBead (s : State) (b : Nat) : State :=
  let x := s.bead b
  match s.beadCause x with
  | some c => s.err .ABC 0 c
  | none =>
    if x.action ≠ 11 then s.admitBead b
    else match s.beadFailures x.arg with
      | [] => (s.admitBead b).setShadowFlag Reg.COMMON_SHADOW_STATE_LOCKED (0x1000 * x.arg) true
      | f :: t =>
        let s := (f :: t).foldl (fun s f => s.err f.1 f.2.1 f.2.2) s
        if (f :: t).any fun f => decide (f.1 = .ABC) then s else s.errDep .ABC 0 f.1.type

/-- Bead `b` is disabled; a SHADOW_COMMIT bead unlocks its page (R154). -/
def disableBead (s : State) (b : Nat) : State :=
  let x := s.bead b
  let s := s.setBeadEn b false
  if x.action = 11 then s.setShadowFlag Reg.COMMON_SHADOW_STATE_LOCKED (0x1000 * x.arg) false else s

/-- A write of word `i` of bead `b` (R332, R333). -/
def beadWrite (s : State) (b i : Nat) (w : Word) : State :=
  let live := (s.bead b).en
  let a := beadAddr b i
  let w := if i = 1 then w &&& 0xBFFFFFFF else w
  if i ≠ 1 then
    if live then s.err .ABC 0 0x10 else { s with regs := regWr s.regs a w }
  else if live then
    let s := if w.toNat % 0x80000000 = (regRd s.regs a).toNat % 0x80000000 then s else s.err .ABC 0 0x10
    if bit w.toNat 31 then s else s.disableBead b
  else
    let s := { s with regs := regWr s.regs a (w &&& 0x7FFFFFFF) }
    if bit w.toNat 31 then s.enableBead b else s

end State

/-! ### Crossings (R335 to R337) -/

/-- A crossing: forward or backward, its time, and the position crossed, congruent to the bead's. -/
structure Crossing where
  fwd : Bool
  t : Tm
  at_ : Int
deriving DecidableEq, Repr, Inhabited

/-- The positions congruent to `p` that a movement from `pa` to `pb` crosses (R336), the first two at most. `m` is
the modulus of the rod; a position at or above it is never crossed. -/
def crossed (m : Option Nat) (p pa pb : Int) : List Int :=
  match m with
  | none => if (pa < p ∧ p ≤ pb) ∨ (pb < p ∧ p ≤ pa) then [p] else []
  | some m =>
    let m : Int := m
    if m ≤ p then []
    else if pa < pb then
      let x := pa + 1 + (p - pa - 1) % m
      [x, x + m].filter fun x => decide (x ≤ pb)
    else
      let x := pa - (pa - p) % m
      [x, x - m].filter fun x => decide (pb < x)

/-- The time at which the line through `p0` at `t0` with velocity `vn / vd` reaches `x`. -/
def lineTime (p0 : Int) (t0 : Tm) (vn : Int) (vd : Nat) (x : Int) : Int :=
  if 0 < vn then t0 + cdivI ((x - p0) * vd) vn else if vn < 0 then t0 + cdivI ((p0 - x) * vd) (-vn) else t0

/-- The crossings of position `p` in one piece of a trajectory. -/
def RodSeg.crossings (m : Option Nat) (p : Int) : RodSeg → List Crossing
  | .slide ta pa pb p0 t0 vn vd =>
    (crossed m p pa pb).map fun x => ⟨decide (pa < pb), max ta (lineTime p0 t0 vn vd x).toNat, x⟩
  | .jump t pa pb => (crossed m p pa pb).map fun x => ⟨decide (pa < pb), t, x⟩
  | .load t q dir => if q = p ∧ dir ≠ 0 then [⟨decide (0 < dir), t, p⟩] else []

/-- A bead's direction admits a crossing (R331). -/
def Bead.admits (x : Bead) (c : Crossing) : Bool :=
  decide (x.dir = 0) || (decide (x.dir = 1) && c.fwd) || (decide (x.dir = 2) && !c.fwd)

/-- The advance of R339 from the position crossed `x`, for a rod that stands at `pos`: the position after, before
it wraps or saturates, and the repeats. -/
def advanced (x pos : Int) (fwd : Bool) (rep : Nat) : Int × Nat :=
  let r : Int := rep * 0x10000
  let d := if fwd then pos - x else x - pos
  let n := max 1 (d / r + 1)
  (if fwd then x + n * r else x - n * r, (n - 1).toNat)

namespace State

/-- The position of a bead as its rod reads it: signed, but for the rods that wrap (R309, R310). -/
def beadPos (s : State) (x : Bead) : Int :=
  if (rodModulus x.rod (s.rodKind x.rod)).isSome then (x.pos : Int) else sext 48 x.pos

/-- Put an advanced bead where its rod's range has it (R339). -/
def storeAdvance (s : State) (b : Nat) (x : Bead) (p : Int) : State :=
  match rodModulus x.rod (s.rodKind x.rod) with
  | some m => s.setBeadPos b (p % (m : Int)).toNat
  | none => s.setBeadPos b (toField 48 (clamp rodMin rodMax p))

/-- Count skips of a bead, and tell those of an advance or of a jump (R339, R341). -/
def beadSkips (s : State) (b n : Nat) (tell : Bool) : State :=
  let s := s.bump Reg.ABC_BEAD_COUNTS_SKIPS 0 0 n
  if tell then s.raise .ABC 0 5 (b + 0x400 * (n % 0x10000)) ((s.bead b).pos / 0x10000) else s

/-! ### Actions (R342 to R344) -/

/-- EV_ABC_ACTION_FAIL where the target refuses (R343). -/
def actionEnd (r : State × Option Nat) (b : Nat) (k : PageKind) (n : Nat) : State :=
  match r.2 with
  | none => r.1
  | some c => r.1.raise .ABC 0 10 (b + 0x10000 * c) (k.type + 0x100 * (pageBase k n / 0x1000))

/-- The targets that the low 16 bits of an ARG name, in ascending order. -/
def eachTarget (s : State) (arg : Nat) (f : State → Nat → State) : State := (bitsOf 16 arg).foldl f s

/-- An exposure window of a camera opens or closes at `t` (R342). -/
def expose (s : State) (cam : Nat) (opens : Bool) (t : Tm) : State :=
  let m := s.abc.exposures
  let m := if opens then m.put cam (t, none)
    else match m.look cam with
      | some e => m.put cam (e.1, some t)
      | none => m
  { s with abc := { s.abc with exposures := m } }

/-- The action of bead `b`, at grid index `k` with crossing time `t` (R342). -/
def beadAct (s : State) (b : Nat) (x : Bead) (k : Int) (t : Tm) : State :=
  let arg := x.arg
  match x.action with
  | 1 => s.eachTarget arg fun s u => s.startRun u k
  | 2 => s.eachTarget arg fun s u => s.stopRun u k
  | 3 => s.eachTarget arg fun s u => actionEnd (s.armUnit u (s.gridT k).toNat) b .CAP u
  | 4 => s.eachTarget arg fun s u =>
      if s.flag Reg.CAP_TRIG_CFG_BEAD_EN u then s.pushOcc u ⟨t, 4, 0, 0⟩ else s
  | 5 => s.eachTarget arg fun s g => s.syncReset g k 1 false
  | 6 => s.eachTarget arg fun s n =>
      (s.setBoth Reg.AFE_EXC_MODE_REV n 0 (1 - s.fld Reg.AFE_EXC_MODE_REV n)).excReverse n
  | 7 => (s.setBoth Reg.AFE_EXC_SET_LEVEL (arg % 16) 0 (arg / 0x10000)).excChangeLevel (arg % 16)
  | 8 => s.eachTarget arg fun s g => actionEnd (s.swapReq g (arg / 0x10000 % 4) k true) b .FLT g
  | 9 => s.flipReq 1
  | 10 => s.loopReq (arg % 16) ⟨bit arg 4, 1, b⟩
  | 11 =>
    let base := 0x1000 * (arg % 0x1000)
    (s.takeCommit [base] (wordsOf s.shadow [base]) [] k).setShadowFlag Reg.COMMON_SHADOW_STATE_LOCKED base false
  | 12 => s.raise .ABC 0 0 (b + 0x400 * x.rod) (w32 (t / Config.unitsPerNs)).toNat
  | 13 => actionEnd (s.windowEdge (arg % 16) (arg / 0x10 % 4) k) b .TAL 0
  | 14 => s.expose (arg % 16) true t
  | 15 => s.expose (arg % 16) false t
  | _ => s

/-- A crossing of bead `b` is suppressed by MINQ (R338). -/
def beadSuppressed (s : State) (b : Nat) (x : Bead) (t : Tm) : State :=
  (s.bump Reg.ABC_BEAD_COUNTS_SUPPRESSED 0 0).raise .ABC 0 6 (b + 0x400 * s.fld Reg.ABC_POS_HI_QUAL 0 x.rod)
    (w32 (t / Config.unitsPerNs)).toNat

/-- Bead `b` fires at grid index `k` (R338, R339): `again` says that another of its crossings was admitted. -/
def beadFire (s : State) (b : Nat) (x : Bead) (k : Int) (c : Crossing) (again : Bool) : State :=
  let pos := (s.rod x.rod).evalPos
  let s := (s.beadAct b x k c.t).bump Reg.ABC_FIRED 0 0
  let s := (s.setFld Reg.ABC_LAST_BEAD_BEAD 0 0 b).setFld Reg.ABC_LAST_TC_TC 0 0 (c.t / Config.unitsPerNs)
  let more := b2n again
  if x.mode = 2 then
    let a := advanced c.at_ pos c.fwd x.rep
    (s.storeAdvance b x a.1).beadSkips b (a.2 + more) (decide (a.2 ≠ 0))
  else (if x.mode = 1 then s.disableBead b else s).beadSkips b more false

/-- Bead `b` in the evaluation of grid index `k` (R338). Rod-0 beads hold while time is free, locking or lost. -/
def beadEval (s : State) (k : Int) (b : Nat) : State :=
  let x := s.bead b
  if !x.en || (decide (x.rod = 0) && s.flag Reg.ABC_STATUS_ROD0_HOLD) then s
  else
    let m := rodModulus x.rod (s.rodKind x.rod)
    let since : Int := match s.abc.exact_.look b with
      | some t => t
      | none => -1
    let cs := ((s.rod x.rod).segs.flatMap (RodSeg.crossings m (s.beadPos x))).filter fun c => x.admits c && decide (since < c.t)
    match cs with
    | [] => s
    | c :: t =>
      if s.fld Reg.ABC_POS_HI_QUAL 0 x.rod < x.minq then s.beadSuppressed b x c.t
      else s.beadFire b x k c !t.isEmpty

/-- Every enabled bead, in ascending number (R338, R340). -/
def beadsAt (s : State) (k : Int) : State := s.enabledBeads.foldl (fun s b => s.beadEval k b) s

/-- A difference on rod 0: modulo 2⁴⁸, in (−2⁴⁷, 2⁴⁷] (R309). -/
def rodZeroDiff (d : Int) : Int :=
  let m : Int := 2 ^ 48
  let x := d % m
  if m < 2 * x then x - m else x

/-- Rod 0 jumps from grid index `old` to `new` (R341): the beads that it passes over are disabled or advance, and
none fires. What it moved since `old` belongs to the jump (DEDUCED, log 145). -/
def rodZeroJump (s : State) (old new : Int) : State :=
  let pa := old * 0x10000
  let pb := pa + rodZeroDiff ((new - old) * 0x10000)
  let s := s.setRod 0 { s.rod 0 with evalPos := new * 0x10000 }
  if s.timeState ≠ 2 ∧ s.timeState ≠ 3 then s
  else
    s.enabledBeads.foldl (fun s b =>
      let x := s.bead b
      if x.rod ≠ 0 ∨ x.mode = 0 then s
      else match crossed (rodModulus 0 1) x.pos pa pb with
        | [] => s
        | p :: _ =>
          if x.mode = 1 then (s.disableBead b).beadSkips b 1 true
          else
            let a := advanced p pb (decide (pa < pb)) x.rep
            (s.storeAdvance b x a.1).beadSkips b (1 + a.2) true) s

end State
end Sys2Proof.Machine
end

