-- ==== Sys2Proof/Machine/Regs.lean ====
section
/-!
DEFINITION. Register accesses (R126 to R163, R592): who makes one, what lets it through, the access types and
ranges, and the work that a register's write or read does in its block.
-/
namespace Sys2Proof.Machine

/-- Who accesses a register: a host port at its own interface, the manager through a bound port, the start
configuration, or the twin. -/
inductive Writer where
  | here (p : HostPort)
  | far (p : HostPort)
  | start
  | twin (p : HostPort)
deriving DecidableEq, Repr, Inhabited

/-- The port whose access it is (R139). -/
def Writer.port : Writer → Option HostPort
  | .here p => some p
  | .far p => some p
  | .start => none
  | .twin _ => none

/-- The OWNER code of the port whose access it is, 0 for none. -/
def Writer.code (x : Writer) : Nat := (x.port.map (·.code)).getD 0

/-- The port that an access names to a block. -/
def Writer.named : Writer → HostPort
  | .here p => p
  | .far p => p
  | .start => .A
  | .twin p => p

/-! ### Ranges (R146) -/

/-- A field's value lies in the range its table states. -/
def FieldRange.holds (r : FieldRange) (width v : Nat) : Bool :=
  match r with
  | .any => true
  | .between lo hi => decide (lo ≤ v ∧ v ≤ hi)
  | .zeroOr lo hi => decide (v = 0 ∨ (lo ≤ v ∧ v ≤ hi))
  | .signed lo hi => decide (lo ≤ sext width v ∧ sext width v ≤ hi)
  | .multiple m => decide (v % m = 0)

/-- The field can be written, and its value in a word lies outside its range. -/
def Field.outside (f : Field) (w : Word) : Bool :=
  decide (f.access = .rw ∨ f.access = .rws ∨ f.access = .wo) && !f.range.holds f.width (f.ofWord w)

/-- The ranges that bind several values of one word: R158 (CLAIM and RELEASE), R260 (REF_MAP), R552 (ETHERTYPE) and
R553 (the group bit of the group MAC). -/
def wordOutside (k : PageKind) (o : Nat) (w : Word) : Bool :=
  let n := w.toNat
  match k with
  | .SEM => decide (0x100 ≤ o ∧ o < 0x200) && bit n 2 && bit n 3
  | .CAL => decide (o = 0x110) && (List.range 8).any fun j => decide (4 < n / 8 ^ j % 8)
  | .NET => (decide (o = 0x200) && decide (n % 0x10000 < 0x600 ∨ n % 0x10000 = 0x88F7)) ||
      (decide (o = 0x214) && !bit n 8)
  | _ => false

/-- Mask of the fields of a word that have an access type. -/
def maskOfAccess (fs : List Field) (t : Access) : Nat :=
  (fs.filter fun f => decide (f.access = t)).foldl (fun m f => m ||| f.mask) 0

/-- The bits of a common register that its page does not have (R145). -/
def beyondEvents (k : PageKind) (o : Nat) : Nat :=
  if o = 0xC ∨ o = 0x10 ∨ o = 0x14 then 0xFFFFFFFF - (2 ^ k.eventCount - 1) else 0

/-- Offsets of a page that read 0 and ignore writes (R143). -/
def quietOffset (o : Nat) : Bool := decide (0x20 ≤ o ∧ o < 0x100)

/-- The MSI-X table of a host port's page (R175). -/
def msixOffset (k : PageKind) (o : Nat) : Bool := decide (k = .HP ∧ 0x800 ≤ o ∧ o < 0xA00)

/-- The pending-bit array of a host port's page. -/
def pbaOffset (k : PageKind) (o : Nat) : Bool := decide (k = .HP ∧ o = 0xC00)

/-- The RWS fields of rod 0, which read 0 except KIND and ignore writes (R347). -/
def rodZeroWord (k : PageKind) (o : Nat) : Bool := decide (k = .ABC ∧ 0x100 ≤ o ∧ o < 0x114)

/-- The port whose page it is. -/
def pagePort (n : Nat) : HostPort := if n = 0 then .A else .B

namespace State

/-! ### What lets an access through -/

/-- The page answers at this stage of the boot (R99 step 2, R542). -/
def bootOpen (s : State) (a : Nat) : Bool :=
  !s.sys.inReset && (s.booted || decide (a < 0x1000) ||
    (s.stagingOpen && decide (0x80170 ≤ a ∧ a < 0x80180)))

/-- The access is one that a bound port's own interface answers (R138): of its own page. -/
def ownPage (p : HostPort) (a : Nat) : Bool := decide (a / 0x1000 = 3 + p.ix)

/-- The access is let through to the registers. -/
def mayRead (s : State) (x : Writer) (a : Nat) : Bool :=
  match x with
  | .here p => s.bootOpen a && (!s.bound p || ownPage p a)
  | .far p => s.bootOpen a && s.bound p
  | .start => !s.sys.inReset
  | .twin _ => s.booted

/-- The write is let through: at a bound port's own interface only one of its NETBIND field (R138). -/
def mayWrite (s : State) (x : Writer) (a : Nat) : Bool :=
  match x with
  | .here p => s.bootOpen a && (!s.bound p || decide (a = 0x3004 + 0x1000 * p.ix))
  | _ => s.mayRead x a

/-- An access outside R141 Table 3 counts in BADADDR of its port (R142). -/
def badAddr (s : State) (x : Writer) : State :=
  match x.port with
  | some p => s.bumpSat Reg.HP_COUNTS_BADADDR p.ix 0
  | none => s

/-- The write is one that the twin makes instead (R592): answers whether it is recorded. -/
def standbyBars (s : State) (x : Writer) (k : PageKind) : Bool :=
  s.standsBy && lockstepKind k && (match x with
    | .twin _ => false
    | _ => true)

/-- A write that a member standing by ignores; STANDBY and RESYNC record it (R592). -/
def standbyIgnore (s : State) : State := if s.role = 3 then s else s.err .TWN 0 0x10

/-! ### Writes with work in their block -/

/-- A write of SEM.LOCKk (R158, R159). -/
def semWrite (s : State) (x : Writer) (i : Nat) (w : Word) : State :=
  let tag := Reg.SEM_LOCK_TAG.ofWord w
  let mine := decide (x.code ≠ 0 ∧ s.semOwner i = x.code)
  if bit w.toNat 2 then
    if s.semOwner i = 0 ∧ x.code ≠ 0 then
      (s.setFld Reg.SEM_LOCK_OWNER 0 i x.code).setFld Reg.SEM_LOCK_TAG 0 i tag
    else s
  else if !mine then s.err .SEM 0 6
  else if bit w.toNat 3 then s.semFree i
  else s.setFld Reg.SEM_LOCK_TAG 0 i tag

/-- A semaphore held by a port. -/
def portHeld (o : Nat) : Bool := decide (o = 1 ∨ o = 2)

/-- A write of SEM.FORCE (R162). -/
def semForceWrite (s : State) (w : Word) : State :=
  let n := w.toNat
  if n / 0x10000 ≠ 0x5E3A then s
  else if bit n 6 then s.semForceAll portHeld
  else if portHeld (s.semOwner (n % 0x40)) then s.semForceFree (n % 0x40)
  else s

/-- The port is bound to the network, or unbound (R137, R140). -/
def bindPort (s : State) (p : HostPort) (v : Bool) : State :=
  if s.bound p = v then s
  else (((s.setFlag Reg.HP_CTRL_NETBIND p.ix 0 v).setFlag Reg.HP_STATUS_BOUND p.ix 0 v).portReset p).refreshLinks

/-- The address is aligned for a flash operation, and lies outside the journal (R173, R174). -/
def flashErr (s : State) (q : HostPort) (code op : Nat) : Nat :=
  let a := s.fld Reg.HP_FLASH_ADDR_ADDR q.ix
  let size := if op = 3 then 0x1000 else if op = 4 then 0x10000 else 0x100
  if s.semOwner 63 ≠ code ∨ code = 0 then 1
  else if op ≠ 1 ∧ a % size ≠ 0 then 2
  else if op ≠ 1 ∧ 0x800000 < a + size ∧ a < 0x880000 then 3
  else 0

/-- A write of FLASH_CMD on the page of port `q` (R173, R174); one while an operation runs is ignored. DESIGN CHOICE
(log 132): the operation works on FLASH_ADDR and FLASH_BUF as they stand at this write, whatever is written to them
while it runs. -/
def flashCmd (s : State) (q : HostPort) (code op : Nat) : State :=
  if s.flag Reg.HP_FLASH_STATUS_BUSY q.ix then s
  else
    let e := s.flashErr q code op
    if e ≠ 0 then
      let s := (s.setFld Reg.HP_FLASH_STATUS_ERR q.ix 0 e).setFlag Reg.HP_FLASH_STATUS_DONE q.ix 0 true
      if e = 1 then s.err .HP q.ix 6 else s
    else
      let buf := (List.range 64).map fun i => w32 (s.fld Reg.HP_FLASH_BUF_DATA q.ix i)
      let s := s.setHp q { s.hp q with flashOp := op, flashAddr := s.fld Reg.HP_FLASH_ADDR_ADDR q.ix, flashBuf := buf }
      let s := s.setFlag Reg.HP_FLASH_STATUS_BUSY q.ix 0 true
      s.put (.flash op (s.fld Reg.HP_FLASH_ADDR_ADDR q.ix))

/-- A write of SYS.RESET (R120): a reset needs a host port or the manager. -/
def resetWrite (s : State) (x : Writer) (w : Word) : State :=
  if !bit w.toNat 0 then s
  else if w.toNat / 0x10000 ≠ 0x0D6E then s.raise .SYS 0 3
  else if x.code = 0 then s
  else s.intoReset (s.causeWord 4)

/-- A write of SYS.ADDR (R124): the hub becomes the top manager. Any other value than 0 records RANGE; a hub that holds an
address keeps it. -/
def addrWrite (s : State) (w : Word) : State :=
  if w.toNat % 0x10000 ≠ 0 then s.err .SYS 0 7
  else if !s.isManager || s.hasAddr then s
  else
    let s := ((s.setFld Reg.SYS_ADDR 0 0 0).setFlag Reg.SYS_ADDR_VALID 0 0 true).setFlag Reg.SYS_ADDR_TOP 0 0 true
    let s := { s with sys := { s.sys with announceMs := 0 } }
    if s.booted then s.leaveFree else s

/-- The ports that may claim (R103 Table 10). -/
def mayClaim (s : State) (code : Nat) : Bool :=
  let b := s.sys.straps.boot.toNat
  decide (s.sys.phase ≠ .booted) && decide ((code = 1 ∧ (b = 1 ∨ b = 3)) ∨ (code = 2 ∧ (b = 2 ∨ b = 3)))

/-- A write of SYS.BOOT_CTRL (R103 to R107, R122). LOAD is checked by the next step of the boot: at once while the hub
waits for a host or in backoff, else when the pass ends. -/
def bootCtrlWrite (s : State) (x : Writer) (w : Word) : State :=
  let owner := s.fld Reg.SYS_BOOT_STATUS_OWNER
  if !s.mayClaim x.code || (decide (owner ≠ 0) && decide (owner ≠ x.code)) then s
  else if bit w.toNat 1 then
    if owner = 0 then s else { s with sys := { s.sys with loadPending := true } }
  else if bit w.toNat 0 then
    (s.setFld Reg.SYS_BOOT_STATUS_OWNER 0 0 x.code).setFld Reg.SYS_BOOT_CTRL_CLAIM 0 0 1
  else if owner = 0 then s
  else s.releaseClaim

/-- A write of SYS.BOOT_LEN (R104, R107). -/
def bootLenWrite (s : State) (x : Writer) (w : Word) : State :=
  let owner := s.fld Reg.SYS_BOOT_STATUS_OWNER
  if s.sys.phase = .booted ∨ (owner ≠ 0 ∧ owner ≠ x.code) then s
  else s.setFld Reg.SYS_BOOT_LEN_LEN 0 0 (Reg.SYS_BOOT_LEN_LEN.ofWord w)

/-- EVENT_FORCE (R167): each bit raises its event as a forced one; EV_TIM_LOCKED is logged always, forced as raised
(R286). -/
def forceEvents (s : State) (k : PageKind) (n : Nat) (w : Word) : State :=
  (bitsOf k.eventCount w.toNat).foldl (fun s b => s.occur k n b true (decide (k = .TIM ∧ b = 1)) 0 0) s

/-- The work of CTRL[31:8] of a page. -/
def blockCtrl (s : State) (k : PageKind) (n : Nat) (w : Word) : State :=
  match k with
  | .TIM =>
    let s := if bit w.toNat 8 then s.snapNow else s
    let s := if bit w.toNat 9 then s.accept .N else s
    let s := if bit w.toNat 10 then s.accept .S else s
    if bit w.toNat 11 then s.accept .M else s
  | .HP => s.bindPort (pagePort n) (bit w.toNat 8)
  | .ABC => s.abcCtrl w
  | .AFE => s.afeCtrl n w
  | .CNV => s.cnvCtrl n w
  | .CAL => s.calCtrl w
  | .FLT => s.fltCtrl n w
  | .TAL => s.talCtrl w
  | .CAP => s.capCtrl n w
  | .CMP => s.cmpCtrl n w
  | .CRY => s.cryCtrl w
  | .MEM => s.memCtrl w
  | .NET => s.netCtrl n w
  | .TWN => s.twnCtrl w
  | .CTL => s.ctlCtrl n w
  | .MRK => s.mrkCtrl w
  | .DBG => s.dbgCtrl w
  | _ => s

/-- A write of CTRL: COMMIT, DISCARD, then the block's own bits. -/
def ctrlWrite (s : State) (k : PageKind) (n : Nat) (w : Word) : State :=
  let s := if bit w.toNat 0 then s.requestCommit (pageBase k n) else s
  let s := if bit w.toNat 1 then s.discardShadow (pageBase k n) else s
  s.blockCtrl k n w

/-- Store a word in a register whose fields act at once: RW and W1C fields, and the shadow of RWS fields (R11, R147,
R154). -/
def plainWrite (s : State) (k : PageKind) (n a : Nat) (w : Word) : State :=
  let fs := fieldsAt a
  let none_ := beyondEvents k (a - pageBase k n)
  let rw := maskOfAccess fs .rw &&& (0xFFFFFFFF - none_)
  let clr := maskOfAccess fs .w1c &&& w.toNat
  let old := regRd s.regs a
  let new := mix rw old w
  let s := { s with regs := regWr s.regs a (w32 (new.toNat &&& (0xFFFFFFFF - clr))) }
  let rws := maskOfAccess fs .rws
  if rws = 0 then s
  else if s.pageLocked (pageBase k n) then s.err k n 4
  else { s with shadow := regWr s.shadow a (mix rws (regRd s.shadow a) w) }.shadowWritten (pageBase k n)

/-- The registers whose write does its work itself, and not as a plain store; `none` for a plain one. -/
def specialWrite (s : State) (x : Writer) (k : PageKind) (n o : Nat) (w : Word) : Option State :=
  if o = 4 then some (s.ctrlWrite k n w)
  else if o = 0x14 then some (s.forceEvents k n w)
  else match k with
    | .SYS =>
      if o = 0x110 then some (s.resetWrite x w)
      else if o = 0x118 then some (s.bootCtrlWrite x w)
      else if o = 0x11C then some (s.bootLenWrite x w)
      else if o = 0x12C then some (s.addrWrite w)
      else none
    | .SEM =>
      if 0x100 ≤ o ∧ o < 0x200 then some (s.semWrite x ((o - 0x100) / 4) w)
      else if o = 0x210 then some (s.semForceWrite w)
      else none
    | .HP => if o = 0x108 then some (s.flashCmd (pagePort n) x.code (w.toNat % 8)) else none
    | .FLT => if 0x120 ≤ o ∧ o < 0x12C then some (s.shapeWrite n ((o - 0x120) / 4) w) else none
    | .CAP => if o = 0x160 then some (s.markWrite n w) else none
    | .CRY =>
      if o = 0x120 then some { s with cry := { s.cry with hostAckLo := w } }
      else if o = 0x124 then some (s.hostAckWord 0 s.cry.hostAckLo w)
      else if o = 0x128 then some { s with cry := { s.cry with hostReplayLo := w } }
      else if o = 0x12C then some (s.hostAckWord 1 s.cry.hostReplayLo w)
      else none
    | .MEM => if o = 0x178 then some (s.aptDataWrite x.named w) else none
    | .TWN =>
      if o = 0x110 then some (match x with
        | .far p => s.mgrCmd w true (decide (p = .B))
        | .here p => s.mgrCmd w false (decide (p = .B))
        | _ => s.mgrCmd w false false)
      else none
    | _ => none

/-- A selection of a test output that R684 Table 2 does not give records RANGE, and stands as written. -/
def dselNote (s : State) (o : Nat) (w : Word) : State :=
  if 0x100 ≤ o ∧ o < 0x110 ∧ !dselOk (w.toNat % 0x100) (w.toNat / 0x100 % 0x400) then s.err .DBG 0 7 else s

/-- A write of the MSI-X table, as PCI Express defines it; it reads 0 in serial mode (R175). -/
def msixWrite (s : State) (n a : Nat) (w : Word) : State :=
  if s.serialMode (pagePort n) then s
  else
    let i := a / 4 % 4
    let w := if i = 0 then w &&& 0xFFFFFFFC else if i = 3 then w &&& 1 else w
    { s with regs := regWr s.regs a w }

/-- A word reaches a register, or a word of a window, that the page has. -/
def wordWrite (s : State) (x : Writer) (k : PageKind) (n a : Nat) (w : Word) : State :=
  let o := a - pageBase k n
  if 0x100000 ≤ a then s.coefWrite a w
  else if 0x18000 ≤ a ∧ a < 0x1C000 then s.beadWrite ((a - 0x18000) / 16) (a / 4 % 4) w
  else if 0xC8000 ≤ a ∧ a < 0xCA000 then s.frameWrite ((a - 0xC8000) / 4) w
  else if msixOffset k o then s.msixWrite n a w
  else if rodZeroWord k o || pbaOffset k o then s
  else if (fieldsAt a).any (fun f => f.outside w) || wordOutside k o w then s.err k n 7
  else match s.specialWrite x k n o w with
    | some t => t
    | none =>
      let s := s.plainWrite k n a w
      if k = .DBG then s.dselNote o w else s

/-- The page has a register, or a window word, at the address. -/
def present (k : PageKind) (n a : Nat) : Bool :=
  let o := a - pageBase k n
  if 0x100000 ≤ a then ramOffset (a % 0x10000)
  else decide (0x18000 ≤ a ∧ a < 0x1C000) || decide (0xC8000 ≤ a ∧ a < 0xCA000) || msixOffset k o || pbaOffset k o ||
    decide (fieldsAt a ≠ []) || decide (o = 8)

/-- The TEDS controls of an AFE page, which are each member's own (R591): the bits of CTRL, and RDADDR. -/
def tedsOwn (k : PageKind) (o : Nat) : Nat := if k = .AFE ∧ o = 4 then 0x600 else if k = .AFE ∧ o = 0x288 then 0xFFFFFFFF else 0

/-- A write reaches its page. DESIGN CHOICE (log 138): offsets 0x020 to 0x0FF, which ignore writes and read 0 (R143), are no
reserved offsets of R142 and record no BADOFFSET. -/
def pageWrite (s : State) (x : Writer) (k : PageKind) (n a : Nat) (w : Word) (be : BitVec 4) : State :=
  let o := a - pageBase k n
  if be ≠ 0xF then s.err k n 2
  else if quietOffset o && decide (a < 0x100000) then s
  else if !present k n a then s.err k n 1
  else if s.standbyBars x k then
    let own := tedsOwn k o
    let mine := w.toNat &&& own
    let s := if own = 0xFFFFFFFF ∨ (mine ≠ 0 ∧ mine = w.toNat) then s else s.standbyIgnore
    if own = 0xFFFFFFFF ∨ mine ≠ 0 then s.wordWrite x k n a (w32 mine) else s
  else s.wordWrite x k n a w

/-- A write records an error on its page: it would leave a cause in a clear ERRCODE. -/
def recordsError (s : State) (x : Writer) (k : PageKind) (n a : Nat) (w : Word) (be : BitVec 4) : Bool :=
  let e := pageBase k n + 0x18
  decide (regRd ({ s with regs := regWr s.regs e 0 }.pageWrite x k n a w be).regs e ≠ 0)

/-- The active tells its twin of a write it has accepted on a lockstep page (R592); `before` is the hub before the
write. One that records an error on its page is not accepted; COMMIT has an entry of its own, and the TEDS controls are
each member's own. -/
def tellTwin (s : State) (before : State) (x : Writer) (k : PageKind) (n a : Nat) (w : Word) (be : BitVec 4) : State :=
  let o := a - pageBase k n
  let out := tedsOwn k o ||| (if o = 4 then 1 else 0)
  let rest := w.toNat &&& (0xFFFFFFFF - out)
  if !before.leads || !lockstepKind k || before.recordsError x k n a w be then s
  else if out = 0xFFFFFFFF ∨ (rest = 0 ∧ w.toNat ≠ 0) then s
  else s.sendTwEvents (s.tim.k + 1) [.write x.named (BitVec.ofNat 24 a) (w32 rest)]

/-- A word written at an address (R129, R142). -/
def hostWrite (s : State) (x : Writer) (addr : BitVec 24) (w : Word) (be : BitVec 4) : State :=
  let a := addr.toNat / 4 * 4
  if !s.mayWrite x a then s
  else
    let w := match x with
      | .here p => if s.bound p then w &&& 0x100 else w
      | _ => w
    match pageOf a with
    | none => s.badAddr x
    | some (k, n) => (s.pageWrite x k n a w be).tellTwin s x k n a w be

/-! ### Reads -/

/-- Words 0 to 3 of a log entry (R169). -/
def logEntry (s : State) (idx i : Nat) : Word :=
  match s.evt.log.look idx with
  | some e => (logWords e).getD i 0
  | none => 0

/-- A register as it reads without side effects: RWS fields show the shadow (R147), and WO fields 0. -/
def plainRead (s : State) (a : Nat) : Word := mix (rwsMask a) (regRd s.regs a) (regRd s.shadow a)

/-- The registers that show something kept elsewhere. -/
def viewRead (s : State) (k : PageKind) (n o : Nat) : Option Word :=
  match k with
  | .EVT =>
    if o = 0x130 then some (w32 (s.pend .A))
    else if o = 0x134 then some (w32 (s.pend .B))
    else if 0x110 ≤ o ∧ o < 0x120 then some (s.logEntry (s.fld Reg.EVT_LOG_IDX_A_IDX) ((o - 0x110) / 4))
    else if 0x120 ≤ o ∧ o < 0x130 then some (s.logEntry (s.fld Reg.EVT_LOG_IDX_B_IDX) ((o - 0x120) / 4))
    else if 0x180 ≤ o ∧ o < 0x1C0 then
      let i := (o - 0x180) / 4
      some (w32 ((s.activeEvents.filter fun e => decide (e / 32 = i)).foldl (fun m e => m ||| 2 ^ (e % 32)) 0))
    else none
  | .TIM => if o = 0x100 then some (w32 s.nowNs) else none
  | .FLT => if 0x180 ≤ o ∧ o < 0x1C4 then some (hbWords.getD ((o - 0x180) / 4) 0) else none
  | .NET => if o = 0x224 ∧ n = 0 then some s.digest else none
  | .CRY =>
    if 0x1000 ≤ o ∧ (o - 0x1000) % 0x40 = 0x2C then
      some (w32 (min (s.outageNs ((o - 0x1000) / 0x40) / 1000000) 0xFFFFFFFF))
    else if 0x200 ≤ o ∧ o < 0x300 ∧ o % 16 = 8 then some (s.queueStatus ((o - 0x200) / 16))
    else none
  | .HP =>
    if pbaOffset k o then some (w32 (s.pba (pagePort n)))
    else if msixOffset k o then
      some (if s.serialMode (pagePort n) then 0 else regRd s.regs (pageBase k n + o))
    else none
  | _ => none

/-- The registers whose read has an effect: QPOPq of a queue that has a word, RD_DATA and APT_DATA. -/
def effectRead (s : State) (k : PageKind) (n o : Nat) : Option (State × Word) :=
  match k with
  | .CRY => if 0x400 ≤ o ∧ o < 0x440 then some (s.popNow ((o - 0x400) / 4)) else none
  | .CAP => if o = 0x170 then some (s.rdData n) else none
  | .MEM => if o = 0x178 then some s.aptDataRead else none
  | _ => none

/-- A read reaches its page. -/
def pageRead (s : State) (k : PageKind) (n a : Nat) : State × Word :=
  let o := a - pageBase k n
  if quietOffset o && decide (a < 0x100000) then (s, 0)
  else if !present k n a then (s.err k n 1, 0)
  else if 0x100000 ≤ a ∨ (0x18000 ≤ a ∧ a < 0x1C000) ∨ (0xC8000 ≤ a ∧ a < 0xCA000) then (s, regRd s.regs a)
  else match s.effectRead k n o with
    | some r => r
    | none => (s, (s.viewRead k n o).getD (s.plainRead a))

/-- The word that an address returns (R129, R142). -/
def hostRead (s : State) (x : Writer) (addr : BitVec 24) : State × Word :=
  let a := addr.toNat / 4 * 4
  if !s.mayRead x a then (s, 0)
  else match pageOf a with
    | none => (s.badAddr x, 0)
    | some (k, n) => s.pageRead k n a

/-- The queue that a read at an address pops, when the read reaches it. -/
def queueAt (s : State) (x : Writer) (a : BitVec 24) : Option Nat :=
  if s.mayRead x a.toNat ∧ 0x70400 ≤ a.toNat ∧ a.toNat < 0x70440 then some ((a.toNat - 0x70400) / 4) else none

/-- The queue whose pop a read at an address has to wait for (R513). -/
def waitsAt (s : State) (x : Writer) (a : BitVec 24) : Option Nat :=
  (s.queueAt x a).filter fun q => decide ((s.queue q).words = [])

/-- What a burst of reads has given: the words, and where it waits, with the words still to be read after that one. -/
structure BurstEnd where
  words : List Word
  stop : Option (Nat × Nat)

/-- Words read at consecutive addresses, wrapping at the end of the register space (R129, R133), up to a pop that has to
wait. What each word raises is settled before the next. -/
def burstRead (x : Writer) : Nat → State → BitVec 24 → State × BurstEnd
  | 0, s, _ => (s, ⟨[], none⟩)
  | n + 1, s, a =>
    match s.waitsAt x a with
    | some q => (s, ⟨[], some (q, n)⟩)
    | none =>
      let r := s.hostRead x a
      let t := burstRead x n r.1.finish (a + 4)
      (t.1, ⟨r.2 :: t.2.words, t.2.stop⟩)

/-- Words written at consecutive addresses; what each word raises is settled before the next. -/
def burstWrite (s : State) (x : Writer) (a : BitVec 24) (ws : List Word) : State :=
  match ws with
  | [] => s
  | w :: t => (s.hostWrite x a w 0xF).finish.burstWrite x (a + 4) t

end State
end Sys2Proof.Machine
end

