-- ==== Sys2Proof/Machine/Boot.lean ====
section
/-!
DEFINITION. The boot sequence from DRAM training on (R95 to R116, R522 to R532): the images and their checks, the
retry procedure, host loads, the start configuration and the end of boot.
-/
namespace Sys2Proof.Machine

/-! ### Images (R95 to R98) -/

/-- Base of an image in the boot flash (R95 Table 6). -/
def imageBase : ImageSel → Nat
  | .imageA => 0
  | .imageB => 0x400000

/-- A number in `n` bytes of an image from offset `a`, little-endian. -/
def imageLe (rd : Nat → Byte) (a : Nat) : Nat → Nat
  | 0 => 0
  | n + 1 => (rd a).toNat + 0x100 * imageLe rd (a + 1) n

/-- Bytes of an image. -/
def imageBytes (rd : Nat → Byte) (a n : Nat) : List Byte := (List.range n).map fun i => rd (a + i)

/-- The image brings a start configuration (R96). -/
def imageConfigured (rd : Nat → Byte) : Bool := bit (imageLe rd 6 2) 0

/-- LENGTH of an image. -/
def imageLength (rd : Nat → Byte) : Nat := imageLe rd 8 4

/-- The start configuration lies outside the payload, or is no list of pairs (R98). -/
def configBad (rd : Nat → Byte) : Bool :=
  imageConfigured rd &&
    (decide (imageLe rd 0x18 4 % 8 ≠ 0) || decide (imageLength rd < imageLe rd 0x14 4 + imageLe rd 0x18 4))

/-- The first check of R98 Table 8 that an image fails, 0 for none; `host` is BOOT_LEN for a host image. -/
def imageCode (rd : Nat → Byte) (host : Option Nat) : Nat :=
  let len := imageLength rd
  if host.any fun n => decide (n < 64) then 5
  else if imageLe rd 0 4 ≠ 0x4B444D49 then 2
  else if imageLe rd 0x3C 4 ≠ (crc32c (imageBytes rd 0 0x3C)).toNat then 3
  else if imageLe rd 4 2 ≠ 1 ∨ imageLe rd 0x10 4 ≠ 0x6256 then 4
  else if len < 64 ∨ 4194240 < len ∨ configBad rd ∨ (host.any fun n => decide (n ≠ 64 + len)) then 5
  else if imageLe rd 0x38 4 ≠ (crc32c (imageBytes rd 0x40 len)).toNat then 6
  else 0

/-- The pairs of the start configuration (R97): offset and value. -/
def imagePairs (rd : Nat → Byte) : List (Nat × Word) :=
  let a := 0x40 + imageLe rd 0x14 4
  (List.range (imageLe rd 0x18 4 / 8)).map fun i => (imageLe rd (a + 8 * i) 4, w32 (imageLe rd (a + 8 * i + 4) 4))

namespace State

/-- A byte of the boot flash. -/
def flashByte (s : State) (a : Nat) : Byte := memRd Config.flashBlank s.flash a

/-- A byte of the staged host image (R102). -/
def stagedByte (s : State) (a : Nat) : Byte := s.sys.staging.lookD a 0

/-! ### The steps from an image to the end of boot (R99 steps 5 to 8) -/

/-- A nonzero value drawn from the entropy source. -/
def drawNonzero (s : State) (bound : Nat) : State × Nat :=
  (s.drawn, (Config.freeWord s.free).toNat % (bound - 1) + 1)

/-- The start configuration is applied (R97): its writes in order, then a commit with its checks. A refused one raises
EV_SYS_CONFIG_REFUSED; one that passes takes effect at the first instant of the grid. DESIGN CHOICE (log 134): a pair whose
offset lies beyond the 16 MiB register space is passed over, like one outside the pages (R142). -/
def applyConfig (s : State) (pairs : List (Nat × Word)) : State :=
  let s := pairs.foldl (fun s e =>
    if e.1 < 0x1000000 then s.hostWrite .start (BitVec.ofNat 24 e.1) e.2 0xF else s) s
  let s := (s.endChecks.requestCommit 0)
  let before := s.accepted.length
  let s := s.endChecks
  if s.accepted.length = before then s.raise .SYS 0 1 else s

/-- The end of boot (R99 step 8, R94 Table 5): the counter runs from 0 and the local grid with it, and the commits that
have been accepted take effect at G(0). -/
def endOfBoot (s : State) (discarded : Bool) : State :=
  let s := { s with sys := { s.sys with phase := .booted, staging := [], loadPending := false } }
  let s := (s.setFlag Reg.SYS_BOOT_STATUS_BOOTED 0 0 true).setFld Reg.SYS_BOOT_STATUS_STATE 0 0 3
  let s := (s.setFlag Reg.SYS_CLK_STATUS_MOD_LOCK 0 0 true).setFld Reg.SYS_CLK_STATUS_SDS_LOCK 0 0 0xF
  let s := { s with tim := { s.tim with counter := 0, sub := 0, running := true, steps := 0, anchor := 0, k := 0 } }
  let s := s.raise .SYS 0 0
  let s := if discarded then (s.setFlag Reg.SYS_BOOT_STATUS_HOSTDISC 0 0 true).raise .SYS 0 4 else s
  let s := if s.sys.straps.pair then s else (s.setFld Reg.TWN_STATUS_ROLE 0 0 1).setDrive (!s.pins.driveMon)
  let s := if s.hasAddr then s else { s with sys := { s.sys with announceMs := 100 } }
  (s.takeAccepted 0).leaveFree.refreshLinks

/-- The hub boots from an accepted image (R99 steps 5 to 8): `src` is the code of BOOT_STATUS.SRC. -/
def bootFrom (s : State) (rd : Nat → Byte) (src : Nat) : State :=
  let discarded := s.sys.loadPending && decide (src ≠ 3)
  let pairs := if imageConfigured rd then some (imagePairs rd) else none
  let s := (s.setFld Reg.SYS_BOOT_STATUS_SRC 0 0 src).setFld Reg.SYS_IMAGE_VER_VERSION 0 0 (imageLe rd 0xC 4)
  let s := s.setFld Reg.SYS_BOOT_STATUS_STATE 0 0 0
  let s := s.readJournal
  let r := s.drawNonzero 0x100000000
  let s := r.1.setFld Reg.CRY_SESSION 0 0 r.2
  let s := match pairs with
    | some l => s.applyConfig l
    | none => s
  s.endOfBoot discarded

/-! ### Host images (R102 to R106) -/

/-- The staged host image is checked (R98, R103): the hub boots from it, or releases the claim. -/
def hostCheck (s : State) : State :=
  let rd := s.stagedByte
  let code := if s.sys.trained then imageCode rd (some (s.fld Reg.SYS_BOOT_LEN_LEN)) else 7
  let s := s.setFld Reg.SYS_BOOT_STATUS_ERR_HOST 0 0 code
  if code = 0 then s.bootFrom rd 3 else s.releaseClaim

/-- A LOAD that waits is checked while the hub waits for a host or in backoff (R103 Table 10). -/
def settleLoad (s : State) : State :=
  if s.sys.loadPending ∧ (s.sys.phase = .waitHost ∨ s.sys.phase = .backoff) then s.hostCheck else s

/-- A write by a port, with the LOAD that it may bring. -/
def access (s : State) (x : Writer) (a : BitVec 24) (w : Word) (be : BitVec 4) : State := (s.hostWrite x a w be).settleLoad

/-! ### Passes (R100) -/

/-- Where the boot sequence stands. -/
def toPhase (s : State) (ph : BootPhase) (state : Nat) : State :=
  { (s.setFld Reg.SYS_BOOT_STATUS_STATE 0 0 state) with sys := { s.sys with phase := ph } }

/-- A pass over the flash images ends without an image: it counts, a waiting LOAD is checked, and the backoff begins. -/
def passEnds (s : State) : State :=
  let n := s.fld Reg.SYS_BOOT_STATUS_PASSES
  ((s.setFld Reg.SYS_BOOT_STATUS_PASSES 0 0 (min (n + 1) 0xFFF)).toPhase .backoff 1).settleLoad

/-- Training fails (R100): recorded for both flash images, or for the host image. -/
def trainingFails (s : State) : State :=
  if fromFlash s then
    ((s.setFld Reg.SYS_BOOT_STATUS_ERR_A 0 0 7).setFld Reg.SYS_BOOT_STATUS_ERR_B 0 0 7).passEnds
  else ((s.setFld Reg.SYS_BOOT_STATUS_ERR_HOST 0 0 7).toPhase .backoff 1).settleLoad

/-- USABLE in MiB for a density code (R521, R524): floor(installed MiB × 8 ÷ 9). -/
def usableMib (density : Nat) : Nat := 2048 * 2 ^ density * 8 / 9

/-- Training passes (R522, R532): rate, density, the masks of the bank hash, and the regions at their reset sizes. DESIGN
CHOICE (log 136): MEM_LOCK rises here; R123 does not say when. -/
def trainingPasses (s : State) (rate density : Nat) : State :=
  let s := (s.setFlag Reg.MEM_STATUS_TRAINED 0 0 true).setFld Reg.MEM_STATUS_RATE 0 0 rate
  let s := (s.setFld Reg.MEM_STATUS_DENSITY 0 0 density).setFld Reg.MEM_USABLE_MIB 0 0 (usableMib density)
  let s := s.setFlag Reg.SYS_CLK_STATUS_MEM_LOCK 0 0 true
  let s := (List.range 4).foldl (fun s _ =>
    let r := s.drawNonzero 0x40000
    { r.1 with mem := { r.1.mem with masks := r.1.mem.masks ++ [r.2] } }) s
  let r := s.memCommit.refreshSpill
  if fromFlash s then
    { r.setFld Reg.SYS_BOOT_STATUS_STATE 0 0 0 with sys := { s.sys with trained := true, phase := .tryA } }
  else
    { r.setFld Reg.SYS_BOOT_STATUS_STATE 0 0 2 with sys := { s.sys with trained := true, phase := .waitHost } }.settleLoad

/-- The outcome of a try of a flash image (R98, R99 step 4). -/
def tryCode (s : State) (img : ImageSel) (jedec : Nat) (readOk : Bool) : Nat :=
  if jedec = 0xFFFFFF ∨ jedec = 0 ∨ !readOk then 1 else imageCode (fun i => s.flashByte (imageBase img + i)) none

/-- A flash image is tried (R99, R100). -/
def tryImage (s : State) (img : ImageSel) (jedec : Nat) (readOk : Bool) (slots : Nat) : State :=
  let code := s.tryCode img jedec readOk
  let rd := fun (i : Nat) => s.flashByte (imageBase img + i)
  let s := { s with sys := { s.sys with jedec := jedec, slotFails := slots } }
  match img with
  | .imageA =>
    let s := s.setFld Reg.SYS_BOOT_STATUS_ERR_A 0 0 code
    if code = 0 then s.bootFrom rd 1 else s.toPhase .tryB 0
  | .imageB =>
    let s := s.setFld Reg.SYS_BOOT_STATUS_ERR_B 0 0 code
    if code = 0 then s.bootFrom rd 2 else s.passEnds

/-- The image that the pass tries next. -/
def triesNow (s : State) (img : ImageSel) : Bool :=
  !s.sys.inReset && (match img with
    | .imageA => decide (s.sys.phase = .tryA)
    | .imageB => decide (s.sys.phase = .tryB))

end State

/-! ### Commands -/

/-- DRAM_TRAINING (R99 step 3, R522). -/
def execDramTraining (r : TrainResult) (s : State) : Host.Outcome State Fault Refusal :=
  if s.sys.inReset ∨ s.sys.phase ≠ .training then .next s.finish
  else
    .next (match r with
      | .pass rate density => if rate.val = 0 ∨ density.val = 0 then s.trainingFails else s.trainingPasses rate.val density.val
      | .fail => s.trainingFails).finish

/-- IMAGE_TRY (R98, R100): what the flash answers, and the journal slots that it fails to give (R255). -/
def execImageTry (img : ImageSel) (jedec : BitVec 24) (reads : ImageReads) (s : State) :
    Host.Outcome State Fault Refusal :=
  .next (if s.triesNow img then s.tryImage img jedec.toNat reads.ok reads.slots.toNat else s).finish

end Sys2Proof.Machine
end

