-- ==== Sys2Proof/Machine/Base.lean ====
section
/-!
DEFINITION. The base-rate instant (R299): the commits, the rods and beads, the excitation, the round, the filter
chain and all that its words feed; the re-anchoring of R36; and the instants that a member of a Sorrel pair
processes from its twin (R593, R611, R614, R618).
-/
namespace Sys2Proof.Machine

/-- What the chain takes at one base instant: the samples by bank with S of the sensor, O, X and C, and the time flags. -/
structure Feed where
  k : Int
  xs : List (List Sample)
  prov : Bool
  hold : Bool
deriving DecidableEq, Repr

namespace State

/-! ### The samples of a bank -/

/-- The positions of a bank whose break interval overlaps the history of base sample `k`, decisions 96k − 475 to 96k
(R195). -/
def breakMask (s : State) (b : Nat) (k : Int) : Nat :=
  (s.afeOf b).breaks.foldl (fun m e =>
    let hit := e.2.any fun x => decide (x.first ≤ 96 * k) && (match x.last with
      | some l => decide (96 * k - 475 ≤ l)
      | none => true)
    if hit then m ||| 2 ^ e.1 else m) 0

/-- The positions of a bank whose samples carry S for the sensor: presence lost or a break (R189, R195). -/
def senseLost (s : State) (b : Nat) (k : Int) : Nat := (0xFFFF - s.fld Reg.AFE_PRES_STATUS_PRESENT b) ||| s.breakMask b k

/-- One base-rate instant of a bank's converters (R226 to R250): the round, the sets, and the samples that leave the hold of
their fronts now (R196), which the decisions of the hold enter after them.
`gain` says that a gain change of this instant has stepped the bank already (R241). -/
def bankInstant (s : State) (b : Nat) (k : Int) (dec : List (Nat × List Dec)) (gain : Bool) : State × List Sample :=
  let s := s.roundInstant b k
  let st := if k % 256000 = 0 ∧ !gain then s.countedStep b else (s, gain)
  let s := st.1.readFronts b
  let lost := s.senseLost b k
  let xs := s.bankSamples b st.2 lost
  (((s.blendTick b lost).analogTick b k lost).pushFronts b dec, xs)

/-- Every bank at an instant; `old` is the register file before the commits of the instant. -/
def banksInstant (s : State) (old : SMap Word) (k : Int) (dec : List (Nat × List Dec)) : State × List (List Sample) :=
  (List.range 16).foldl (fun acc b =>
    let r := acc.1.bankInstant b k dec (gainMoves old acc.1.regs b)
    (r.1, acc.2 ++ [r.2])) (s, [])

/-- The tags that a base sample takes besides: S for lack of time (R37, R282), T (R372) and W (R369). -/
def fullTags (s : State) (f : Feed) (t : Tm) (b : Nat) : BitVec 8 :=
  BitVec.ofNat 8 (0x40 * b2n f.prov + 0x20 * b2n (s.settling b t) + 0x10 * b2n (s.frontW b f.k))

/-! ### The chain -/

/-- The requests that fall due at grid index `k` (R367, R400, R407, R419, R429). -/
def dueAtInstant (s : State) (k : Int) : State :=
  let s := (List.range 16).foldl (fun s g => s.fltDue g k) s
  (List.range 16).foldl (fun s u => s.capDue u k) (s.talDue k)

/-- What a group has emitted goes to capture, to Tally and to Carry. -/
def spread (s : State) (f : Feed) (e : Emitted) : State :=
  let s := (List.range 16).foldl (fun s u =>
    if s.flag Reg.CAP_CAP_CFG_EN u ∧ s.capGroup u = e.g then s.capSlot u e else s) s
  ((s.thrOccs e).talTake e).cryTake e f.prov f.hold

/-- The filter groups at an instant, with their samples complete. -/
def groupsInstant (s : State) (f : Feed) (par : List ParityFault) : State :=
  let t := (s.gridT f.k).toNat
  (f.xs.zip (List.range f.xs.length)).foldl (fun s e =>
    let add := s.fullTags f t e.2
    let xs := e.1.map fun x => { x with tags := x.tags ||| add }
    let lost := (e.1.zip (List.range 16)).foldl (fun m x => if x.1.tags &&& 0x40#8 ≠ 0 then m ||| 2 ^ x.2 else m) 0
    let c := { s.cnvOf e.2 with base := xs.map (fun x => sampleWord x.v x.tags), lost := lost }
    let r := (s.setCnv e.2 c).fltInstant e.2 f.k xs (par.filter fun p => decide (p.group.val = e.2))
    match r.2 with
    | some x => r.1.spread f x
    | none => r.1) s

/-- One base instant of the chain (R335, R338, R353, R426): requests, rods and beads, the groups, and what their words
feed. `own` says that the rods are the member's own; a follower's have been set from its twin's frame (R330). -/
def chainInstant (s : State) (f : Feed) (own : Bool) (par : List ParityFault) : State :=
  let t := (s.gridT f.k).toNat
  let s := s.dueAtInstant f.k
  let s := (if own then s.rodsAt f.k t else s.rodZeroAt f.k t).showRods
  let s := ((s.beadsAt f.k).clearSegs).groupsInstant f par
  let s := ((List.range 16).foldl (fun s u => s.capEval u) s).dropTrigs
  (s.ctlInterval f.k).cryInstant f.hold

/-- Shift the grid indices that the filter groups remember by `d`, at a re-anchoring. -/
def shiftGroups (s : State) (d : Int) : State :=
  { s with flt := s.flt.map fun e => (e.1, { e.2 with
      levels := e.2.levels.map fun x => (x.1 + d, x.2)
      runs := e.2.runs.map fun x => (x.1, { x.2 with k0 := x.2.k0 + d })
      lastT := e.2.lastT.map (· + d), warm := [], resetAt := none }) }

/-- Shift the grid indices at which the streams have begun (R37, R38). -/
def shiftStreams (s : State) (d : Int) : State :=
  { s with cry := { s.cry with streams := s.cry.streams.map fun e => (e.1, { e.2 with startK := e.2.startK + d }) } }

/-- Shift the grid indices that Tally remembers: of its windows, of what waits for the words of an instant, and of the
exports being taken (R388 to R401). -/
def shiftTally (s : State) (d : Int) : State :=
  let acc := fun (e : Nat × TalAcc) => (e.1, { e.2 with since := e.2.since + d })
  let win := fun (w : TalWindow) =>
    { w with kOpen := w.kOpen + d, kClose := w.kClose.map (· + d), accs := w.accs.map acc }
  { s with tal := { s.tal with
      windows := s.tal.windows.map fun e => (e.1, e.2.map win)
      rf := s.tal.rf.map fun e => (e.1, { e.2 with ops := e.2.ops.map fun o => (o.1 + d, o.2) })
      exports := s.tal.exports.map fun x => { x with k := x.k + d } } }

/-- The chain at a re-anchoring from grid index `old` to `new` (R36, R37, R341, R419, R437, R630). -/
def chainReanchor (s : State) (old new : Int) : State :=
  let d := new - old - 1
  let s := (((s.rodZeroJump old new).shiftGroups d).shiftStreams d).shiftTally d
  let s := (List.range 16).foldl (fun s g => s.syncReset g new 5 (decide ((s.cnvOf g).cleared = some new))) s
  let s := (List.range 16).foldl (fun s u => s.capReanchor u d new) s
  (s.ctlReanchor new).markDisc

/-! ### TW_SAMPLE (R590) -/

/-- The tag nibble of a sample: S, O, X, C. -/
def nibble (x : Sample) : Nat :=
  let n := x.tags.toNat
  b2n (bit n 6) + 2 * b2n (bit n 3) + 4 * b2n (bit n 2) + 8 * b2n (bit n 1)

/-- The tags of a nibble. -/
def nibbleTags (n : BitVec 4) : BitVec 8 :=
  let v := n.toNat
  BitVec.ofNat 8 (0x40 * b2n (bit v 0) + 8 * b2n (bit v 1) + 4 * b2n (bit v 2) + 2 * b2n (bit v 3))

/-- Two nibbles to a byte, the lower channel first. -/
def nibbleBytes : List Nat → List Byte
  | a :: b :: t => BitVec.ofNat 8 (a + 16 * b) :: nibbleBytes t
  | [a] => [BitVec.ofNat 8 a]
  | [] => []

/-- The 16 bytes of a rod in TW_SAMPLE. -/
def rodBytes (s : State) (r : Nat) : List Byte :=
  let q := s.rod r
  let last := s.fld Reg.ABC_LAST_T 0 r
  le 6 (s.fld Reg.ABC_POS_LO_POS 0 r + 0x100000000 * s.fld Reg.ABC_POS_HI_POS 0 r) ++ le 4 (s.fld Reg.ABC_VEL_V 0 r) ++
    le 1 (s.rodQual r + 4 * b2n q.doubt + 8 * b2n (decide (q.dir < 0))) ++ le 1 0 ++ le 4 last

/-- The 1,328 bytes of TW_SAMPLE for grid index `k` and its samples. -/
def sampleBody (s : State) (k : Int) (xs : List (List Sample)) (lost : Bool) : List Byte :=
  let all := xs.flatten
  let banks := List.range 16
  le 8 (toField 64 k) ++ all.flatMap (fun x => le 4 (toField 32 (clamp (-0x80000000) 0x7FFFFFFF x.v))) ++
    nibbleBytes (all.map nibble) ++ banks.flatMap (fun b => le 2 (toField 16 (s.afeOf b).exc.drv)) ++
    banks.flatMap (fun b => le 1 (s.fld Reg.AFE_STATUS_EXC_REG b + 2 * s.fld Reg.AFE_STATUS_EXC_LIMIT b
      + 4 * s.fld Reg.AFE_STATUS_EXC_FAULT b)) ++
    [1, 2, 3, 4, 5, 6, 7].flatMap (fun r => s.rodBytes r) ++
    le 4 ((List.range 20).foldl (fun m i => m + 2 ^ i * b2n (s.inLevel i)) (2 ^ 21 * b2n s.mrk.syncLevel)) ++
    le 1 (b2n s.provisional + 2 * b2n s.inHoldover + 4 * b2n lost) ++ le 3 0

/-- The feeding member sends TW_SAMPLE; the yielding one goes on for the L instants of the blend (R611 steps 3, 5). -/
def sendSample (s : State) (k : Int) (xs : List (List Sample)) : State :=
  if s.leads || (s.yielded && decide (s.twn.blendLeft ≠ 0)) then s.sendTwin 0x40 (s.sampleBody k xs s.tim.lostNow) else s

/-! ### Feeding the chain from the member's own converters -/

/-- The blend of a handover on the taking member with what its twin has forwarded of instant `k`, and the X alone of R614
where there is nothing of it (R246, R611 step 5). -/
def overlay (s : State) (k : Int) (xs : List (List Sample)) : State × List (List Sample) :=
  let n := s.twn.blendLeft
  if n = 0 then (s, xs)
  else
    let l := s.fld Reg.TWN_TW_CFG_XBLEND
    let out := if s.taking then (s.twn.fwdVals.find? fun f => decide (f.1 = k)).map (·.2) else none
    let one := fun (ch : Nat) (x : Sample) =>
      match out with
      | some f =>
        let o := (f.getD (ch / 16) []).getD (ch % 16) default
        ({ v := blendValue l (l - n) o.v x.v, tags := x.tags ||| 4#8 ||| (o.tags &&& 8#8) } : Sample)
      | none => { x with tags := x.tags ||| 4#8 }
    let ys := (xs.zip (List.range xs.length)).map fun e =>
      (e.1.zip (List.range 16)).map fun y => one (16 * e.2 + y.2) y.1
    ({ s with twn := { s.twn with blendLeft := n - 1 } }, ys)

/-- The chain takes an instant from the member's own samples. -/
def feedOwn (s : State) (k : Int) (xs : List (List Sample)) (par : List ParityFault) : State :=
  let r := s.overlay k xs
  let s := r.1.chainInstant ⟨k, r.2, s.provisional, s.inHoldover⟩ true par
  let s := if s.sys.straps.pair then
      { s with twn := { s.twn with
          nextK := k + 1, ownVals := s.twn.ownVals.filter fun e => decide (k < e.1)
          fwdVals := s.twn.fwdVals.filter fun e => decide (k < e.1) } }
    else s
  s.sendSample k r.2

/-- The instants that the twin's frames have left out are fed from the member's own samples of them (R614). -/
def catchUp (s : State) (k : Int) : State :=
  let next := s.twn.nextK
  ((s.twn.ownVals.filter fun e => decide (next ≤ e.1 ∧ e.1 < k)).reverse).foldl (fun s e => (s.feedOwn e.1 e.2.2 []).logged) s

/-! ### The analog cross-check (R600, R605) -/

/-- One channel of the cross-check takes the member's own sample and the forwarded one. -/
def crossOne (s : State) (ch : Nat) (own fwd : Sample) (void : Bool) : State :=
  let skip := bit (s.fld Reg.TWN_CHFAIL 0 (ch / 32)) (ch % 32) || bit (s.fld Reg.TWN_XMISM 0 (ch / 32)) (ch % 32)
  let x := s.twn.cross.lookD ch default
  if skip || decide (s.fld Reg.TWN_XCHK_XWIN * 256 ≤ x.n) then s
  else
    let bad := void || decide ((own.tags ||| fwd.tags) &&& 0x4E#8 ≠ 0)
    { s with twn := { s.twn with cross := s.twn.cross.put ch { x with sum := x.sum + (own.v - fwd.v), n := x.n + 1, bad := x.bad || bad } } }

/-- The instants of which both the member's own samples and the twin's are there enter the cross-check. -/
def crossPair (s : State) : State :=
  match s.twn.fwdVals.find? fun f => s.twn.ownVals.any fun o => decide (o.1 = f.1) with
  | none => s
  | some f =>
    let s1 := { s with twn := { s.twn with fwdVals := s.twn.fwdVals.filter fun x => decide (f.1 < x.1) } }
    match s.twn.ownVals.find? fun o => decide (o.1 = f.1) with
    | none => s1
    | some o =>
      (List.range 256).foldl (fun s ch =>
        let own := (o.2.2.getD (ch / 16) []).getD (ch % 16) default
        let fwd := (f.2.getD (ch / 16) []).getD (ch % 16) default
        s.crossOne ch own fwd (bit o.2.1 (ch / 16))) s1

/-- A member that follows keeps its own samples of the last 300 instants. -/
def keepOwn (s : State) (k : Int) (xs : List (List Sample)) : State :=
  let changing := (List.range 16).foldl (fun m b => m + 2 ^ b * b2n (s.flag Reg.AFE_EXC_NOW_CHANGING b)) 0
  let s := { s with twn := { s.twn with ownVals := ((k, changing, xs) :: s.twn.ownVals).take 300 } }
  if s.role = 2 && !s.taking then s.crossPair else s

/-! ### The base-rate instant of the hub itself -/

/-- GRID_PHASE, the phase steering of W and EV_TIM_MODPLL (R301). The steering within ±0.1 ppm is not given: a free value
(log 20). -/
def phaseInstant (s : State) (phase : Int) : State :=
  if s.timeState ≠ 2 ∧ s.timeState ≠ 3 then s
  else
    let n := s.tim.phaseN + 1
    let sq := s.tim.phaseSq + phase.natAbs * phase.natAbs
    let s := s.setFldS Reg.TIM_GRID_PHASE_LAST 0 0 phase
    let s := if n < 256000 then { s with tim := { s.tim with phaseN := n, phaseSq := sq } }
      else
        let s := { s with tim := { s.tim with phaseN := 0, phaseSq := 0 } }
        s.setFld Reg.TIM_GRID_PHASE_RMS 0 0 (min (isqrt (sq / n)) 0xFFFF)
    let steer : Int := (Config.freeWord s.free).toNat % 201
    let s := s.drawn.clockStatus (steer - 100)
    let n := Config.modNominal
    if 256 < phase.natAbs ∨ n / 5000 ≤ (s.tim.word - n).natAbs then
      s.raise .TIM 0 7 (regRd s.regs 0x1018C).toNat (w32s (rdiv ((s.tim.word - n) * 1000000000) n)).toNat
    else s

/-- The wire breaks, the excitation and the guards of a bank at grid index `k` (R193, R199, R203, R206). A member that follows takes the status
of its controllers from its twin (R593). -/
def excInstant (s : State) (b : Nat) (k : Int) (e : BaseEnv) : State :=
  let cm := (e.cm.filter fun x => decide (x.1 / 16 = b)).foldl (fun m x => m.put (x.1 % 16) x.2) (s.afeOf b).cm
  let s := if cm = (s.afeOf b).cm then s else s.setAfe b { s.afeOf b with cm := cm }
  let pins := (e.pins.filter fun x => decide (x.1 / 16 = b)).map fun x => (x.1 % 16, x.2)
  let s := ((s.brkInstant b k pins).excClear b).guardTick b
  s.excMeasure b k ((e.exc.find? fun x => decide (x.1 = b)).map (·.2))

/-! ### Instants from the twin (R592, R593) -/

/-- An active edge on input `i` at `t`, after the edges `hist`, loads the rods of its twin that it indexes, but for an
overrun (R316, R328, R330). -/
def indexEdge (s : State) (i : Nat) (t : Tm) (hist : List (Tm × Bool)) : State :=
  let gap := max 50 (10 * s.fld Reg.ABC_IN_CFG_MIN_INT 0 i) * Config.unitsPerNs
  if hist.head?.any fun e => decide (t - e.1 < gap) then s
  else
    [1, 2, 3, 4, 5, 6, 7].foldl (fun s r =>
      if (s.rodKind r = 2 ∨ s.rodKind r = 3) ∧ s.flag Reg.ABC_ROD_CFG_IDX_EN 0 r ∧ s.fld Reg.ABC_ROD_CFG_INZ 0 r = i then
        s.setRod r { s.rod r with loadAt := some t }
      else s) s

/-- An entry of TW_EVENT acts at grid index `k` (R590 Table 4). -/
def applyEntry (s : State) (k : Int) : TwEntry → State
  | .write p a w => s.hostWrite (.twin p) a w 0xF
  | .commit page => s.twinCommit page.toNat k
  | .edge i level ns =>
    let t := ns * Config.unitsPerNs
    if i.val = 20 then (if level then s.syncPin t else s)
    else if i.val = 21 then s.mkSync level ns
    else
      let x := s.input i.val
      let s := s.setInput i.val { x with hist := (t, level) :: x.hist }
      let s := if level then s.indexEdge i.val t x.hist else s
      if i.val < 16 then s else s.termOccs (if level then 3 else 4) (i.val - 16) t
  | .nettrig m => s.networkTrigger m.id.toNat m.origin.toNat m.time
  | .ackpos i a => s.ackOwn i.val a.toNat true false
  | .level i l n =>
    let st := s.stream i.val
    let n := st.nextBseq / 0x100000000 * 0x100000000 + n.toNat
    s.setStream i.val { st with levelDue := st.levelDue ++ [(n, l.val)] }
  | .log ws => s.feedAll 4 ws

/-- The entries for grid indices up to `k`, in their order. -/
def applyEntries (s : State) (k : Int) : State :=
  let due := s.twn.events.filter fun e => decide (e.1 ≤ k)
  let s := { s with twn := { s.twn with events := s.twn.events.filter fun e => decide (k < e.1) } }
  due.foldl (fun s e => s.applyEntry k e.2) s

/-- The load of a rod that the twin's frame of instant `t` shows, if there was one: when, and the value loaded (R316, R318, R330). A
GATE rod loads where it begins to move, at its event `ev`. -/
def twLoad (s : State) (r : Nat) (t ev : Tm) (m : TwRod) : Option (Tm × Int) :=
  let q := s.rod r
  let kind := s.rodKind r
  if kind = 4 ∧ q.stopped ∧ m.qual.toNat % 4 ≠ 0 then
    let fwd := decide (m.backward = decide (s.pitch r < 0))
    some (ev, s.loadValue r - (if fwd then 0 else s.pitch r))
  else if kind ≠ 2 ∧ kind ≠ 3 then none
  else if q.loadReq then some (t, s.loadValue r)
  else q.loadAt.map fun t0 => (t0, s.loadValue r)

/-- A rod follows the position, velocity, quality and last event that the twin's frame of instant `t` holds (R330): up to a load
it goes on, at its event it jumps, and to the instant it slides. The edge position of a COUNT or QUAD rod is the whole
number of pitches nearest to where the velocity leads back to from the position (DEDUCED, log 145). -/
def followTwRod (s : State) (t : Tm) (m : TwRod) : State :=
  let r := m.rod.val
  if r = 0 then s
  else
    let q := s.rod r
    let kind := s.rodKind r
    let pitch := s.pitch r
    let counts := decide (kind = 2 ∨ kind = 3)
    let p : Int := if (rodModulus r kind).isSome then m.pos.toNat else m.pos.toInt
    let ev := extend32 (t / Config.unitsPerNs) m.last.toNat * Config.unitsPerNs
    let fresh := decide (q.evalT < ev + Config.unitsPerNs ∧ ev ≤ t) && decide (q.lastEvent ≠ some ev)
    let vn := m.vel.toInt * 256
    let dir : Int := if m.backward then -1 else 1
    let load := s.twLoad r t ev m
    let q0 := match load with
      | some (tl, x) => ({ (q.slideTo kind pitch tl) with vn := vn, vd := secTm } : RodState).loadTo tl x
      | none => q
    let back := p - quotZ (vn * ((t : Int) - ev)) secTm
    let moved := fresh && decide (kind ≠ 4 ∧ (q0.evalT ≤ ev ∨ load.isNone))
    let edge : Int := if moved ∧ pitch ≠ 0 then q0.edgePos + rdiv (sgn pitch * (back - q0.edgePos)) pitch.natAbs * pitch else q0.edgePos
    let lo := min q0.evalPos p
    let q1 := if !moved then q0 else q0.jumpTo ev (if counts then edge else max lo (min (max q0.evalPos p) back))
    let line := if counts then (if moved then (edge, ev) else (q1.edgePos, q1.te)) else (p, t)
    let start := if moved then ev else match load with
      | some (tl, _) => tl
      | none => q.evalT
    let slide : List RodSeg := if p = q1.evalPos then []
      else [.slide start (q1.from_ p) p p t (p - q1.evalPos) (max 1 (t - start))]
    let qual := m.qual.toNat % 4
    let d := dir * sgn pitch
    let ivals := if q.stopped then [] else match q.lastEvent with
      | some t0 => if fresh then ((ev - t0) :: q.ivals).take 8 else q.ivals
      | none => []
    let run := if q.qdir ≠ d then 0 else if fresh then min ivals.length (q.run + 1) else q.run
    let s := s.setRod r { q1 with
      segs := q1.segs ++ slide, evalPos := p, evalT := t, pos := line.1, te := line.2, vn := vn, vd := secTm
      edgePos := if counts then edge else p, doubt := bit m.qual.toNat 2, stopped := decide (qual = 0), dir := dir, qdir := d
      lastEvent := some ev, held := none, loadReq := false, loadAt := none, ivals := ivals, run := run
      past := q1.past && decide (p = q1.evalPos) }
    let grade := if qual = 1 then (s.gradeAt r (t - ev)).getD 2 else qual
    s.setRod r { s.rod r with grade := grade }

/-- The excitation status of the active comes with its sample (R212, R593). Its frame does not say why a fault latched: a fault
while limiting is taken as that of the limit, any other as SAT (DEDUCED, log 143). -/
def followExc (s : State) (m : TwSampleMsg) (b : Nat) : State :=
  let x : Nat × BitVec 3 := ((m.exc.find? fun e => decide (e.1 = b)).map (·.2)).getD (0, 0)
  let n := x.2.toNat
  let s := s.setAfe b { s.afeOf b with drvFromTwin := x.1 }
  let cause := if !s.flag Reg.AFE_STATUS_EXC_LIMIT b then 3 else if s.fld Reg.AFE_EXC_MODE_MODE b = 1 then 1 else 2
  let s := (s.setFlag Reg.AFE_STATUS_EXC_REG b 0 (bit n 0)).setFlag Reg.AFE_STATUS_EXC_LIMIT b 0 (bit n 1)
  if bit n 2 ∧ (s.afeOf b).exc.phase ≠ .fault then s.excFault b cause else s.presExc b

/-- The accepted levels of the twin's inputs at its instant `t` stand where its edges have not told them (R428, R593). -/
def followLevels (s : State) (t : Tm) (levels : BitVec 22) : State :=
  (List.range 20).foldl (fun s i =>
    let x := s.input i
    let lv := bit levels.toNat i
    if (x.hist.head?.map (·.2)).getD false = lv then s else s.setInput i { x with hist := (t, lv) :: x.hist }) s

/-- The samples that a TW_SAMPLE forwards, by bank. -/
def forwarded (m : TwSampleMsg) : List (List Sample) :=
  (List.range 16).map fun b => (List.range 16).map fun p =>
    match m.vals.find? fun e => decide (e.1 = 16 * b + p) with
    | some e => ⟨e.2.1, nibbleTags e.2.2⟩
    | none => ⟨0, 0⟩

/-- LAG: the largest arrival after its instant over the last second (R621). -/
def noteLag (s : State) (k : Int) : State :=
  let late := (((s.now : Int) - s.gridT k) / Config.unitsPerNs).toNat
  let l : List (Tm × Nat) := (s.life, late) :: s.twn.lags.filter fun e => decide (s.life < e.1 + 1000000000 * Config.unitsPerNs)
  let most := l.foldl (fun (m : Nat) (e : Tm × Nat) => max m e.2) 0
  ({ s with twn := { s.twn with lags := l } }).setFld Reg.TWN_LAG_NS 0 0 (min most 0xFFFF)

/-- A member that follows processes base instant K from the twin's sample (R593). A gap in K is a re-anchoring of the
twin; a sample of an instant that has been processed does nothing. -/
def followInstant (s : State) (m : TwSampleMsg) : State :=
  let k := m.k
  if k < s.twn.nextK then s
  else
    let old := s.twn.nextK - 1
    let s := (s.noteLag k).applyEntries (k - 1)
    let s := if k = old + 1 then s else s.chainReanchor old k
    let s := { s with twn := { s.twn with nextK := k + 1, prov := m.prov, hold := m.hold } }
    let s := (List.range 16).foldl (fun s b => s.followExc m b) (s.applyEntries k)
    let s : State := if m.lost then s.markDisc else s
    let t := (s.gridT k).toNat
    let s : State := (m.rods.foldl (fun s r => s.followTwRod t r) s).followLevels t m.levels
    let xs := forwarded m
    let s : State := s.chainInstant ⟨k, xs, m.prov, m.hold⟩ false []
    let s : State := if s.role ≠ 2 then s
      else ({ s with twn := { s.twn with fwdVals := (s.twn.fwdVals ++ [(k, xs)]).drop (s.twn.fwdVals.length - 299) } }).crossPair
    { s with twn := { s.twn with nextK := k + 1, prov := m.prov, hold := m.hold } }.logged

/-- The taking member feeds its chain with the blend of an instant of which both its own samples and the forwarded ones are
there (R611 step 5). -/
def blendOne (s : State) : State :=
  let k := s.twn.nextK
  if s.blending ∧ s.twn.fwdVals.any fun f => decide (f.1 = k) then
    match s.twn.ownVals.find? fun o => decide (o.1 = k) with
    | some o => ((s.applyEntries k).feedOwn k o.2.2 []).logged
    | none => s
  else s

/-- All such instants, in their order. -/
def blendPairs (s : State) : State := s.twn.ownVals.foldl (fun s _ => s.blendOne) s

/-- The instant K_H of the handover in which the member takes over. -/
def takesAt (s : State) : Option Int := (s.twn.handover.filter fun h => h.past && !h.yields).map (·.kH)

/-- A TW_SAMPLE arrives (R593, R611, R618): the taking member processes those before K_H and blends those from it on, a
member in RESYNC keeps the frame until the copy allows, and a member that follows processes it. -/
def takeSample (s : State) (m : TwSampleMsg) : State :=
  if s.taking then
    if s.takesAt.any fun kH => decide (m.k < kH) then s.followInstant m
    else if s.blending then
      { s with twn := { s.twn with fwdVals := s.twn.fwdVals ++ [(m.k, forwarded m)] } }.blendPairs
    else s
  else if s.role = 4 ∧ s.fld Reg.TWN_STATUS_PHASE < 4 then { s with twn := { s.twn with kept := s.twn.kept ++ [m] } }
  else if s.follows then s.followInstant m
  else s

/-- TW_EVENT entries of base instant `k` arrive (R592, R593): they wait for their instant, or act at once where it has
been processed. -/
def takeEvents (s : State) (k : Int) (es : List TwEntry) : State :=
  if s.role = 4 ∧ s.fld Reg.TWN_STATUS_PHASE < 4 then
    { s with twn := { s.twn with keptEvents := s.twn.keptEvents ++ [(k, es)] } }
  else if !s.follows && !s.takesAt.any fun kH => decide (k ≤ kH) then s
  else if k < s.twn.nextK then es.foldl (fun s e => s.applyEntry (s.twn.nextK - 1) e) s
  else { s with twn := { s.twn with events := s.twn.events ++ es.map fun e => (k, e) } }

/-! ### The base-rate instant of the member -/

/-- Base-rate instant `k` at `t`: the member's role, the commits, the front end, the converters, and the chain. -/
def instantAt (s : State) (k : Int) (t : Tm) (e : BaseEnv) : State :=
  let now := BitVec.ofNat 80 (max s.now t)
  let s := { s with tim := { s.tim with counter := now, k := k } }
  let s := s.twnInstant
  let old := s.regs
  let s := s.takeAccepted k
  let s := (List.range 16).foldl (fun s b => s.excInstant b k e) s
  let r : State × List (List Sample) := s.banksInstant old k e.dec
  let s : State := (r.1.storeInstant).phaseInstant e.phase
  let s : State :=
    if s.idles then s
    else if s.blending then (s.keepOwn k r.2).blendPairs
    else if s.follows then
      let s := (s.sendSample k r.2).keepOwn k r.2
      if s.yielded then { s with twn := { s.twn with blendLeft := s.twn.blendLeft - 1 } } else s
    else (s.catchUp k).feedOwn k r.2 e.parity
  { s with tim := { s.tim with counter := now, k := k, lostNow := false } }

/-- The re-anchoring at `t`, an instant of the sync-epoch grid (R36, R249). The decisions of the fronts go on, so that
the break intervals are counted on by the new grid. -/
def reanchorAt (s : State) (t : Int) (e : BaseEnv) : State :=
  let epoch : Int := s.tim.epoch.toNat * Config.unitsPerNs
  let new := (t - epoch) / Config.baseUnits
  let old := s.tim.k
  let d := 96 * (new - old - 1)
  let shift := fun (x : BreakSpan) => ({ first := x.first + d, last := x.last.map (· + d) } : BreakSpan)
  let s := { s with afe := s.afe.map fun (a : Nat × AfeState) => (a.1, { a.2 with breaks := a.2.breaks.map fun (x : Nat × List BreakSpan) => (x.1, x.2.map shift) }) }
  let s := { s with cnv := s.cnv.map fun (c : Nat × CnvState) => (c.1, { c.2 with cleared := c.2.cleared.map (· + (new - old - 1)) }) }
  let s := { s with tim := { s.tim with anchor := epoch, onEpoch := true, reanchor := none } }
  let s : State := (List.range 16).foldl (fun s b => s.roundAbandon b new false) s
  let s : State := if s.follows || s.idles then s else s.chainReanchor old new
  s.instantAt new t.toNat e

/-- The next base-rate instant: the next one of the grid in force, or the re-anchoring that comes before it. -/
def baseInstant (s : State) (e : BaseEnv) : State :=
  if !s.booted || !s.tim.running then s
  else
    let t := s.gridT (s.tim.k + 1)
    match s.tim.reanchor with
    | some r => if r ≤ t then s.reanchorAt r e else s.instantAt (s.tim.k + 1) t.toNat e
    | none => s.instantAt (s.tim.k + 1) t.toNat e

/-! ### Resynchronisation (R618, R619) -/

/-- The bases of the lockstep pages (R591). -/
def lockPages : List Nat := allPages.filter fun b => ((pageAt b).map fun p => lockstepKind p.1).getD false

/-- A word that a host writes without a commit and that a copy of the configuration holds: the bead table, the
coefficient RAM, the frame memory, and the RW registers of the lockstep pages beyond the common ones. -/
def directWord (a : Nat) : Bool :=
  match pageOf a with
  | none => false
  | some (k, n) =>
    let o := a - pageBase k n
    lockstepKind k && (decide (0x18000 ≤ a ∧ a < 0x1C000) || decide (0x100000 ≤ a) || decide (0xC8000 ≤ a ∧ a < 0xCA000) ||
      (decide (0x100 ≤ o) && (fieldsAt a).any fun f => decide (f.access = .rw)))

/-- A word of the on-chip lockstep state that registers hold (R618 phase 2). -/
def stateWord (a : Nat) : Bool :=
  match pageOf a with
  | none => false
  | some (k, n) =>
    let o := a - pageBase k n
    decide (k = .FLT ∨ k = .ABC ∨ k = .TAL ∨ k = .CAP ∨ k = .CTL ∨ (k = .CRY ∧ 0x1000 ≤ o)) && decide (o = 8 ∨ 0x100 ≤ o)

/-- The words of a register file that satisfy `f` replaced by those of another. -/
def swapWords (f : Nat → Bool) (m c : SMap Word) : SMap Word :=
  (c.filter fun e => f e.1).foldl (fun m e => regWr m e.1 e.2) (m.filter fun e => !f e.1)

/-- The words that a copy carries, as a register file. -/
def copiedWords (c : ResyncCopy) : SMap Word := c.words.foldl (fun m e => regWr m e.1.toNat e.2) []

/-- A word that holds GEN and the positions of a stream (R618 phase 1). -/
def positionWord (a : Nat) : Bool :=
  match pageOf a with
  | none => false
  | some (k, n) => decide (k = .CRY ∧ 0x1000 ≤ a - pageBase k n)

/-- Phase 1: the configuration is taken into force as one global commit whose check must pass, with SESSION, GEN and the
positions of the streams. -/
def resyncConfig (s : State) (c : ResyncCopy) : State :=
  let ws := copiedWords c
  let s1 := { s with regs := swapWords directWord s.regs ws }
  let old := s1.soon
  if s1.failures old (takeSnap old lockPages ws) ≠ [] then s.endResync 0 9
  else
    let sh := takeSnap s1.shadow lockPages ws
    let s := ({ s1 with shadow := sh }).takeCommit lockPages (wordsOf sh lockPages) [] s.tim.k
    let s := { s with regs := swapWords positionWord s.regs ws }
    (s.setFld Reg.CRY_SESSION 0 0 c.session.toNat).setFld Reg.TWN_STATUS_PHASE 0 0 2

/-- Phase 2: the writes and commits up to K_S, and the on-chip state and the regions as they stood after it. -/
def resyncState (s : State) (c : ResyncCopy) : State :=
  match c.state with
  | none => s.endResync 2 8
  | some l =>
    let ws := copiedWords c
    let before := s.twn.keptEvents.filter fun e => decide (e.1 ≤ c.kS)
    let s := before.foldl (fun s e => (e.2.filter fun x => match x with
      | .write _ _ _ => true
      | .commit _ => true
      | _ => false).foldl (fun s x => s.applyEntry e.1 x) s) s
    let regs := swapWords directWord (swapWords stateWord (takeSnap s.regs lockPages ws) ws) ws
    let inputs := s.abc.inputs.map fun e => (e.1, { e.2 with hist := (l.abc.inputs.lookD e.1 default).hist })
    let data := s.twn.store.filter fun e => decide (e.1 / 0x10000000000 = 2)
    let s := { s with
      regs := regs, flt := l.flt, abc := { l.abc with inputs := inputs }, tal := l.tal, cap := l.cap, ctl := l.ctl
      cry := { s.cry with streams := l.cry.streams } }
    let s := data.foldl (fun s e => s.dramWrite (e.1 % 0x10000000000) [e.2]) s
    let s := { s with twn := { s.twn with
      nextK := c.kS + 1, store := [], kept := s.twn.kept.filter (fun m => decide (c.kS < m.k))
      keptEvents := s.twn.keptEvents.filter fun e => decide (c.kS < e.1) } }
    s.setFld Reg.TWN_STATUS_PHASE 0 0 3

/-- Phase 3: the stored instants are processed in their order. -/
def resyncReplay (s : State) : State :=
  let kept := s.twn.kept
  let events : List (Int × TwEntry) := s.twn.keptEvents.flatMap fun e => e.2.map fun x => (e.1, x)
  let s : State := { s with twn := { s.twn with kept := [], keptEvents := [], events := events } }
  (kept.foldl (fun s m => s.followInstant m) s).setFld Reg.TWN_STATUS_PHASE 0 0 4

/-- Phase 4: the unacknowledged blocks closed before the member's first own block. -/
def resyncBlocks (s : State) (c : ResyncCopy) : State :=
  let s : State := match c.state with
    | none => s
    | some l => l.cry.streams.foldl (fun s e =>
        let own := (s.stream e.1).blocks
        let new : List Block := e.2.blocks.filter fun b => !own.any fun o => decide (o.bseq ≤ b.bseq)
        s.setBlocks e.1 (new ++ own)) s
  s.refreshSpill.setFld Reg.TWN_STATUS_PHASE 0 0 5

/-- Phase 5: STANDBY. -/
def resyncDone (s : State) : State :=
  let s := s.raise .TWN 0 6 5 s.copiedMib
  let s := s.setFld Reg.TWN_STATUS_PHASE 0 0 0
  ({ s with twn := { s.twn with store := [], copied := 0, own := [], got := [], cross := [] } }).setRole 2 9

/-- A phase of a resynchronisation ends: on the member in RESYNC with what it has copied, on the active with the copy of
the phase that follows. -/
def resyncPhase (s : State) (c : ResyncCopy) : State :=
  let p := s.fld Reg.TWN_STATUS_PHASE
  if p = 0 then s
  else if s.role = 1 then
    if p < 5 then (s.setFld Reg.TWN_STATUS_PHASE 0 0 (p + 1)).put (.copy (p + 1) (s.copyOf (p + 1)))
    else (s.setFld Reg.TWN_STATUS_PHASE 0 0 0).refreshGating
  else if s.role ≠ 4 then s
  else if p = 1 then s.resyncConfig c
  else if p = 2 then s.resyncState c
  else if p = 3 then s.resyncReplay
  else if p = 4 then s.resyncBlocks c
  else s.resyncDone

end State

/-- BASE_RATE_INSTANT (R299). -/
def execBaseRateInstant (e : BaseEnv) (s : State) : Host.Outcome State Fault Refusal := .next (s.baseInstant e).finish

/-- TW_SAMPLE (R593). -/
def execTwSample (m : TwSampleMsg) (s : State) : Host.Outcome State Fault Refusal :=
  .next (s.twinArrive fun s => s.takeSample m).finish

/-- TW_EVENT (R592). -/
def execTwEvent (k : Int) (es : List TwEntry) (s : State) : Host.Outcome State Fault Refusal :=
  .next (s.twinArrive fun s => s.takeEvents k es).finish

/-- RESYNC_PHASE_END (R618). -/
def execResyncPhaseEnd (c : ResyncCopy) (s : State) : Host.Outcome State Fault Refusal :=
  .next (if s.sys.straps.pair then s.resyncPhase c else s).finish

end Sys2Proof.Machine
end

