-- ==== Sys2Proof/Machine/Host.lean ====
section
/-!
DEFINITION. The commands of the hosts: the register accesses that have a row of their own, the host ports with their
serial transactions and resets, the boot flash, and the register accesses of the manager (R126 to R178, R575).
-/
namespace Sys2Proof.Machine

/-- A word written by port `p` at its own interface, at an address of the register space. -/
def State.poke (s : State) (p : HostPort) (a w : Nat) : State := s.access (.here p) (BitVec.ofNat 24 a) (w32 w) 0xF

/-- A word read by port `p` at its own interface. -/
def State.readWord (s : State) (p : HostPort) (a : Nat) : State :=
  let r := s.hostRead (.here p) (BitVec.ofNat 24 a)
  r.1.setHp p { r.1.hp p with lastRead := [r.2] }

/-- A write of TWN.MGR_CMD: by the manager where the port is bound, else at the port's own interface (R607). -/
def State.managerPoke (s : State) (p : HostPort) (cmd : Nat) (addr : BitVec 16) : State :=
  s.access (if s.bound p then .far p else .here p) 0xA0110 (w32 (cmd + 0x10000 * addr.toNat)) 0xF

/-- A self-test is selected and started (R688). -/
def State.bist (s : State) (p : HostPort) (target group : Nat) : State :=
  (s.poke p 0xF0120 (target + 0x10 * group)).poke p 0xF0004 0x100

/-! ### System and boot registers (R103 to R124) -/

/-- SOFTWARE_RESET (R120): a write of SYS.RESET. -/
def execSoftwareReset (p : HostPort) (w : Word) (s : State) : Host.Outcome State Fault Refusal :=
  .next (s.poke p (0x110) (w.toNat)).finish

/-- CLAIM (R104): a write of SYS.BOOT_CTRL.CLAIM = 1. -/
def execClaim (p : HostPort) (s : State) : Host.Outcome State Fault Refusal :=
  .next (s.poke p (0x118) (1)).finish

/-- CLAIM_RELEASE (R105): a write of CLAIM = 0. -/
def execClaimRelease (p : HostPort) (s : State) : Host.Outcome State Fault Refusal :=
  .next (s.poke p (0x118) (0)).finish

/-- LOAD (R103, R106): a write of SYS.BOOT_CTRL.LOAD = 1. -/
def execLoad (p : HostPort) (s : State) : Host.Outcome State Fault Refusal :=
  .next (s.poke p (0x118) (2)).finish

/-- SYS_ADDR_WRITE (R124). -/
def execSysAddrWrite (p : HostPort) (w : Word) (s : State) : Host.Outcome State Fault Refusal :=
  .next (s.poke p (0x12C) (w.toNat)).finish

/-! ### Registers, commits and events (R129 to R167) -/

/-- REGISTER_WRITE (R129, R142, R146, R147): a word written at an address, with its byte enables. -/
def execRegisterWrite (p : HostPort) (a : BitVec 24) (w : Word) (be : BitVec 4) (s : State) : Host.Outcome State Fault Refusal :=
  .next (s.access (.here p) a w be).finish

/-- PAGE_COMMIT (R148): a write of CTRL.COMMIT = 1 to a page. -/
def execPageCommit (p : HostPort) (page : BitVec 12) (s : State) : Host.Outcome State Fault Refusal :=
  .next (s.poke p (0x1000 * page.toNat + 4) (1)).finish

/-- GLOBAL_COMMIT (R148): a write of SYS.CTRL.COMMIT = 1. -/
def execGlobalCommit (p : HostPort) (s : State) : Host.Outcome State Fault Refusal :=
  .next (s.poke p (4) (1)).finish

/-- DISCARD (R144): a write of CTRL.DISCARD = 1 to a page. -/
def execDiscard (p : HostPort) (page : BitVec 12) (s : State) : Host.Outcome State Fault Refusal :=
  .next (s.poke p (0x1000 * page.toNat + 4) (2)).finish

/-- EVENT_FORCE (R167). -/
def execEventForce (p : HostPort) (page : BitVec 12) (w : Word) (s : State) : Host.Outcome State Fault Refusal :=
  .next (s.poke p (0x1000 * page.toNat + 0x14) (w.toNat)).finish

/-- EVENT_CLEAR (R157, R164): a W1C write of a page's EVENT register. -/
def execEventClear (p : HostPort) (page : BitVec 12) (w : Word) (s : State) : Host.Outcome State Fault Refusal :=
  .next (s.poke p (0x1000 * page.toNat + 0xC) (w.toNat)).finish

/-- EVENT_NOTICE_REPEAT (R139): every 100 ms while a vector of a bound port stays pending and unmasked. -/
def execEventNoticeRepeat (p : HostPort) (s : State) : Host.Outcome State Fault Refusal :=
  .next (if s.booted && s.bound p && decide (s.live p ≠ 0) then s.notice p else s).finish

/-! ### Semaphores (R158 to R162) -/

/-- SEM_CLAIM (R158). -/
def execSemClaim (p : HostPort) (n : Fin 64) (tag : BitVec 8) (s : State) : Host.Outcome State Fault Refusal :=
  .next (s.poke p (0x1100 + 4 * n.val) (4 + 0x100 * tag.toNat)).finish

/-- SEM_RELEASE (R159). -/
def execSemRelease (p : HostPort) (n : Fin 64) (s : State) : Host.Outcome State Fault Refusal :=
  .next (s.poke p (0x1100 + 4 * n.val) (8)).finish

/-- SEM_TAG_WRITE (R159). -/
def execSemTagWrite (p : HostPort) (n : Fin 64) (tag : BitVec 8) (s : State) : Host.Outcome State Fault Refusal :=
  .next (s.poke p (0x1100 + 4 * n.val) (0x100 * tag.toNat)).finish

/-- SEM_FORCE (R162). -/
def execSemForce (p : HostPort) (w : Word) (s : State) : Host.Outcome State Fault Refusal :=
  .next (s.poke p (0x1210) (w.toNat)).finish

/-! ### Host ports (R131 to R140) -/

/-- NETBIND (R137, R140): a write of the port's own HPx.CTRL.NETBIND. -/
def execNetbind (p : HostPort) (bind : Bool) (s : State) : Host.Outcome State Fault Refusal :=
  .next (s.poke p (0x3004 + 0x1000 * p.ix) (0x100 * b2n bind)).finish

/-- PORT_RESET by HPx_PERST_L falling (R140); the other causes of a port reset are effects of NETBIND and of
MANAGER_DEPARTED. -/
def execPortReset (p : HostPort) (s : State) : Host.Outcome State Fault Refusal :=
  if (s.hp p).perstLow then .next s.finish
  else
    let s := s.setHp p { s.hp p with perstLow := true }
    .next (if s.sys.inReset then s else (s.setFlag Reg.HP_STATUS_PERST p.ix 0 true).portReset p).finish

/-- PERST_RELEASE (R140): HPx_PERST_L rises, and a PCIe port begins link training again. -/
def execPerstRelease (p : HostPort) (s : State) : Host.Outcome State Fault Refusal :=
  let s := s.setHp p { s.hp p with perstLow := false }
  .next (if s.sys.inReset then s else s.setFlag Reg.HP_STATUS_PERST p.ix 0 false).finish

/-- PCIE_LINK_TRAINED (R128, R140): the link of a port in PCIe mode reaches L0 at a speed and a width, with the MSI-X
enables that the root complex has set. -/
def execPcieLinkTrained (p : HostPort) (speed : Fin 4) (width : Fin 3) (msixEnable functionMask : Bool) (s : State) :
    Host.Outcome State Fault Refusal :=
  if s.sys.inReset || s.serialMode p || (s.hp p).perstLow || decide (speed.val = 0) || decide (width.val = 0) then .next s.finish
  else
    let s := s.setHp p { s.hp p with inL0 := true, msixEnable := msixEnable, msixFunctionMask := functionMask }
    let s := (s.setFld Reg.HP_STATUS_SPEED p.ix 0 speed.val).setFld Reg.HP_STATUS_WIDTH p.ix 0 width.val
    .next s.refreshLinks.finish

/-- The port answers serial transactions (R126, R131). -/
def State.serialOpen (s : State) (p : HostPort) : Bool := !s.sys.inReset && s.serialMode p

/-- The bytes that the hub drives for the words of a serial read, without wait bytes: the ready marker and the word,
least significant byte first (R132 Table 2). -/
def serialBytes (ws : List Word) : List Byte := ws.flatMap fun w => (0x5A : Byte) :: wordBytes w

/-- The nibbles of a byte as they cross on IO3 to IO0, one a clock: the high one first, bit 3 on IO3 (R131). -/
def serialClocks (b : Byte) : List (BitVec 4) := [b.extractLsb' 4 4, b.extractLsb' 0 4]

/-- The byte that two clocks carry. -/
def serialByte (hi lo : BitVec 4) : Byte := hi ++ lo

/-- The host's side of a transaction before the data, byte by byte: the command, 0x0B or 0x02, and the address, most
significant byte first (R132 Table 2). -/
def serialOpening (read : Bool) (a : BitVec 24) : List Byte :=
  [if read then 0x0B else 0x02, a.extractLsb' 16 8, a.extractLsb' 8 8, a.extractLsb' 0 8]

/-- A read burst of the serial interface goes on with `n` words from an address: the ready marker and each word, until a
pop has to wait, which the host sees as wait bytes (R132, R133, R513). -/
def State.serialBurst (p : HostPort) (n : Nat) (s : State) (a : BitVec 24) : State :=
  let r := State.burstRead (.here p) n s a
  let ws := r.2.words
  let next := a + BitVec.ofNat 24 (4 * ws.length)
  let s := r.1.setHp p { r.1.hp p with serial := .read next.toNat, lastRead := (r.1.hp p).lastRead ++ ws }
  let s := if ws = [] then s else s.put (.serial p (serialBytes ws))
  match r.2.stop with
  | some (q, left) => s.waitPop q ⟨p, .serial (next + 4).toNat left⟩
  | none => s

/-- SERIAL_READ of `n` words (R132, R133): the address phase and as many words; the read of the next address has
begun. After a command that is neither read nor write the hub takes nothing until CS_L rises. -/
def execSerialRead (p : HostPort) (a : BitVec 24) (n : Nat) (s : State) : Host.Outcome State Fault Refusal :=
  if !s.serialOpen p || decide ((s.hp p).serial = .ignored) then .next s.finish
  else
    let here := BitVec.ofNat 24 (a.toNat / 4 * 4)
    .next (State.serialBurst p n (s.setHp p { s.hp p with lastRead := [] }) here).finish

/-- SERIAL_WRITE (R132 to R134): each word takes effect at its eighth data clock. -/
def execSerialWrite (p : HostPort) (a : BitVec 24) (ws : List Word) (s : State) : Host.Outcome State Fault Refusal :=
  if !s.serialOpen p || decide ((s.hp p).serial = .ignored) then .next s.finish
  else
    let here := BitVec.ofNat 24 (a.toNat / 4 * 4)
    let s := (s.burstWrite (.here p) here ws).settleLoad
    .next (s.setHp p { s.hp p with serial := .write ((here + BitVec.ofNat 24 (4 * ws.length)).toNat) }).finish

/-- SERIAL_BAD_COMMAND (R132): the transaction is ignored until CS_L rises. -/
def execSerialBadCommand (p : HostPort) (cmd : Byte) (s : State) : Host.Outcome State Fault Refusal :=
  .next (if s.serialOpen p && decide (cmd ≠ 0x0B ∧ cmd ≠ 0x02) then s.setHp p { s.hp p with serial := .ignored } else s).finish

/-- The pops of a port that wait are abandoned (R135). -/
def State.dropWaiting (s : State) (p : HostPort) : State :=
  { s with cry := { s.cry with queues := s.cry.queues.map fun e =>
      (e.1, { e.2 with waiting := e.2.waiting.filter fun x => decide (x.port ≠ p) }) } }

/-- SERIAL_CS_RISE (R134, R135): in the wait phase the read is abandoned; after the ready marker it has taken effect, and
the word is lost. -/
def execSerialCsRise (p : HostPort) (ph : SerialPhase) (s : State) : Host.Outcome State Fault Refusal :=
  if !s.serialOpen p then .next s.finish
  else
    let done := fun (s : State) => (s.setHp p { s.hp p with serial := .none }).finish
    match (s.hp p).serial, ph with
    | .read _, .wait => .next (done (s.dropWaiting p))
    | .read a, .ready =>
      let r := s.hostRead (.here p) (BitVec.ofNat 24 a)
      .next (done (r.1.bumpSat Reg.HP_COUNTS_ABORTED_RD p.ix 0))
    | _, _ => .next (done s)

/-! ### Boot flash through the hub (R172 to R174) -/

/-- FLASH_READ (R173, R174): a write of the port's own FLASH_CMD.OP = 1. -/
def execFlashRead (p : HostPort) (s : State) : Host.Outcome State Fault Refusal :=
  .next (s.poke p (0x3108 + 0x1000 * p.ix) (1)).finish

/-- FLASH_PROGRAM (R173, R174): a write of the port's own FLASH_CMD.OP = 2. -/
def execFlashProgram (p : HostPort) (s : State) : Host.Outcome State Fault Refusal :=
  .next (s.poke p (0x3108 + 0x1000 * p.ix) (2)).finish

/-- FLASH_ERASE4K (R173, R174): a write of the port's own FLASH_CMD.OP = 3. -/
def execFlashErase4k (p : HostPort) (s : State) : Host.Outcome State Fault Refusal :=
  .next (s.poke p (0x3108 + 0x1000 * p.ix) (3)).finish

/-- FLASH_ERASE64K (R173, R174): a write of the port's own FLASH_CMD.OP = 4. -/
def execFlashErase64k (p : HostPort) (s : State) : Host.Outcome State Fault Refusal :=
  .next (s.poke p (0x3108 + 0x1000 * p.ix) (4)).finish

/-- The 256 bytes that a READ takes from the flash. What it gives beyond the end of the flash is not stated: free values. -/
def State.flashPage (s : State) (a : Nat) : List Byte :=
  memRds Config.flashBlank s.flash a (min 256 (Config.flashBytes - a)) ++ s.freeBytes (256 - min 256 (Config.flashBytes - a))

/-- What a flash operation leaves when it ends (R173). Where the flash reports a failure, what a program or an erase has
left is not given: free values; a failed read leaves FLASH_BUF. -/
def State.flashEffect (s : State) (p : HostPort) (op : Nat) (ok : Bool) : State :=
  let a := (s.hp p).flashAddr
  let size := if op = 3 then 0x1000 else if op = 4 then 0x10000 else 0x100
  let store := fun (s : State) (bs : List Byte) => { s with flash := memWrs Config.flashBlank s.flash a bs }
  if op = 1 then
    if ok then
      let bs := s.flashPage a
      let s := { s with free := s.free + (256 - min 256 (Config.flashBytes - a)) }
      (List.range 64).foldl (fun s i => s.setFld Reg.HP_FLASH_BUF_DATA p.ix i (leWord (bs.drop (4 * i))).toNat) s
    else s
  else if !ok then
    let bs := s.freeBytes size
    store { s with free := s.free + size } bs
  else if op = 2 then store s (wordsBytes (s.hp p).flashBuf)
  else { s with flash := s.flash.filter fun e => decide (e.1 < a ∨ a + size ≤ e.1) }

/-- The flash operation of a port ends with an ERR code (R172, R174, R175). -/
def State.flashEnds (s : State) (p : HostPort) (err : Nat) : State :=
  let op := (s.hp p).flashOp
  if !s.flag Reg.HP_FLASH_STATUS_BUSY p.ix then s
  else
    let s := (s.flashEffect p op (decide (err = 0))).setFlag Reg.HP_FLASH_STATUS_BUSY p.ix 0 false
    let s := (s.setFld Reg.HP_FLASH_STATUS_ERR p.ix 0 err).setFlag Reg.HP_FLASH_STATUS_DONE p.ix 0 true
    s.setHp p { s.hp p with flashOp := 0, flashAddr := 0, flashBuf := [] }

/-- FLASH_OPERATION_DONE (R172, R173). -/
def execFlashOperationDone (p : HostPort) (o : FlashOutcome) (s : State) : Host.Outcome State Fault Refusal :=
  .next (s.flashEnds p (match o with
    | .ok => 0
    | .spi => 5)).finish

/-- FLASH_TIMEOUT (R174): the flash is still busy 4 s into an operation. -/
def execFlashTimeout (p : HostPort) (s : State) : Host.Outcome State Fault Refusal := .next (s.flashEnds p 4).finish

/-! ### Sensor front end, converters, calibration and time -/

/-- EXC_CLR_FAULT (R206). -/
def execExcClrFault (p : HostPort) (bank : Fin 16) (s : State) : Host.Outcome State Fault Refusal :=
  .next (s.poke p (0x20004 + 0x1000 * bank.val) (0x100)).finish

/-- TEDS_SCAN (R214). -/
def execTedsScan (p : HostPort) (bank : Fin 16) (s : State) : Host.Outcome State Fault Refusal :=
  .next (s.poke p (0x20004 + 0x1000 * bank.val) (0x200)).finish

/-- TEDS_READ (R217). -/
def execTedsRead (p : HostPort) (bank : Fin 16) (s : State) : Host.Outcome State Fault Refusal :=
  .next (s.poke p (0x20004 + 0x1000 * bank.val) (0x400)).finish

/-- UNPARK (R250). -/
def execUnpark (p : HostPort) (bank : Fin 16) (s : State) : Host.Outcome State Fault Refusal :=
  .next (s.poke p (0x30004 + 0x1000 * bank.val) (0x100)).finish

/-- STORE (R256). -/
def execStore (p : HostPort) (s : State) : Host.Outcome State Fault Refusal :=
  .next (s.poke p (0xD0004) (0x100)).finish

/-- PT_WRITE (R262). -/
def execPtWrite (p : HostPort) (s : State) : Host.Outcome State Fault Refusal :=
  .next (s.poke p (0xD0004) (0x200)).finish

/-- PT_READ (R262). -/
def execPtRead (p : HostPort) (s : State) : Host.Outcome State Fault Refusal :=
  .next (s.poke p (0xD0004) (0x400)).finish

/-- SNAP (R267). -/
def execSnap (p : HostPort) (s : State) : Host.Outcome State Fault Refusal :=
  .next (s.poke p (0x10004) (0x100)).finish

/-- ACCEPT_N (R294). -/
def execAcceptN (p : HostPort) (s : State) : Host.Outcome State Fault Refusal :=
  .next (s.poke p (0x10004) (0x200)).finish

/-- ACCEPT_S (R294). -/
def execAcceptS (p : HostPort) (s : State) : Host.Outcome State Fault Refusal :=
  .next (s.poke p (0x10004) (0x400)).finish

/-- ACCEPT_M (R294). -/
def execAcceptM (p : HostPort) (s : State) : Host.Outcome State Fault Refusal :=
  .next (s.poke p (0x10004) (0x800)).finish

/-! ### Rods, beads and filter groups -/

/-- ROD_LOAD (R316): a write of ABC.CTRL with its LOAD bits. -/
def execRodLoad (p : HostPort) (w : Word) (s : State) : Host.Outcome State Fault Refusal :=
  .next (s.poke p (0x11004) (w.toNat / 0x200 % 0x80 * 0x200)).finish

/-- BEAD_ENABLE (R333): a write of word 1 with EN = 1. -/
def execBeadEnable (p : HostPort) (bead : Fin 1024) (w : Word) (s : State) : Host.Outcome State Fault Refusal :=
  .next (s.poke p (beadAddr bead.val 1) (w.toNat % 0x80000000 + 0x80000000)).finish

/-- BEAD_DISABLE (R332): a write of word 1 with EN = 0. -/
def execBeadDisable (p : HostPort) (bead : Fin 1024) (w : Word) (s : State) : Host.Outcome State Fault Refusal :=
  .next (s.poke p (beadAddr bead.val 1) (w.toNat % 0x80000000)).finish

/-- BEAD_WORD_WRITE (R332, R334). -/
def execBeadWordWrite (p : HostPort) (bead : Fin 1024) (word : Fin 4) (w : Word) (s : State) : Host.Outcome State Fault Refusal :=
  .next (s.poke p (beadAddr bead.val word.val) (w.toNat)).finish

/-- SYNC_NOW (R367). -/
def execSyncNow (p : HostPort) (g : Fin 16) (s : State) : Host.Outcome State Fault Refusal :=
  .next (s.poke p (0x40004 + 0x1000 * g.val) (0x100)).finish

/-- XF_CANCEL (R365). -/
def execXfCancel (p : HostPort) (g : Fin 16) (s : State) : Host.Outcome State Fault Refusal :=
  .next (s.poke p (0x40004 + 0x1000 * g.val) (0x200)).finish

/-- LOAD_DEFAULT (R359): a write of FLT.CTRL with LOAD_DEFAULT = 1 and DEF_BANK of the word. -/
def execLoadDefault (p : HostPort) (g : Fin 16) (w : Word) (s : State) : Host.Outcome State Fault Refusal :=
  .next (s.poke p (0x40004 + 0x1000 * g.val) (0x400 + w.toNat / 0x800 % 4 * 0x800)).finish

/-- COEF_RAM_WRITE (R358). -/
def execCoefRamWrite (p : HostPort) (g : Fin 16) (i : BitVec 14) (w : Word) (s : State) : Host.Outcome State Fault Refusal :=
  .next (s.poke p (0x100000 + 0x10000 * g.val + 4 * i.toNat) (w.toNat)).finish

/-- BANK_SHAPE_WRITE (R358, R380). -/
def execBankShapeWrite (p : HostPort) (g : Fin 16) (bank : Fin 3) (w : Word) (s : State) : Host.Outcome State Fault Refusal :=
  .next (s.poke p (0x40120 + 0x1000 * g.val + 4 * bank.val) (w.toNat)).finish

/-! ### Tally and captures -/

/-- RF_SNAP (R400). -/
def execRfSnap (p : HostPort) (s : State) : Host.Outcome State Fault Refusal :=
  .next (s.poke p (0x50004) (0x100)).finish

/-- RF_CLEAR (R401). -/
def execRfClear (p : HostPort) (s : State) : Host.Outcome State Fault Refusal :=
  .next (s.poke p (0x50004) (0x200)).finish

/-- PM_SNAP (R407). -/
def execPmSnap (p : HostPort) (mask : BitVec 16) (s : State) : Host.Outcome State Fault Refusal :=
  .next (s.poke p (0x50004) (0x400 + 0x10000 * mask.toNat)).finish

/-- PM_CLEAR (R407). -/
def execPmClear (p : HostPort) (mask : BitVec 16) (s : State) : Host.Outcome State Fault Refusal :=
  .next (s.poke p (0x50004) (0x800 + 0x10000 * mask.toNat)).finish

/-- ARM (R429). -/
def execArm (p : HostPort) (u : Fin 16) (s : State) : Host.Outcome State Fault Refusal :=
  .next (s.poke p (0x51004 + 0x1000 * u.val) (0x100)).finish

/-- DISARM (R429). -/
def execDisarm (p : HostPort) (u : Fin 16) (s : State) : Host.Outcome State Fault Refusal :=
  .next (s.poke p (0x51004 + 0x1000 * u.val) (0x200)).finish

/-- TRIG (R424). -/
def execTrig (p : HostPort) (u : Fin 16) (s : State) : Host.Outcome State Fault Refusal :=
  .next (s.poke p (0x51004 + 0x1000 * u.val) (0x400)).finish

/-- RELEASE (R434). -/
def execRelease (p : HostPort) (u : Fin 16) (s : State) : Host.Outcome State Fault Refusal :=
  .next (s.poke p (0x51004 + 0x1000 * u.val) (0x800)).finish

/-- START (R419). -/
def execStart (p : HostPort) (u : Fin 16) (s : State) : Host.Outcome State Fault Refusal :=
  .next (s.poke p (0x51004 + 0x1000 * u.val) (0x1000)).finish

/-- STOP (R419). -/
def execStop (p : HostPort) (u : Fin 16) (s : State) : Host.Outcome State Fault Refusal :=
  .next (s.poke p (0x51004 + 0x1000 * u.val) (0x2000)).finish

/-- REWIND (R441, R442). -/
def execRewind (p : HostPort) (u : Fin 16) (s : State) : Host.Outcome State Fault Refusal :=
  .next (s.poke p (0x51004 + 0x1000 * u.val) (0x4000)).finish

/-- MARK_HERE (R441). -/
def execMarkHere (p : HostPort) (u : Fin 16) (s : State) : Host.Outcome State Fault Refusal :=
  .next (s.poke p (0x51004 + 0x1000 * u.val) (0x8000)).finish

/-- MARK_WRITE (R441): a write of MARK_LO. -/
def execMarkWrite (p : HostPort) (u : Fin 16) (w : Word) (s : State) : Host.Outcome State Fault Refusal :=
  .next (s.poke p (0x51160 + 0x1000 * u.val) (w.toNat)).finish

/-- RD_DATA_READ (R440, R442). -/
def execRdDataRead (p : HostPort) (u : Fin 16) (s : State) : Host.Outcome State Fault Refusal :=
  .next (s.readWord p (0x51170 + 0x1000 * u.val)).finish

/-! ### Compression and Carry -/

/-- GO (R481). -/
def execGo (p : HostPort) (e : Fin 4) (s : State) : Host.Outcome State Fault Refusal :=
  .next (s.poke p (0x61004 + 0x1000 * e.val) (0x100)).finish

/-- CANCEL (R474). -/
def execCancel (p : HostPort) (e : Fin 4) (s : State) : Host.Outcome State Fault Refusal :=
  .next (s.poke p (0x61004 + 0x1000 * e.val) (0x200)).finish

/-- FLUSH (R472). -/
def execFlush (p : HostPort) (e : Fin 4) (s : State) : Host.Outcome State Fault Refusal :=
  .next (s.poke p (0x61004 + 0x1000 * e.val) (0x400)).finish

/-- CLOSE_ALL (R490). -/
def execCloseAll (p : HostPort) (s : State) : Host.Outcome State Fault Refusal :=
  .next (s.poke p (0x70004) (0x100)).finish

/-- HOST_ACK (R496): a write of HOST_ACK_HI, which acts with the LO and SRC written before. -/
def execHostAck (p : HostPort) (w : Word) (s : State) : Host.Outcome State Fault Refusal :=
  .next (s.poke p (0x70124) (w.toNat)).finish

/-- HOST_REPLAY (R497): a write of HOST_REPLAY_HI. -/
def execHostReplay (p : HostPort) (w : Word) (s : State) : Host.Outcome State Fault Refusal :=
  .next (s.poke p (0x7012C) (w.toNat)).finish

/-- QPOP (R512, R513): a read of QPOPq; `flips` are the bits of the word, with the parity bit as bit 32, that have changed
in the memory. -/
def execQpop (p : HostPort) (q : Fin 16) (flips : BitVec 33) (s : State) : Host.Outcome State Fault Refusal :=
  let s := s.setHp p { s.hp p with lastRead := [] }
  if s.mayRead (.here p) (0x70400 + 4 * q.val) then
    let r := s.pop p q.val flips
    .next (match r.2 with
      | some w => r.1.deliver p w
      | none => r.1).finish
  else .next (s.deliver p 0).finish

/-! ### Memory and network -/

/-- SCRUB_NOW (R530). -/
def execScrubNow (p : HostPort) (s : State) : Host.Outcome State Fault Refusal :=
  .next (s.poke p (0x80004) (0x100)).finish

/-- RA_GO (R574). -/
def execRaGo (p : HostPort) (s : State) : Host.Outcome State Fault Refusal :=
  .next (s.poke p (0x90004) (0x200)).finish

/-- JT_WRITE (R580, R582). -/
def execJtWrite (p : HostPort) (s : State) : Host.Outcome State Fault Refusal :=
  .next (s.poke p (0x90004) (0x400)).finish

/-- JT_READ (R580). -/
def execJtRead (p : HostPort) (s : State) : Host.Outcome State Fault Refusal :=
  .next (s.poke p (0x90004) (0x800)).finish

/-- CLR (R580): the counters of a network port. -/
def execClr (p : HostPort) (np : NetPort) (s : State) : Host.Outcome State Fault Refusal :=
  .next (s.poke p (0x90004 + 0x1000 * np.ix) (0x100)).finish

/-- A hub's answer to a request of its manager (R555, R575). -/
def State.answerReq (s : State) (tag : BitVec 16) (result : Nat) (ws : List Word) : State :=
  s.toManager 0x21 4 (RegRespMsg.body ⟨tag, BitVec.ofNat 16 result, ws⟩)

/-- A read of the manager goes on with `n` words after those it has (R575): it is answered once it is whole, and waits
where a pop has to wait (R513). -/
def State.farBurst (p : HostPort) (mgr tag n : Nat) (got : List Word) (s : State) (a : BitVec 24) : State :=
  let r := State.burstRead (.far p) n s a
  let ws := got ++ r.2.words
  match r.2.stop with
  | some (q, left) =>
    let next := a + BitVec.ofNat 24 (4 * r.2.words.length) + 4
    r.1.waitPop q ⟨p, .far mgr tag next.toNat left ws⟩
  | none =>
    let s := { r.1 with net := { r.1.net with done := r.1.net.done.put mgr (tag, 0, ws) } }
    s.answerReq (BitVec.ofNat 16 tag) 0 ws

/-- A read of this TAG of the manager waits at a queue. -/
def State.farWaits (s : State) (mgr tag : Nat) : Bool :=
  s.cry.queues.any fun e => e.2.waiting.any fun x => match x.rest with
    | .far m t _ _ _ => decide (m = mgr ∧ t = tag)
    | _ => false

/-- A REG_REQ for this hub (R575): executed through the port it names, once for each TAG, and answered. -/
def State.takeReq (s : State) (h : Hdr) (m : RegReqMsg) : State :=
  let mgr := h.src.toNat
  let p : HostPort := if m.portB then .B else .A
  if !h.srcv || !s.flag Reg.NET_MGR_VALID || decide (mgr ≠ s.fld Reg.NET_MGR_ADDR) || s.farWaits mgr m.tag.toNat then s
  else
    let fresh : State := if !s.bound p then s.answerReq m.tag 2 []
      else if m.write then
        let s := (s.burstWrite (.far p) m.addr (m.data.take (m.count.val + 1))).settleLoad
        { s with net := { s.net with done := s.net.done.put mgr (m.tag.toNat, 0, []) } }.answerReq m.tag 0 []
      else State.farBurst p mgr m.tag.toNat (m.count.val + 1) [] s m.addr
    match s.net.done.look mgr with
    | some (tag, result, ws) => if tag = m.tag.toNat then s.answerReq m.tag result ws else fresh
    | none => fresh

/-- A pop that has waited has its word: the word goes to its port, and what it is part of goes on (R133, R513). -/
def State.resume (s : State) (x : PopWait) (w : Word) : State :=
  match x.rest with
  | .single => s.deliver x.port w
  | .serial next left =>
    let s := (s.deliver x.port w).put (.serial x.port (serialBytes [w]))
    State.serialBurst x.port left s (BitVec.ofNat 24 next)
  | .far mgr tag next left got => State.farBurst x.port mgr tag left (got ++ [w]) s (BitVec.ofNat 24 next)

/-- Give the waiting pops of a queue the words that have come, in their order (R513). -/
def State.serveWaiting (q : Nat) : Nat → State → State
  | 0, s => s
  | n + 1, s =>
    let v := s.queue q
    match v.waiting, v.words with
    | x :: rest, _ :: _ =>
      let r := (s.setQueue q { v with waiting := rest }).takeWord q 0
      serveWaiting q n (r.1.resume x r.2)
    | _, _ => s

/-- QUEUE_PUSH (R511): Carry pushes a block that a queue has room for; `flips` are the bits that change in the memory,
word by word. -/
def execQueuePush (x : QueuePut) (s : State) : Host.Outcome State Fault Refusal :=
  let q := x.queue.val
  let s := s.queuePush q x.flips
  .next (State.serveWaiting q (s.queue q).waiting.length s).finish

/-- QUEUE_POP_STALL (R513): the oldest pop that waits at a block boundary returns the idle item. -/
def execQueuePopStall (q : Fin 16) (s : State) : Host.Outcome State Fault Refusal :=
  let v := s.queue q.val
  match v.waiting with
  | x :: rest => .next (if v.left = 0 then (s.setQueue q.val { v with waiting := rest }).resume x 0 else s).finish
  | [] => .next s.finish

/-- REG_REQ (R575). -/
def execRegReq (np : NetPort) (h : Hdr) (m : RegReqMsg) (s : State) : Host.Outcome State Fault Refusal :=
  .next (s.arrive np 0x20 4 h m.body none fun s => s.takeReq h m).finish

/-! ### Sorrel twin -/

/-- YIELD (R610): a write of TWN.CTRL.YIELD = 1. -/
def execYield (p : HostPort) (s : State) : Host.Outcome State Fault Refusal :=
  .next (s.poke p (0xA0004) (0x100)).finish

/-- REJOIN_TWIN (R585). -/
def execRejoinTwin (p : HostPort) (s : State) : Host.Outcome State Fault Refusal :=
  .next (s.poke p (0xA0004) (0x200)).finish

/-- SELFCHECK (R620). -/
def execSelfcheck (p : HostPort) (s : State) : Host.Outcome State Fault Refusal :=
  .next (s.poke p (0xA0004) (0x400)).finish

/-- MGR_CMD_GRANT (R607): a write of TWN.MGR_CMD, from the manager where the port is bound. -/
def execMgrCmdGrant (p : HostPort) (addr : BitVec 16) (s : State) : Host.Outcome State Fault Refusal :=
  .next (s.managerPoke p 1 addr).finish

/-- MGR_CMD_CONFIRM (R607): a write of TWN.MGR_CMD, from the manager where the port is bound. -/
def execMgrCmdConfirm (p : HostPort) (addr : BitVec 16) (s : State) : Host.Outcome State Fault Refusal :=
  .next (s.managerPoke p 2 addr).finish

/-- MGR_CMD_YIELD (R607): a write of TWN.MGR_CMD, from the manager where the port is bound. -/
def execMgrCmdYield (p : HostPort) (addr : BitVec 16) (s : State) : Host.Outcome State Fault Refusal :=
  .next (s.managerPoke p 3 addr).finish

/-! ### Control loops -/

/-- AUTO (R635). -/
def execAuto (p : HostPort) (n : Fin 16) (s : State) : Host.Outcome State Fault Refusal :=
  .next (s.poke p (0xB0004 + 0x1000 * n.val) (0x100)).finish

/-- MANUAL (R637). -/
def execManual (p : HostPort) (n : Fin 16) (s : State) : Host.Outcome State Fault Refusal :=
  .next (s.poke p (0xB0004 + 0x1000 * n.val) (0x200)).finish

/-- CTL_CLR_FAULT (R643). -/
def execCtlClrFault (p : HostPort) (n : Fin 16) (s : State) : Host.Outcome State Fault Refusal :=
  .next (s.poke p (0xB0004 + 0x1000 * n.val) (0x400)).finish

/-- SP_WRITE (R634). -/
def execSpWrite (p : HostPort) (n : Fin 16) (w : Word) (s : State) : Host.Outcome State Fault Refusal :=
  .next (s.poke p (0xB0108 + 0x1000 * n.val) (w.toNat)).finish

/-- MAN_OUT_WRITE (R634). -/
def execManOutWrite (p : HostPort) (n : Fin 16) (w : Word) (s : State) : Host.Outcome State Fault Refusal :=
  .next (s.poke p (0xB0128 + 0x1000 * n.val) (w.toNat)).finish

/-! ### Marker drive and self-tests -/

/-- FLIP (R660). -/
def execFlip (p : HostPort) (s : State) : Host.Outcome State Fault Refusal :=
  .next (s.poke p (0xC0004) (0x100)).finish

/-- DIAG_NOW (R667, R672). -/
def execDiagNow (p : HostPort) (s : State) : Host.Outcome State Fault Refusal :=
  .next (s.poke p (0xC0004) (0x200)).finish

/-- FRAME_MEMORY_WRITE (R659). -/
def execFrameMemoryWrite (p : HostPort) (i : Fin 2048) (w : Word) (s : State) : Host.Outcome State Fault Refusal :=
  .next (s.poke p (0xC8000 + 4 * i.val) (w.toNat)).finish

/-- MRK_CLR_FAULT (R666). -/
def execMrkClrFault (p : HostPort) (s : State) : Host.Outcome State Fault Refusal :=
  .next (s.poke p (0xC0004) (0x400)).finish

/-- BIST_QUEUE_SRAM (R688): a write of BIST_SEL with TARGET 1, then of CTRL.BIST_GO = 1. -/
def execBistQueueSram (p : HostPort) (s : State) : Host.Outcome State Fault Refusal :=
  .next (s.bist p 1 0).finish

/-- BIST_COEFFICIENT_RAM (R688): a write of BIST_SEL with TARGET 2, then of CTRL.BIST_GO = 1. -/
def execBistCoefficientRam (p : HostPort) (g : Fin 16) (s : State) : Host.Outcome State Fault Refusal :=
  .next (s.bist p 2 g.val).finish

/-- BIST_BEAD_TABLE (R688): a write of BIST_SEL with TARGET 3, then of CTRL.BIST_GO = 1. -/
def execBistBeadTable (p : HostPort) (s : State) : Host.Outcome State Fault Refusal :=
  .next (s.bist p 3 0).finish

/-- BIST_FRAME_MEMORY (R688): a write of BIST_SEL with TARGET 4, then of CTRL.BIST_GO = 1. -/
def execBistFrameMemory (p : HostPort) (s : State) : Host.Outcome State Fault Refusal :=
  .next (s.bist p 4 0).finish

/-- BIST_CONVERTER_REFERENCES (R688): a write of BIST_SEL with TARGET 5, then of CTRL.BIST_GO = 1. -/
def execBistConverterReferences (p : HostPort) (s : State) : Host.Outcome State Fault Refusal :=
  .next (s.bist p 5 0).finish

end Sys2Proof.Machine
end

