-- ==== Sys2Proof/Machine/Dispatch.lean ====
section
/-!
DEFINITION. The meaning of each command: one direct call for each row of spec/opcode_table.json.
-/
namespace Sys2Proof.Machine

/-- The effect of a command on everything but the queue. -/
def exec (i : Instr) (s : State) : Host.Outcome State Fault Refusal :=
  match i with
  | .powerOnReset c => Sys2Proof.Machine.execPowerOnReset c s
  | .vddioModeChoice bank mv => Sys2Proof.Machine.execVddioModeChoice bank mv s
  | .pinReset ns => Sys2Proof.Machine.execPinReset ns s
  | .refclkLoss ns => Sys2Proof.Machine.execRefclkLoss ns s
  | .thermalReset t8 => Sys2Proof.Machine.execThermalReset t8 s
  | .thermWarn t8 => Sys2Proof.Machine.execThermWarn t8 s
  | .softwareReset p w => Sys2Proof.Machine.execSoftwareReset p w s
  | .watchdogReset ms => Sys2Proof.Machine.execWatchdogReset ms s
  | .resetRelease straps => Sys2Proof.Machine.execResetRelease straps s
  | .dramTraining r => Sys2Proof.Machine.execDramTraining r s
  | .imageTry img jedec reads => Sys2Proof.Machine.execImageTry img jedec reads s
  | .backoffWaitEnd => Sys2Proof.Machine.execBackoffWaitEnd s
  | .claim p => Sys2Proof.Machine.execClaim p s
  | .claimRelease p => Sys2Proof.Machine.execClaimRelease p s
  | .load p => Sys2Proof.Machine.execLoad p s
  | .sysAddrWrite p w => Sys2Proof.Machine.execSysAddrWrite p w s
  | .announceTimer => Sys2Proof.Machine.execAnnounceTimer s
  | .grant np h g => Sys2Proof.Machine.execGrant np h g s
  | .registerWrite p a w be => Sys2Proof.Machine.execRegisterWrite p a w be s
  | .pageCommit p page => Sys2Proof.Machine.execPageCommit p page s
  | .globalCommit p => Sys2Proof.Machine.execGlobalCommit p s
  | .commitChecksEnd => Sys2Proof.Machine.execCommitChecksEnd s
  | .discard p page => Sys2Proof.Machine.execDiscard p page s
  | .eventForce p page w => Sys2Proof.Machine.execEventForce p page w s
  | .eventClear p page w => Sys2Proof.Machine.execEventClear p page w s
  | .eventNoticeRepeat p => Sys2Proof.Machine.execEventNoticeRepeat p s
  | .semClaim p n tag => Sys2Proof.Machine.execSemClaim p n tag s
  | .semRelease p n => Sys2Proof.Machine.execSemRelease p n s
  | .semTagWrite p n tag => Sys2Proof.Machine.execSemTagWrite p n tag s
  | .semForce p w => Sys2Proof.Machine.execSemForce p w s
  | .netbind p bind => Sys2Proof.Machine.execNetbind p bind s
  | .portReset p => Sys2Proof.Machine.execPortReset p s
  | .pcieLinkTrained p speed width msixEnable functionMask => Sys2Proof.Machine.execPcieLinkTrained p speed width msixEnable functionMask s
  | .serialRead p a n => Sys2Proof.Machine.execSerialRead p a n s
  | .serialWrite p a ws => Sys2Proof.Machine.execSerialWrite p a ws s
  | .serialBadCommand p cmd => Sys2Proof.Machine.execSerialBadCommand p cmd s
  | .serialCsRise p ph => Sys2Proof.Machine.execSerialCsRise p ph s
  | .apertureRead p a n errs => Sys2Proof.Machine.execApertureRead p a n errs s
  | .apertureWrite p a bs errs => Sys2Proof.Machine.execApertureWrite p a bs errs s
  | .flashRead p => Sys2Proof.Machine.execFlashRead p s
  | .flashProgram p => Sys2Proof.Machine.execFlashProgram p s
  | .flashErase4k p => Sys2Proof.Machine.execFlashErase4k p s
  | .flashErase64k p => Sys2Proof.Machine.execFlashErase64k p s
  | .flashOperationDone p o => Sys2Proof.Machine.execFlashOperationDone p o s
  | .flashTimeout p => Sys2Proof.Machine.execFlashTimeout p s
  | .baseRateInstant e => Sys2Proof.Machine.execBaseRateInstant e s
  | .presenceMeasurement bank uv => Sys2Proof.Machine.execPresenceMeasurement bank uv s
  | .presenceLoss bank => Sys2Proof.Machine.execPresenceLoss bank s
  | .presenceRegain bank => Sys2Proof.Machine.execPresenceRegain bank s
  | .breakDeclared bank pins => Sys2Proof.Machine.execBreakDeclared bank pins s
  | .wholeDeclared bank pins => Sys2Proof.Machine.execWholeDeclared bank pins s
  | .excLimitStart bank => Sys2Proof.Machine.execExcLimitStart bank s
  | .excFaultLimit bank => Sys2Proof.Machine.execExcFaultLimit bank s
  | .excFaultSat bank => Sys2Proof.Machine.execExcFaultSat bank s
  | .excClrFault p bank => Sys2Proof.Machine.execExcClrFault p bank s
  | .excRampEnd bank => Sys2Proof.Machine.execExcRampEnd bank s
  | .excBbmEnd bank => Sys2Proof.Machine.execExcBbmEnd bank s
  | .tedsScan p bank => Sys2Proof.Machine.execTedsScan p bank s
  | .tedsScanPeriod bank => Sys2Proof.Machine.execTedsScanPeriod bank s
  | .tedsScanDone bank ids crcs => Sys2Proof.Machine.execTedsScanDone bank ids crcs s
  | .tedsShort bank => Sys2Proof.Machine.execTedsShort bank s
  | .tedsRead p bank => Sys2Proof.Machine.execTedsRead p bank s
  | .tedsReadDone bank ws crc => Sys2Proof.Machine.execTedsReadDone bank ws crc s
  | .bankTemperatureRead ts => Sys2Proof.Machine.execBankTemperatureRead ts s
  | .calibrationPoint bank r => Sys2Proof.Machine.execCalibrationPoint bank r s
  | .roundBlendStart bank => Sys2Proof.Machine.execRoundBlendStart bank s
  | .roundBlendEnd bank => Sys2Proof.Machine.execRoundBlendEnd bank s
  | .unpark p bank => Sys2Proof.Machine.execUnpark p bank s
  | .store p => Sys2Proof.Machine.execStore p s
  | .journalPeriodExpiry => Sys2Proof.Machine.execJournalPeriodExpiry s
  | .journalStoreEnd e => Sys2Proof.Machine.execJournalStoreEnd e s
  | .journalSemWait => Sys2Proof.Machine.execJournalSemWait s
  | .ptWrite p => Sys2Proof.Machine.execPtWrite p s
  | .ptRead p => Sys2Proof.Machine.execPtRead p s
  | .snap p => Sys2Proof.Machine.execSnap p s
  | .ptpSync np m residence => Sys2Proof.Machine.execPtpSync np m residence s
  | .ptpFollowUp np m => Sys2Proof.Machine.execPtpFollowUp np m s
  | .ptpDelayReq np m residence => Sys2Proof.Machine.execPtpDelayReq np m residence s
  | .ptpDelayResp np m => Sys2Proof.Machine.execPtpDelayResp np m s
  | .ptpAnnounce np m => Sys2Proof.Machine.execPtpAnnounce np m s
  | .syncIntervalTimer d => Sys2Proof.Machine.execSyncIntervalTimer d s
  | .timeEvaluation e => Sys2Proof.Machine.execTimeEvaluation e s
  | .acceptN p => Sys2Proof.Machine.execAcceptN p s
  | .acceptS p => Sys2Proof.Machine.execAcceptS p s
  | .acceptM p => Sys2Proof.Machine.execAcceptM p s
  | .inputEdge idx level t => Sys2Proof.Machine.execInputEdge idx level t s
  | .inputStuck idx => Sys2Proof.Machine.execInputStuck idx s
  | .mainsCrossing t => Sys2Proof.Machine.execMainsCrossing t s
  | .rodUpdate np h m => Sys2Proof.Machine.execRodUpdate np h m s
  | .rodBroadcastTimer => Sys2Proof.Machine.execRodBroadcastTimer s
  | .rodFreshnessChange rod => Sys2Proof.Machine.execRodFreshnessChange rod s
  | .rodLoad p w => Sys2Proof.Machine.execRodLoad p w s
  | .beadEnable p bead w => Sys2Proof.Machine.execBeadEnable p bead w s
  | .beadDisable p bead w => Sys2Proof.Machine.execBeadDisable p bead w s
  | .beadWordWrite p bead word w => Sys2Proof.Machine.execBeadWordWrite p bead word w s
  | .syncNow p g => Sys2Proof.Machine.execSyncNow p g s
  | .syncEdge t => Sys2Proof.Machine.execSyncEdge t s
  | .xfCancel p g => Sys2Proof.Machine.execXfCancel p g s
  | .loadDefault p g w => Sys2Proof.Machine.execLoadDefault p g w s
  | .coefRamWrite p g idx w => Sys2Proof.Machine.execCoefRamWrite p g idx w s
  | .bankShapeWrite p g bank w => Sys2Proof.Machine.execBankShapeWrite p g bank w s
  | .fadeEnd g => Sys2Proof.Machine.execFadeEnd g s
  | .windowRecord set => Sys2Proof.Machine.execWindowRecord set s
  | .rfSnap p => Sys2Proof.Machine.execRfSnap p s
  | .rfClear p => Sys2Proof.Machine.execRfClear p s
  | .pmSnap p mask => Sys2Proof.Machine.execPmSnap p mask s
  | .pmClear p mask => Sys2Proof.Machine.execPmClear p mask s
  | .ringResume u => Sys2Proof.Machine.execRingResume u s
  | .arm p u => Sys2Proof.Machine.execArm p u s
  | .disarm p u => Sys2Proof.Machine.execDisarm p u s
  | .trig p u => Sys2Proof.Machine.execTrig p u s
  | .release p u => Sys2Proof.Machine.execRelease p u s
  | .start p u => Sys2Proof.Machine.execStart p u s
  | .stop p u => Sys2Proof.Machine.execStop p u s
  | .rewind p u => Sys2Proof.Machine.execRewind p u s
  | .markHere p u => Sys2Proof.Machine.execMarkHere p u s
  | .markWrite p u w => Sys2Proof.Machine.execMarkWrite p u w s
  | .rdDataRead p u => Sys2Proof.Machine.execRdDataRead p u s
  | .trigger np h m => Sys2Proof.Machine.execTrigger np h m s
  | .go p e => Sys2Proof.Machine.execGo p e s
  | .cancel p e => Sys2Proof.Machine.execCancel p e s
  | .flush p e => Sys2Proof.Machine.execFlush p e s
  | .jobStart e => Sys2Proof.Machine.execJobStart e s
  | .jobEnd e f => Sys2Proof.Machine.execJobEnd e f s
  | .heldJobRetry e => Sys2Proof.Machine.execHeldJobRetry e s
  | .blockClose st => Sys2Proof.Machine.execBlockClose st s
  | .blockAgeExpiry st => Sys2Proof.Machine.execBlockAgeExpiry st s
  | .closeAll p => Sys2Proof.Machine.execCloseAll p s
  | .outageOver st => Sys2Proof.Machine.execOutageOver st s
  | .blockSend st => Sys2Proof.Machine.execBlockSend st s
  | .ack np h es => Sys2Proof.Machine.execAck np h es s
  | .ackTimeout st => Sys2Proof.Machine.execAckTimeout st s
  | .hostAck p w => Sys2Proof.Machine.execHostAck p w s
  | .hostReplay p w => Sys2Proof.Machine.execHostReplay p w s
  | .block np h m => Sys2Proof.Machine.execBlock np h m s
  | .queuePush x => Sys2Proof.Machine.execQueuePush x s
  | .qpop p q flips => Sys2Proof.Machine.execQpop p q flips s
  | .queuePopStall q => Sys2Proof.Machine.execQueuePopStall q s
  | .scrubNow p => Sys2Proof.Machine.execScrubNow p s
  | .scrubRead errs => Sys2Proof.Machine.execScrubRead errs s
  | .mr4Poll m0 m1 => Sys2Proof.Machine.execMr4Poll m0 m1 s
  | .dqsTracking => Sys2Proof.Machine.execDqsTracking s
  | .linkDown np c => Sys2Proof.Machine.execLinkDown np c s
  | .probeLoss np => Sys2Proof.Machine.execProbeLoss np s
  | .ringTurnStart np => Sys2Proof.Machine.execRingTurnStart np s
  | .linkUp np modId => Sys2Proof.Machine.execLinkUp np modId s
  | .restoreExpiry np => Sys2Proof.Machine.execRestoreExpiry np s
  | .announce np h m => Sys2Proof.Machine.execAnnounce np h m s
  | .heartbeat np h m => Sys2Proof.Machine.execHeartbeat np h m s
  | .hbReply np h m => Sys2Proof.Machine.execHbReply np h m s
  | .heartbeatTimer => Sys2Proof.Machine.execHeartbeatTimer s
  | .probeTimer => Sys2Proof.Machine.execProbeTimer s
  | .probe np t1 => Sys2Proof.Machine.execProbe np t1 s
  | .probeReply np t1 t2 t3 => Sys2Proof.Machine.execProbeReply np t1 t2 t3 s
  | .beaconTimer => Sys2Proof.Machine.execBeaconTimer s
  | .beacon np h mgr => Sys2Proof.Machine.execBeacon np h mgr s
  | .ringState np h restored failedS => Sys2Proof.Machine.execRingState np h restored failedS s
  | .memberDeparted entry => Sys2Proof.Machine.execMemberDeparted entry s
  | .managerDeparted => Sys2Proof.Machine.execManagerDeparted s
  | .raGo p => Sys2Proof.Machine.execRaGo p s
  | .raTimeout => Sys2Proof.Machine.execRaTimeout s
  | .regReq np h m => Sys2Proof.Machine.execRegReq np h m s
  | .regResp np h m => Sys2Proof.Machine.execRegResp np h m s
  | .eventNotice np h portB pend => Sys2Proof.Machine.execEventNotice np h portB pend s
  | .jtWrite p => Sys2Proof.Machine.execJtWrite p s
  | .jtRead p => Sys2Proof.Machine.execJtRead p s
  | .clr p np => Sys2Proof.Machine.execClr p np s
  | .twSample m => Sys2Proof.Machine.execTwSample m s
  | .twEvent k es => Sys2Proof.Machine.execTwEvent k es s
  | .twCheck es => Sys2Proof.Machine.execTwCheck es s
  | .twVerdict es => Sys2Proof.Machine.execTwVerdict es s
  | .twRole m => Sys2Proof.Machine.execTwRole m s
  | .twCopy phase off bs => Sys2Proof.Machine.execTwCopy phase off bs s
  | .verdictMissing => Sys2Proof.Machine.execVerdictMissing s
  | .xchkWindowEnd ch => Sys2Proof.Machine.execXchkWindowEnd ch s
  | .selfcheckDone r => Sys2Proof.Machine.execSelfcheckDone r s
  | .selfcheckResultTimeout => Sys2Proof.Machine.execSelfcheckResultTimeout s
  | .twhbToggle => Sys2Proof.Machine.execTwhbToggle s
  | .twhbSilent silent => Sys2Proof.Machine.execTwhbSilent silent s
  | .driveMonChange level => Sys2Proof.Machine.execDriveMonChange level s
  | .yield p => Sys2Proof.Machine.execYield p s
  | .rejoinTwin p => Sys2Proof.Machine.execRejoinTwin p s
  | .selfcheck p => Sys2Proof.Machine.execSelfcheck p s
  | .mgrCmdGrant p addr => Sys2Proof.Machine.execMgrCmdGrant p addr s
  | .mgrCmdConfirm p addr => Sys2Proof.Machine.execMgrCmdConfirm p addr s
  | .mgrCmdYield p addr => Sys2Proof.Machine.execMgrCmdYield p addr s
  | .becomeActiveAtStart => Sys2Proof.Machine.execBecomeActiveAtStart s
  | .netyieldExpiry => Sys2Proof.Machine.execNetyieldExpiry s
  | .handoverInstant => Sys2Proof.Machine.execHandoverInstant s
  | .handoverBlendEnd => Sys2Proof.Machine.execHandoverBlendEnd s
  | .twSampleLoss c => Sys2Proof.Machine.execTwSampleLoss c s
  | .uncomparedBlockRelease st => Sys2Proof.Machine.execUncomparedBlockRelease st s
  | .resyncPhaseEnd c => Sys2Proof.Machine.execResyncPhaseEnd c s
  | .loopPeriodStart x => Sys2Proof.Machine.execLoopPeriodStart x s
  | .loopDeadline n => Sys2Proof.Machine.execLoopDeadline n s
  | .auto p n => Sys2Proof.Machine.execAuto p n s
  | .manual p n => Sys2Proof.Machine.execManual p n s
  | .ctlClrFault p n => Sys2Proof.Machine.execCtlClrFault p n s
  | .spWrite p n w => Sys2Proof.Machine.execSpWrite p n w s
  | .manOutWrite p n w => Sys2Proof.Machine.execManOutWrite p n w s
  | .refreshStart => Sys2Proof.Machine.execRefreshStart s
  | .latch bs => Sys2Proof.Machine.execLatch bs s
  | .flip p => Sys2Proof.Machine.execFlip p s
  | .mksyncEdge level t => Sys2Proof.Machine.execMksyncEdge level t s
  | .diagNow p => Sys2Proof.Machine.execDiagNow p s
  | .diagPeriodExpiry => Sys2Proof.Machine.execDiagPeriodExpiry s
  | .diagDeferred => Sys2Proof.Machine.execDiagDeferred s
  | .markerFadeEnd => Sys2Proof.Machine.execMarkerFadeEnd s
  | .frameMemoryWrite p idx w => Sys2Proof.Machine.execFrameMemoryWrite p idx w s
  | .boostCycle mv => Sys2Proof.Machine.execBoostCycle mv s
  | .boostTrip mv => Sys2Proof.Machine.execBoostTrip mv s
  | .mrkClrFault p => Sys2Proof.Machine.execMrkClrFault p s
  | .testenChange level => Sys2Proof.Machine.execTestenChange level s
  | .testLogicReset => Sys2Proof.Machine.execTestLogicReset s
  | .idcode => Sys2Proof.Machine.execIdcode s
  | .samplePreload cells => Sys2Proof.Machine.execSamplePreload cells s
  | .extest cells => Sys2Proof.Machine.execExtest cells s
  | .clamp => Sys2Proof.Machine.execClamp s
  | .highz => Sys2Proof.Machine.execHighz s
  | .bypass code => Sys2Proof.Machine.execBypass code s
  | .bistQueueSram p => Sys2Proof.Machine.execBistQueueSram p s
  | .bistCoefficientRam p g => Sys2Proof.Machine.execBistCoefficientRam p g s
  | .bistBeadTable p => Sys2Proof.Machine.execBistBeadTable p s
  | .bistFrameMemory p => Sys2Proof.Machine.execBistFrameMemory p s
  | .bistConverterReferences p => Sys2Proof.Machine.execBistConverterReferences p s
  | .bistEnd e devs => Sys2Proof.Machine.execBistEnd e devs s
  | .resetSourceEnd src => Sys2Proof.Machine.execResetSourceEnd src s
  | .perstRelease p => Sys2Proof.Machine.execPerstRelease p s
  | .hopCountExpiry np => Sys2Proof.Machine.execHopCountExpiry np s
  | .twRoleTimer => Sys2Proof.Machine.execTwRoleTimer s
  | .ptpAnnounceTimer np => Sys2Proof.Machine.execPtpAnnounceTimer np s
  | .unadmittedFrame np b => Sys2Proof.Machine.execUnadmittedFrame np b s

end Sys2Proof.Machine
end

