-- ==== Sys2Proof/Safety.lean ====
section
/-!
DEFINITION. The terms in which claims about the hub are stated: what the last act of every command may change, the
invariant of event delivery, and when a host port's accesses reach the pages.
-/
namespace Sys2Proof.Machine

/-- The word of the TX_FRAMES counter of a network port (R581), which every frame put out counts in. -/
def txWord (a : Nat) : Prop := ∃ p : NetPort, a = Reg.NET_TX_FRAMES_FRAMES.addr p.ix 0

/-- The word that holds the OVERRATE flag of a stream (R503), which the log entries handed to a stream of source EVT can set. -/
def rateWord (a : Nat) : Prop := ∃ i : Fin 64, a = Reg.CRY_S_STATE_OVERRATE.addr 0 i.val

/-- The vectors remembered as delivered are those that are pending and unmasked now (R166), every occurrence has its log
entry (R168), and no log entry waits to be told to the twin (R593). -/
def State.Delivered (s : State) : Prop :=
  s.evt.liveA = w32 (s.live .A) ∧ s.evt.liveB = w32 (s.live .B) ∧ s.evt.raised = [] ∧ s.evt.toTwin = []

/-- `t` is `s` once the log entries of the events that occurred in it are written (`State.logged`, R168), but for what
telling others of it takes: frames and messages are appended to what has been put out, with the SEQ numbers and the TX
counters they take, and the live vectors are remembered. Every other part of the hub, and every other register, is that of
`s.logged`; where no event has occurred that is `s` itself. -/
structure Settles (s t : State) : Prop where
  only : t = { s.logged with
    regs := t.regs
    net := { s.net with seqs := t.net.seqs }
    outbox := t.outbox
    evt := { s.logged.evt with liveA := t.evt.liveA, liveB := t.evt.liveB, toTwin := [] } }
  regs : ∀ a, ¬ txWord a → regRd t.regs a = regRd s.logged.regs a
  sent : s.outbox <+: t.outbox
  delivered : t.Delivered

/-- Accesses of port `p` at its own interface reach the registers of a hub that has booted (R99, R138). -/
def State.portOpen (s : State) (p : HostPort) : Bool := s.booted && !s.bound p

/-- They also reach the lockstep pages of a Sorrel pair: the hub is not a member that takes them from its twin (R592). -/
def State.pageOpen (s : State) (p : HostPort) : Bool := s.portOpen p && !s.standsBy

/-- Page `n` of kind `k` has a register, or a word of a window, at the word address `a` (R141 to R143). -/
def pageHas (k : PageKind) (n a : Nat) : Bool :=
  decide (pageOf a = some (k, n)) && State.present k n a && !(quietOffset (a - pageBase k n) && decide (a < 0x100000)) &&
    decide (a < 0x1000000) && decide (a % 4 = 0)

/-- A read of the word at `a` shows a register and does nothing else: no window, no queue, and no word that shows something
kept elsewhere. -/
def State.plainRegister (s : State) (a : Nat) : Bool :=
  match pageOf a with
  | some (k, n) => pageHas k n a && decide (a < 0x100000) && !decide (0x18000 ≤ a ∧ a < 0x1C000) &&
      !decide (0xC8000 ≤ a ∧ a < 0xCA000) && (s.effectRead k n (a - pageBase k n)).isNone &&
      (s.viewRead k n (a - pageBase k n)).isNone
  | none => false

/-- A write of `w` at `a` is one of a plain register: in no window, in range (R146), and no work of the block's own. -/
def State.plainAt (s : State) (p : HostPort) (k : PageKind) (n a : Nat) (w : Word) : Bool :=
  decide (a < 0x100000) && !decide (0x18000 ≤ a ∧ a < 0x1C000) && !decide (0xC8000 ≤ a ∧ a < 0xCA000) &&
    !msixOffset k (a - pageBase k n) && !rodZeroWord k (a - pageBase k n) && !pbaOffset k (a - pageBase k n) &&
    !((fieldsAt a).any fun f => f.outside w) && !wordOutside k (a - pageBase k n) w &&
    (s.specialWrite (.here p) k n (a - pageBase k n) w).isNone

/-- The bits of the word at `a` that a write sets (RW fields, R11), of the events the page has (R145). -/
def settable (k : PageKind) (n a : Nat) : Word :=
  w32 (maskOfAccess (fieldsAt a) .rw &&& (0xFFFFFFFF - beyondEvents k (a - pageBase k n)))

/-- The bits of the word at `a` that a write of 1 clears (W1C fields, R11). -/
def clearable (a : Nat) : Word := w32 (maskOfAccess (fieldsAt a) .w1c)

/-- What a register holds after a write of `w` when it held `old`. -/
def writtenWord (k : PageKind) (n a : Nat) (old w : Word) : Word :=
  ((old &&& ~~~ settable k n a) ||| (w &&& settable k n a)) &&& ~~~ (clearable a &&& w)

/-- The bit of SYS.RST_CAUSE of the reset that a command brings (R89 Table 4, R92), when it brings one: 0 for POR, then
the pin, the clock, the temperature, a software reset and the watchdog. -/
def resetBit (i : Instr) (s : State) : Option Nat :=
  match i with
  | .powerOnReset .firstPower => some 0
  | .powerOnReset (.railLow r mv) => if mv < tripMv s r then some 0 else none
  | .pinReset ns => if 1000 ≤ ns then some 1 else none
  | .refclkLoss ns => if 400 ≤ ns then some 2 else none
  | .thermalReset t8 => if 960 ≤ t8 then some 3 else none
  | .softwareReset p w =>
    if s.sys.inReset = false ∧ s.bound p = false ∧ w.toNat / 0x10000 = 0x0D6E ∧ w.toNat % 2 = 1 then some 4 else none
  | .watchdogReset ms => if 100 ≤ ms ∧ s.sys.inReset = false then some 5 else none
  | _ => none

/-- The canonical form of the hub's maps: registers, shadow, DRAM, the errors of its devices, and flash. -/
def State.wf (s : State) : Bool :=
  regWf s.regs && regWf s.shadow && memWf Config.dramBlank s.dram && memWf Config.flashBlank s.flash && memWf 0 s.mem.errs

/-- Semaphore `k` freed: OWNER and TAG 0, and EV_SEM_RELEASED where NOTIFY asks for it (R159, R163). -/
def State.semFreed (s : State) (k : Nat) : State :=
  let u := (s.setFld Reg.SEM_LOCK_OWNER 0 k 0).setFld Reg.SEM_LOCK_TAG 0 k 0
  if (s.fld64 Reg.SEM_NOTIFY_LO_NOTIFY Reg.SEM_NOTIFY_HI_NOTIFY).testBit k then u.raise .SEM 0 0 else u

/-- Event `b` of page `n` of a kind stands in its EVENT register (R145, R164). -/
def State.told (s : State) (k : PageKind) (n b : Nat) : Bool := (regRd s.regs (pageBase k n + 0xC)).toNat.testBit b

/-- What a reset of port `p` (R140) leaves: EV_HPx_RESET told; every semaphore of the port free, with TAG 0 and recorded in FREED,
and the others as they were; a boot claim of the port released; its MSI-X table cleared, its event vectors masked and its log
index 0; in PCIe mode its link out of L0. No memory, no queue, no time and nothing of the other port changes. -/
structure PortResets (p : HostPort) (s t : State) : Prop where
  event : t.told .HP p.ix 1 = true
  freed : ∀ k, k < 64 → s.semOwner k = p.code → t.semOwner k = 0 ∧ t.fld Reg.SEM_LOCK_TAG 0 k = 0 ∧
    (t.fld64 Reg.SEM_FREED_LO_FREED Reg.SEM_FREED_HI_FREED).testBit k = true
  others : ∀ k, k < 64 → s.semOwner k ≠ p.code → t.semOwner k = s.semOwner k ∧
    t.fld Reg.SEM_LOCK_TAG 0 k = s.fld Reg.SEM_LOCK_TAG 0 k
  claim : s.sys.phase ≠ .booted → s.fld Reg.SYS_BOOT_STATUS_OWNER = p.code →
    t.fld Reg.SYS_BOOT_STATUS_OWNER = 0 ∧ t.sys.staging = [] ∧ t.sys.loadPending = false
  msix : ∀ v w, v < 32 → w < 4 → regRd t.regs (State.msixAddr p v w) = resetWord (State.msixAddr p v w)
  masked : t.vecMask p = 0xFFFFFFFF
  logIdx : (match p with
    | .A => t.fld Reg.EVT_LOG_IDX_A_IDX
    | .B => t.fld Reg.EVT_LOG_IDX_B_IDX) = 0
  link : s.serialMode p = false → (t.hp p).inL0 = false ∧ t.fld Reg.HP_STATUS_SPEED p.ix = 0 ∧ t.fld Reg.HP_STATUS_WIDTH p.ix = 0
  dram : t.dram = s.dram
  flash : t.flash = s.flash
  tim : t.tim = s.tim
  queues : t.cry.queues = s.cry.queues
  otherPort : ∀ q, q ≠ p → t.hp q = s.hp q ∧ t.vecMask q = s.vecMask q

/-- A flash command of port `p` can be taken (R173, R174): its accesses reach its page and no operation of it runs. -/
def State.flashFree (s : State) (p : HostPort) : Bool := s.portOpen p && !s.flag Reg.HP_FLASH_STATUS_BUSY p.ix

/-- FLASH_ADDR of port `p`. -/
def State.flashAt (s : State) (p : HostPort) : Nat := s.fld Reg.HP_FLASH_ADDR_ADDR p.ix

/-- The commands of a program and of the erases, with their OP codes and sizes (R173, Table 8 of R175). -/
def flashChange : List ((HostPort → Instr) × Nat × Nat) :=
  [(.flashProgram, 2, 0x100), (.flashErase4k, 3, 0x1000), (.flashErase64k, 4, 0x10000)]

/-- The flash operation that begins: BUSY, the command to the flash, and the address and the buffer it works on. -/
def State.flashBegun (s : State) (p : HostPort) (op : Nat) : State :=
  ((s.setHp p { s.hp p with
    flashOp := op, flashAddr := s.flashAt p
    flashBuf := (List.range 64).map fun i => w32 (s.fld Reg.HP_FLASH_BUF_DATA p.ix i) }).setFlag
      Reg.HP_FLASH_STATUS_BUSY p.ix 0 true).put (.flash op (s.flashAt p))

/-- What the end of a flash operation shows (R172, R175): DONE with an ERR code, and BUSY no longer. -/
structure FlashEnds (p : HostPort) (err : Nat) (s t : State) : Prop where
  done : t.flag Reg.HP_FLASH_STATUS_DONE p.ix = true
  busy : t.flag Reg.HP_FLASH_STATUS_BUSY p.ix = false
  err : t.fld Reg.HP_FLASH_STATUS_ERR p.ix = err
  dram : t.dram = s.dram
  tim : t.tim = s.tim
  pending : t.pending = s.pending

/-- The aperture of an unbound PCIe port of a hub that has booted reaches bytes `a` to `a + n` of the host region (R536,
R540), and no symbol of the DRAM has gone wrong. -/
def State.hostRegion (s : State) (p : HostPort) (a n : Nat) : Bool :=
  s.portOpen p && !s.serialMode p && (s.hp p).inL0 && !s.stagingOpen && decide (s.mem.errs = []) &&
    decide (s.regionOf a = 5) && decide (s.regionBase 5 ≤ a) && decide (a + n ≤ s.usableBytes)

/-- A frame of TYPE `type` that arrives on port `p` is one that the hub acts on (R554 to R556): the hub has booted, the link is
up, the frame is admitted, not its own, for it, and no broadcast that it has taken. -/
def State.takes (s : State) (p : NetPort) (type : Nat) (h : Hdr) : Bool :=
  s.booted && s.linked p && State.admits p type && !s.isOwn h && s.forUs h && !s.taken h type

/-- A frame of TYPE `type` with this body is among those put out on port `p` between `s` and `t`. -/
def Sent (s t : State) (p : NetPort) (type : Nat) (body : List Byte) : Prop :=
  ∃ f : Frame, Out.frame p f ∈ t.outbox.drop s.outbox.length ∧ f.type = type ∧ f.body = body

/-- A frame of the twin that arrives now is taken (R590): the hub is a member of a Sorrel pair, has booted, and port T is up. -/
def State.twinOpen (s : State) : Bool := s.booted && s.sys.straps.pair && s.linked .T

/-- The host command and the page whose CTRL or registers it writes, of the commands that act on their own page alone. -/
def pageCommand : Instr → Option (HostPort × PageKind × Nat)
  | .snap p | .acceptN p | .acceptS p | .acceptM p => some (p, .TIM, 0)
  | .unpark p b => some (p, .CNV, b.val)
  | .store p | .ptWrite p | .ptRead p => some (p, .CAL, 0)
  | .excClrFault p b | .tedsScan p b | .tedsRead p b => some (p, .AFE, b.val)
  | .syncNow p g | .xfCancel p g => some (p, .FLT, g.val)
  | .loadDefault p g _ => some (p, .FLT, g.val)
  | .coefRamWrite p g _ _ => some (p, .FLT, g.val)
  | .bankShapeWrite p g _ _ => some (p, .FLT, g.val)
  | .rfSnap p | .rfClear p => some (p, .TAL, 0)
  | .pmSnap p _ => some (p, .TAL, 0)
  | .arm p u | .disarm p u | .trig p u | .release p u | .start p u | .rewind p u | .markHere p u => some (p, .CAP, u.val)
  | .markWrite p u _ => some (p, .CAP, u.val)
  | .go p e | .cancel p e | .flush p e => some (p, .CMP, e.val)
  | .closeAll p => some (p, .CRY, 0)
  | .hostReplay p _ => some (p, .CRY, 0)
  | .scrubNow p => some (p, .MEM, 0)
  | .auto p n | .manual p n | .ctlClrFault p n => some (p, .CTL, n.val)
  | .spWrite p n _ | .manOutWrite p n _ => some (p, .CTL, n.val)
  | .flip p | .diagNow p | .mrkClrFault p => some (p, .MRK, 0)
  | .frameMemoryWrite p _ _ => some (p, .MRK, 0)
  | _ => none

/-- The word at `a` belongs to page `n` of kind `k`, or to the event log's page. -/
def ofPage (k : PageKind) (n a : Nat) : Prop := pageOf a = some (k, n) ∨ pageOf a = some (.EVT, 0)

/-- The commands that change the boot flash (R173, R256); the flash itself outlives every reset. -/
def writesFlash : Instr → Bool
  | .flashOperationDone .. | .flashTimeout .. | .journalStoreEnd _ => true
  | _ => false

/-- The commands that change a level on a watched ball. -/
def movesPins : Instr → Bool
  | .driveMonChange _ | .testenChange _ => true
  | _ => false

/-- The commands that can begin or end a whole-hub reset (R89, R91): the reset sources, RESET_RELEASE, and the writes that can
reach SYS.RESET (R120). -/
def mayReset : Instr → Bool
  | .powerOnReset _ | .pinReset _ | .refclkLoss _ | .thermalReset _ | .softwareReset .. | .watchdogReset _
  | .resetRelease _ | .registerWrite .. | .serialWrite .. | .regReq .. => true
  | _ => false

/-- The messages and timers of PTP. -/
def isPtp : Instr → Bool
  | .ptpSync .. | .ptpFollowUp .. | .ptpDelayReq .. | .ptpDelayResp .. | .ptpAnnounce .. | .syncIntervalTimer ..
  | .ptpAnnounceTimer _ => true
  | _ => false

end Sys2Proof.Machine
end

