-- ==== Sys2Proof/Certificates/Slice0/Obligations.lean ====
section
/-!
DEFINITION. The statements for the provers. `Settles u t` (Sys2Proof/Safety.lean) says that the hub ends in the state `u`
but for the frames and messages that tell others of it, so a conclusion `Settles u t` is both the command's result and its
frame: every register, every byte of memory and every part of the hub that `u` does not change stays as it was.
-/
open Sys2Proof Sys2Proof.Machine

/-- A step takes the command at the front of the queue and runs it on the hub with the rest of the queue. -/
def Obligations.StepRunsTheFrontCommand : Prop :=
  ∀ (c : Instr) (rest : List Instr) (s : State), s.pending = c :: rest → step s = exec c { s with pending := rest }

/-- With no command waiting, a step moves the counter by one core cycle at its rate once it runs, and nothing else
(the model's choice, log 1). -/
def Obligations.IdleStepMovesTheCounter : Prop :=
  ∀ s : State, s.pending = [] → ∃ t, step s = .next t ∧
    t = { s with tim := { s.tim with counter := t.tim.counter, sub := t.tim.sub } } ∧
    (s.tim.running = false → t = s) ∧
    (s.tim.running = true → s.counterRate = 0 → s.tim.sub < 2 ^ 41 →
      t.tim.counter = s.tim.counter + 163840 ∧ t.tim.sub = s.tim.sub)

/-- The hub at power-on: in whole-hub reset with POR alone recorded, held there until every rail and REFCLK are up, every register
at the reset value of its table, nothing in a register's shadow, in a memory, in a queue or among the commands, and nothing put
out (R13, R83, R89, R92, R94).
The model's choices in it: log 7, 8. -/
def Obligations.ResetHoldsTheTablesValues : Prop :=
  State.reset.sys.inReset = true ∧ State.reset.sys.sources = powerSources ∧
    (∀ a, regRd State.reset.regs a = resetWord a) ∧ (∀ a, regRd State.reset.shadow a = resetWord a) ∧
    regRd State.reset.regs 0x10C = 1 ∧ State.reset.fld Reg.EVT_MASK_A_MASK = 0xFFFFFFFF ∧
    State.reset.dram = [] ∧ State.reset.flash = [] ∧ State.reset.mem.errs = [] ∧ State.reset.cry.queues = [] ∧
    State.reset.cry.streams = [] ∧ State.reset.evt.log = [] ∧ State.reset.commit = none ∧ State.reset.accepted = [] ∧
    State.reset.wf = true ∧ State.reset.pending = [] ∧ State.reset.outbox = []

/-- The invariant of event delivery holds at power-on. -/
def Obligations.DeliveredAtReset : Prop := State.reset.Delivered

/-- Every step keeps the invariant of event delivery (R166, R139): after any command, whatever it raised, masked, routed
or reset, each port's remembered vectors are exactly those that are pending and unmasked. -/
def Obligations.EveryStepDelivers : Prop :=
  ∀ s t : State, s.Delivered → step s = .next t → t.Delivered

/-- What RST_CAUSE holds after each reset source (R92): a power-on reset sets POR and clears the other bits; any other
reset sets the bit of its own source and leaves the others as they were. The sources are POWER_ON_RESET, PIN_RESET,
REFCLK_LOSS, THERMAL_RESET, SOFTWARE_RESET and WATCHDOG_RESET, each where `resetBit` says that it resets. -/
def Obligations.ResetCauses : Prop :=
  ∀ (i : Instr) (s : State) (b : Nat), resetBit i s = some b →
    ∃ t, exec i s = .next t ∧ t.sys.inReset = true ∧
      regRd t.regs 0x10C = (if b = 0 then 1 else w32 ((regRd s.regs 0x10C).toNat ||| 2 ^ b))

/-- Every whole-hub reset (R89, R93, R94): every register back at its table's value but RST_CAUSE, what the test logic keeps
(the pages of DBG) and the TX counters of NET, which no reset's frames reach; the DRAM lost, no commit in hand, and the commands
that wait kept. The boot flash is kept too, where no store of the journal is being written (R259).
The model's choices in it: log 29. -/
def Obligations.WholeHubReset : Prop :=
  ∀ (i : Instr) (s : State) (b : Nat), resetBit i s = some b →
    ∃ t, exec i s = .next t ∧
      (∀ a, a ≠ 0x10C → a / 0x1000 ≠ 0xF0 → ¬ txWord a → regRd t.regs a = resetWord a) ∧
      (∀ a, regRd t.shadow a = resetWord a) ∧ t.dram = [] ∧ (s.cal.storing = none → t.flash = s.flash) ∧
      t.pending = s.pending ∧ t.commit = none ∧ t.accepted = [] ∧ t.pins = s.pins ∧ t.sys.phase = State.reset.sys.phase

/-- The mode of a VDDIO bank, the temperature warning and the end of reset sources (R79, R91, R125): a bank whose supervisor has
reported its rail up, and whose mode is not chosen, runs at 1.8 V where the rail is not above 2.5 V and at 3.3 V where it is; 105 °C
raises EV_SYS_THERM_WARN once, and again after a fall below 100 °C, in reset or out of it; a source that ends holds the hub in
reset no longer, the thermal one where the junction has fallen to 100 °C. -/
def Obligations.SupplyAndTemperature : Prop :=
  (∀ (bank : Fin 4) (mv : Nat) (s : State), s.sys.vddio.look bank.val = none →
    s.sys.sources.contains (.rail (.VDDIO bank)) = false → mv ≤ 2500 →
    ∃ t, exec (.vddioModeChoice bank mv) s = .next t ∧
      Settles { s with sys := { s.sys with vddio := s.sys.vddio.put bank.val false } } t) ∧
  (∀ (bank : Fin 4) (mv : Nat) (s : State), s.sys.vddio.look bank.val = none →
    s.sys.sources.contains (.rail (.VDDIO bank)) = false → 2500 < mv →
    ∃ t, exec (.vddioModeChoice bank mv) s = .next t ∧
      Settles ({ s with sys := { s.sys with vddio := s.sys.vddio.put bank.val true } }.setFld Reg.SYS_STRAPS_VDDIO3V3 0 0
        (s.fld Reg.SYS_STRAPS_VDDIO3V3 ||| 2 ^ bank.val)) t) ∧
  (∀ (t8 : Int) (s : State), s.sys.inReset = false → 840 ≤ t8 → s.sys.warned = false →
    ∃ t, exec (.thermWarn t8) s = .next t ∧ Settles ({ s with sys := { s.sys with warned := true } }.raise .SYS 0 2) t) ∧
  (∀ (t8 : Int) (s : State), 840 ≤ t8 → s.sys.warned = true →
    ∃ t, exec (.thermWarn t8) s = .next t ∧ Settles s t) ∧
  (∀ (t8 : Int) (s : State), t8 < 800 →
    ∃ t, exec (.thermWarn t8) s = .next t ∧ Settles { s with sys := { s.sys with warned := false } } t) ∧
  (∀ (src : ResetSource) (s : State), (∀ t8, src ≠ .thermal t8) →
    ∃ t, exec (.resetSourceEnd src) s = .next t ∧
      Settles { s with sys := { s.sys with sources := s.sys.sources.filter fun y => decide (y ≠ src) } } t) ∧
  (∀ (t8 : Int) (s : State), t8 ≤ 800 →
    ∃ t, exec (.resetSourceEnd (.thermal t8)) s = .next t ∧ (∀ u, ResetSource.thermal u ∉ t.sys.sources))

/-- The end of reset and the boot sequence (R83, R91, R98, R99, R100, R522). Reset ends once its last source has: the straps are
sampled into SYS.STRAPS, the core PLL has locked, the host ports take the modes of their straps, and the boot sequence begins
with DRAM training. Training that passes or fails, the wait between passes, a try of a flash image whose check fails, and one
whose check passes, for an image with no start configuration: the hub boots from it, its counter runs and EV_SYS_BOOT is raised. -/
def Obligations.BootSequence : Prop :=
  (∀ (st : Straps) (s : State), s.sys.inReset = true → s.sys.sources = [] → s.sys.vddio.length = 4 →
    ∃ t, exec (.resetRelease st) s = .next t ∧ t.sys.inReset = false ∧ t.sys.straps = st ∧ t.sys.phase = .training ∧
      t.sys.delay = 1 ∧ t.flag Reg.SYS_STRAPS_ROLE = st.role ∧ t.flag Reg.SYS_STRAPS_PAIR = st.pair ∧
      t.flag Reg.SYS_STRAPS_TWIN = st.twin ∧ t.fld Reg.SYS_STRAPS_BOOT = st.boot.toNat ∧
      t.flag Reg.SYS_STRAPS_HPA = st.hpa ∧ t.flag Reg.SYS_STRAPS_HPB = st.hpb ∧
      t.flag Reg.SYS_CLK_STATUS_CORE_LOCK = true ∧ t.flag Reg.HP_STATUS_MODE 0 = st.hpa ∧
      t.flag Reg.HP_STATUS_MODE 1 = st.hpb ∧ t.flag Reg.HP_STATUS_PERST 0 = s.hpA.perstLow ∧
      t.flag Reg.HP_STATUS_PERST 1 = s.hpB.perstLow ∧ t.dram = s.dram ∧ t.flash = s.flash) ∧
  (∀ (rate density : Fin 4) (s : State), s.sys.inReset = false → s.sys.phase = .training → rate.val ≠ 0 → density.val ≠ 0 →
    s.sys.loadPending = false →
    ∃ t, exec (.dramTraining (.pass rate density)) s = .next t ∧ t.sys.trained = true ∧
      t.sys.phase = (if s.sys.straps.boot = 0 ∨ s.sys.straps.boot = 3 then .tryA else .waitHost)) ∧
  (∀ s : State, s.sys.inReset = false → s.sys.phase = .training → s.sys.straps.boot = 1 ∨ s.sys.straps.boot = 2 →
    s.sys.loadPending = false →
    ∃ t, exec (.dramTraining .fail) s = .next t ∧ t.sys.phase = .backoff ∧ t.fld Reg.SYS_BOOT_STATUS_ERR_HOST = 7) ∧
  (∀ s : State, s.sys.inReset = false → s.sys.phase = .training → s.sys.straps.boot = 0 ∨ s.sys.straps.boot = 3 →
    s.sys.loadPending = false →
    ∃ t, exec (.dramTraining .fail) s = .next t ∧ t.sys.phase = .backoff ∧ t.fld Reg.SYS_BOOT_STATUS_ERR_A = 7 ∧
      t.fld Reg.SYS_BOOT_STATUS_ERR_B = 7 ∧
      t.fld Reg.SYS_BOOT_STATUS_PASSES = min (s.fld Reg.SYS_BOOT_STATUS_PASSES + 1) 0xFFF) ∧
  (∀ s : State, s.sys.phase = .backoff → ∃ t, exec .backoffWaitEnd s = .next t ∧
    Settles ({ s with
      sys := { s.sys with
        delay := min (2 * s.sys.delay) 8
        phase := if s.sys.trained then .tryA else .training } }.setFld Reg.SYS_BOOT_STATUS_STATE 0 0 0) t) ∧
  (∀ (jedec : BitVec 24) (readOk : Bool) (slots : BitVec 2) (s : State), s.sys.inReset = false → s.sys.phase = .tryA →
    s.tryCode .imageA jedec.toNat readOk ≠ 0 →
    ∃ t, exec (.imageTry .imageA jedec ⟨readOk, slots⟩) s = .next t ∧
      Settles (({ s with sys := { s.sys with
        jedec := jedec.toNat, slotFails := slots.toNat, phase := BootPhase.tryB } }.setFld Reg.SYS_BOOT_STATUS_ERR_A 0 0
        (s.tryCode .imageA jedec.toNat readOk)).setFld Reg.SYS_BOOT_STATUS_STATE 0 0 0) t) ∧
  (∀ (jedec : BitVec 24) (readOk : Bool) (slots : BitVec 2) (s : State), s.sys.inReset = false → s.sys.phase = .tryB → s.sys.loadPending = false →
    s.tryCode .imageB jedec.toNat readOk ≠ 0 →
    ∃ t, exec (.imageTry .imageB jedec ⟨readOk, slots⟩) s = .next t ∧ t.sys.phase = .backoff ∧
      t.fld Reg.SYS_BOOT_STATUS_ERR_B = s.tryCode .imageB jedec.toNat readOk ∧ t.fld Reg.SYS_BOOT_STATUS_STATE = 1 ∧
      t.fld Reg.SYS_BOOT_STATUS_PASSES = min (s.fld Reg.SYS_BOOT_STATUS_PASSES + 1) 0xFFF) ∧
  (∀ (img : ImageSel) (jedec : BitVec 24) (readOk : Bool) (slots : BitVec 2) (s : State), s.sys.inReset = false →
    s.sys.phase = (match img with
      | .imageA => .tryA
      | .imageB => .tryB) →
    s.tryCode img jedec.toNat readOk = 0 → imageConfigured (fun i => s.flashByte (imageBase img + i)) = false →
    ∃ t, exec (.imageTry img jedec ⟨readOk, slots⟩) s = .next t ∧ t.booted = true ∧ t.flag Reg.SYS_BOOT_STATUS_BOOTED = true ∧
      t.fld Reg.SYS_BOOT_STATUS_STATE = 3 ∧ t.tim.running = true ∧ t.told .SYS 0 0 = true ∧
      t.fld Reg.SYS_BOOT_STATUS_SRC = (match img with
        | .imageA => 1
        | .imageB => 2))

/-- The boot claim (R103 to R107): CLAIM takes it, CLAIM = 0 from its owner gives it back with the staged data discarded,
and LOAD waits for the pass that runs. -/
def Obligations.BootClaim : Prop :=
  (∀ (p : HostPort) (s : State), s.sys.inReset = false → s.bound p = false → s.sys.phase ≠ .booted →
    s.sys.loadPending = false → s.mayClaim p.code = true → s.fld Reg.SYS_BOOT_STATUS_OWNER = 0 →
    ∃ t, exec (.claim p) s = .next t ∧
      Settles ((s.setFld Reg.SYS_BOOT_STATUS_OWNER 0 0 p.code).setFld Reg.SYS_BOOT_CTRL_CLAIM 0 0 1) t) ∧
  (∀ (p : HostPort) (s : State), s.sys.inReset = false → s.bound p = false → s.sys.phase ≠ .booted →
    s.mayClaim p.code = true → s.fld Reg.SYS_BOOT_STATUS_OWNER = p.code →
    ∃ t, exec (.claimRelease p) s = .next t ∧
      Settles { (s.setFld Reg.SYS_BOOT_STATUS_OWNER 0 0 0).setFld Reg.SYS_BOOT_CTRL_CLAIM 0 0 0 with
        sys := { s.sys with staging := [], loadPending := false } } t) ∧
  (∀ (p : HostPort) (s : State), s.sys.inReset = false → s.bound p = false → s.sys.phase = .tryA ∨ s.sys.phase = .tryB →
    s.mayClaim p.code = true → s.fld Reg.SYS_BOOT_STATUS_OWNER = p.code →
    ∃ t, exec (.load p) s = .next t ∧ Settles { s with sys := { s.sys with loadPending := true } } t)

/-- A word written at its own interface by an unbound port of a running hub reaches a plain register (R11, R129, R146,
R147): each RW field takes its bits of the word; each W1C field loses the bits written as 1 and keeps the others; every
other bit of the register, every other register but the page's SHADOW_STATE, and all memory stay. -/
def Obligations.RegisterWrite : Prop :=
  (∀ (p : HostPort) (a : BitVec 24) (w : Word) (k : PageKind) (n : Nat) (s : State), s.pageOpen p = true →
    pageHas k n a.toNat = true → s.plainAt p k n a.toNat w = true → (k = .DBG → ¬ (0xF0100 ≤ a.toNat ∧ a.toNat < 0xF0110)) →
    rwsMask a.toNat = 0 →
    ∃ t, exec (.registerWrite p a w 0xF) s = .next t ∧
      Settles { s with regs := regWr s.regs a.toNat (writtenWord k n a.toNat (regRd s.regs a.toNat) w) } t) ∧
  (∀ (p : HostPort) (a : BitVec 24) (w : Word) (k : PageKind) (n : Nat) (s : State), s.pageOpen p = true →
    pageHas k n a.toNat = true → s.plainAt p k n a.toNat w = true → k ≠ .DBG →
    rwsMask a.toNat ≠ 0 → s.pageLocked (pageBase k n) = false →
    ∃ t, exec (.registerWrite p a w 0xF) s = .next t ∧
      Settles (State.shadowWritten { s with
        regs := regWr s.regs a.toNat (writtenWord k n a.toNat (regRd s.regs a.toNat) w)
        shadow := regWr s.shadow a.toNat (mix (rwsMask a.toNat) (regRd s.shadow a.toNat) w) } (pageBase k n)) t) ∧
  (∀ (p : HostPort) (a : BitVec 24) (w : Word) (be : BitVec 4) (k : PageKind) (n : Nat) (s : State), s.portOpen p = true →
    a.toNat % 4 = 0 → pageOf a.toNat = some (k, n) → be ≠ 0xF →
    ∃ t, exec (.registerWrite p a w be) s = .next t ∧ Settles (s.err k n 2) t) ∧
  (∀ (p : HostPort) (a : BitVec 24) (w : Word) (be : BitVec 4) (s : State), s.portOpen p = true →
    a.toNat % 4 = 0 → pageOf a.toNat = none →
    ∃ t, exec (.registerWrite p a w be) s = .next t ∧
      Settles (s.setFld Reg.HP_COUNTS_BADADDR p.ix 0 (min (s.fld Reg.HP_COUNTS_BADADDR p.ix + 1) 0xFFFF)) t)

/-- COMMIT of a page and of the hub, and DISCARD (R144, R148, R149, R154): the snapshot of the shadow is taken with CHECKING
set, one commit at a time; DISCARD gives the shadow the values in force and clears PENDING. -/
def Obligations.CommitRequests : Prop :=
  (∀ (p : HostPort) (page : BitVec 12) (k : PageKind) (n : Nat) (s : State), s.pageOpen p = true →
    page.toNat * 0x1000 = pageBase k n → n < k.count → k ≠ .SYS → k ≠ .HP → s.commit = none → s.pageLocked (pageBase k n) = false →
    ∃ t, exec (.pageCommit p page) s = .next t ∧
      Settles { s.setShadowFlag Reg.COMMON_SHADOW_STATE_CHECKING (pageBase k n) true with
        commit := some ⟨false, [pageBase k n], wordsOf s.shadow [pageBase k n], []⟩ } t) ∧
  (∀ (p : HostPort) (page : BitVec 12) (k : PageKind) (n : Nat) (s : State), s.pageOpen p = true →
    page.toNat * 0x1000 = pageBase k n → n < k.count → k ≠ .HP → s.commit ≠ none →
    ∃ t, exec (.pageCommit p page) s = .next t ∧ t.commit = s.commit ∧
      t.fld Reg.COMMON_ERRCODE_CAUSE (pageBase k n / 0x1000) = 3) ∧
  (∀ (p : HostPort) (s : State), s.pageOpen p = true → s.commit = none →
    ∃ t, exec (.globalCommit p) s = .next t ∧ ∃ c, t.commit = some c ∧ c.whole = true ∧ c.dirty = [] ∧
      (∀ b, b ∈ c.pages ↔ b ∈ allPages ∧ s.shadowFlag Reg.COMMON_SHADOW_STATE_PENDING b = true ∧
        s.pageLocked b = false) ∧ c.snap = wordsOf s.shadow c.pages) ∧
  (∀ (p : HostPort) (page : BitVec 12) (k : PageKind) (n : Nat) (s : State), s.pageOpen p = true →
    page.toNat * 0x1000 = pageBase k n → n < k.count → k ≠ .HP → s.pageLocked (pageBase k n) = false →
    ∃ t, exec (.discard p page) s = .next t ∧ t.shadowFlag Reg.COMMON_SHADOW_STATE_PENDING (pageBase k n) = false ∧
      (∀ a, (regRd t.shadow a).toNat &&& rwsMask a =
        (if shadowPage a = some (pageBase k n) then regRd s.regs a else regRd s.shadow a).toNat &&& rwsMask a) ∧
      (∀ a, shadowPage a ≠ some (pageBase k n) → regRd t.shadow a = regRd s.shadow a))

/-- The checks of a commit end (R148, R151, R152): with no failing page it is accepted and waits for its base-rate instant;
with failing pages, every page of it shows REFUSED, each failing page records its cause, the other pages of the commit record
REFUSED_DEP with the TYPE of the failing page whose base is lowest, EV_EVT_COMMIT_REFUSED is raised, and no RWS field, no shadow
and no accepted commit changes. -/
def Obligations.CommitChecked : Prop :=
  (∀ (c : CommitState) (s : State), s.commit = some c → s.failures s.soon (takeSnap s.soon c.pages c.snap) = [] →
    ∃ t, exec .commitChecksEnd s = .next t ∧ t.commit = none ∧ t.accepted = s.accepted ++ [c] ∧ t.shadow = s.shadow ∧
      t.dram = s.dram ∧ (∀ b, b ∈ c.pages → t.shadowFlag Reg.COMMON_SHADOW_STATE_CHECKING b = false)) ∧
  (∀ (c : CommitState) (f : PageKind × Nat × Nat) (fs : List (PageKind × Nat × Nat)) (s : State), s.commit = some c →
    (∀ b, b ∈ c.pages → b ∈ allPages) → s.failures s.soon (takeSnap s.soon c.pages c.snap) = f :: fs →
    ∃ t, exec .commitChecksEnd s = .next t ∧ t.commit = none ∧ t.accepted = s.accepted ∧ t.shadow = s.shadow ∧
      t.dram = s.dram ∧ t.told .EVT 0 1 = true ∧
      (∀ b, b ∈ c.pages → t.shadowFlag Reg.COMMON_SHADOW_STATE_CHECKING b = false ∧
        t.shadowFlag Reg.COMMON_SHADOW_STATE_REFUSED b = true) ∧
      (∀ g, g ∈ f :: fs → t.fld Reg.COMMON_ERRCODE_CAUSE (pageBase g.1 g.2.1 / 0x1000) = g.2.2) ∧
      (∀ b, b ∈ c.pages → (∀ g, g ∈ f :: fs → pageBase g.1 g.2.1 ≠ b) →
        t.fld Reg.COMMON_ERRCODE_CAUSE (b / 0x1000) = 5 ∧ t.fld Reg.COMMON_ERRCODE_BLOCK (b / 0x1000) = f.1.type) ∧
      (∀ a, (regRd t.regs a).toNat &&& rwsMask a = (regRd s.regs a).toNat &&& rwsMask a))

/-- Events are forced, cleared and told again (R139, R157, R164, R167). -/
def Obligations.EventCommands : Prop :=
  (∀ (p : HostPort) (page : BitVec 12) (k : PageKind) (n : Nat) (w : Word) (s : State), s.pageOpen p = true →
    page.toNat * 0x1000 = pageBase k n → n < k.count →
    ∃ t, exec (.eventForce p page w) s = .next t ∧
      ∀ b, b < k.eventCount → w.toNat.testBit b = true → t.told k n b = true) ∧
  (∀ (p : HostPort) (page : BitVec 12) (k : PageKind) (n : Nat) (w : Word) (s : State), s.pageOpen p = true →
    page.toNat * 0x1000 = pageBase k n → n < k.count →
    ∃ t, exec (.eventClear p page w) s = .next t ∧
      Settles { s with regs := regWr s.regs (pageBase k n + 0xC) (regRd s.regs (pageBase k n + 0xC) &&& ~~~w) } t) ∧
  (∀ (p : HostPort) (s : State), s.booted = true → s.bound p = true → s.live p ≠ 0 →
    ∃ t, exec (.eventNoticeRepeat p) s = .next t ∧ Settles (s.notice p) t)

/-- Claims of semaphores (R158), by the command and by any word written to SEM.LOCKk with CLAIM = 1: a free semaphore takes the
writing port as its owner and the TAG of the word, a held one stays as it is and no cause is recorded. -/
def Obligations.SemaphoreClaim : Prop :=
  (∀ n : Fin 64, Reg.SEM_LOCK_OWNER.addr 0 n.val = 0x1000 + (0x100 + 4 * n.val) ∧
    pageOf (0x1100 + 4 * n.val) = some (.SEM, 0)) ∧
  (∀ (p : HostPort) (n : Fin 64) (tag : BitVec 8) (s : State), s.portOpen p = true → s.semOwner n.val = 0 →
    ∃ t, exec (.semClaim p n tag) s = .next t ∧
      Settles ((s.setFld Reg.SEM_LOCK_OWNER 0 n.val p.code).setFld Reg.SEM_LOCK_TAG 0 n.val tag.toNat) t) ∧
  (∀ (p : HostPort) (n : Fin 64) (tag : BitVec 8) (s : State), s.portOpen p = true → s.semOwner n.val ≠ 0 →
    ∃ t, exec (.semClaim p n tag) s = .next t ∧ Settles s t) ∧
  (∀ (p : HostPort) (n : Fin 64) (w : Word) (s : State), s.portOpen p = true → w.toNat.testBit 2 = true →
    w.toNat.testBit 3 = false → s.semOwner n.val = 0 →
    ∃ t, exec (.registerWrite p (BitVec.ofNat 24 (0x1100 + 4 * n.val)) w 0xF) s = .next t ∧
      Settles ((s.setFld Reg.SEM_LOCK_OWNER 0 n.val p.code).setFld Reg.SEM_LOCK_TAG 0 n.val (w.toNat / 0x100 % 0x100)) t) ∧
  (∀ (p : HostPort) (n : Fin 64) (w : Word) (s : State), s.portOpen p = true → w.toNat.testBit 2 = true →
    w.toNat.testBit 3 = false → s.semOwner n.val ≠ 0 →
    ∃ t, exec (.registerWrite p (BitVec.ofNat 24 (0x1100 + 4 * n.val)) w 0xF) s = .next t ∧ Settles s t)

/-- Releases and TAG writes of semaphores (R159), by the commands and by any word written to SEM.LOCKk: the owner frees its
semaphore, whatever TAG the word holds, or changes its TAG; from another port, or on a free semaphore, either is ignored with
cause NOTOWNER (6), and a word with both CLAIM and RELEASE with RANGE (7). -/
def Obligations.SemaphoreRelease : Prop :=
  (∀ (p : HostPort) (n : Fin 64) (s : State), s.portOpen p = true → s.semOwner n.val = p.code →
    ∃ t, exec (.semRelease p n) s = .next t ∧ Settles (s.semFreed n.val) t) ∧
  (∀ (p : HostPort) (n : Fin 64) (w : Word) (s : State), s.portOpen p = true → w.toNat.testBit 2 = false →
    w.toNat.testBit 3 = true → s.semOwner n.val = p.code →
    ∃ t, exec (.registerWrite p (BitVec.ofNat 24 (0x1100 + 4 * n.val)) w 0xF) s = .next t ∧ Settles (s.semFreed n.val) t) ∧
  (∀ (p : HostPort) (n : Fin 64) (s : State), s.portOpen p = true → s.semOwner n.val ≠ p.code →
    ∃ t, exec (.semRelease p n) s = .next t ∧ Settles (s.err .SEM 0 6) t) ∧
  (∀ (p : HostPort) (n : Fin 64) (tag : BitVec 8) (s : State), s.portOpen p = true → s.semOwner n.val = p.code →
    ∃ t, exec (.semTagWrite p n tag) s = .next t ∧ Settles (s.setFld Reg.SEM_LOCK_TAG 0 n.val tag.toNat) t) ∧
  (∀ (p : HostPort) (n : Fin 64) (tag : BitVec 8) (s : State), s.portOpen p = true → s.semOwner n.val ≠ p.code →
    ∃ t, exec (.semTagWrite p n tag) s = .next t ∧ Settles (s.err .SEM 0 6) t) ∧
  (∀ (p : HostPort) (n : Fin 64) (w : Word) (s : State), s.portOpen p = true → w.toNat.testBit 2 = false →
    w.toNat.testBit 3 = false → s.semOwner n.val = p.code →
    ∃ t, exec (.registerWrite p (BitVec.ofNat 24 (0x1100 + 4 * n.val)) w 0xF) s = .next t ∧
      Settles (s.setFld Reg.SEM_LOCK_TAG 0 n.val (w.toNat / 0x100 % 0x100)) t) ∧
  (∀ (p : HostPort) (n : Fin 64) (w : Word) (s : State), s.portOpen p = true → w.toNat.testBit 2 = false →
    s.semOwner n.val ≠ p.code →
    ∃ t, exec (.registerWrite p (BitVec.ofNat 24 (0x1100 + 4 * n.val)) w 0xF) s = .next t ∧ Settles (s.err .SEM 0 6) t) ∧
  (∀ (p : HostPort) (n : Fin 64) (w : Word) (s : State), s.portOpen p = true → w.toNat.testBit 2 = true →
    w.toNat.testBit 3 = true →
    ∃ t, exec (.registerWrite p (BitVec.ofNat 24 (0x1100 + 4 * n.val)) w 0xF) s = .next t ∧ Settles (s.err .SEM 0 7) t)

/-- A write to SEM.FORCE (R162): with its key and ALL = 0 it frees a semaphore that a port holds, whoever writes it, clears
its TAG, records it in FREED and raises EV_SEM_FORCED; with another key it is ignored. -/
def Obligations.SemaphoreForce : Prop :=
  (∀ (p : HostPort) (w : Word) (s : State), s.portOpen p = true → w.toNat / 0x10000 = 0x5E3A → w.toNat.testBit 6 = false →
    s.semOwner (w.toNat % 0x40) = 1 ∨ s.semOwner (w.toNat % 0x40) = 2 →
    ∃ t, exec (.semForce p w) s = .next t ∧ t.semOwner (w.toNat % 0x40) = 0 ∧
      t.fld Reg.SEM_LOCK_TAG 0 (w.toNat % 0x40) = 0 ∧
      (t.fld64 Reg.SEM_FREED_LO_FREED Reg.SEM_FREED_HI_FREED).testBit (w.toNat % 0x40) = true ∧
      t.told .SEM 0 1 = true) ∧
  (∀ (p : HostPort) (w : Word) (s : State), s.portOpen p = true → w.toNat / 0x10000 ≠ 0x5E3A →
    ∃ t, exec (.semForce p w) s = .next t ∧ Settles s t)

/-- The binding of a port, the reset of a port, and its PCIe link (R128, R137, R140, R175): a change of NETBIND and a fall
of HPx_PERST_L reset the port; a write that changes nothing, and a fall while the ball is low, do nothing; STATUS.PERST follows the
ball; a link that trains is in L0 at its speed and width, and STATUS.LINK_UP rises with EV_HPx_LINK where the port is not bound. -/
def Obligations.HostPortCommands : Prop :=
  (∀ (p : HostPort) (bind : Bool) (s : State), s.booted = true → s.bound p = !bind →
    ∃ t, exec (.netbind p bind) s = .next t ∧ t.bound p = bind ∧ t.flag Reg.HP_STATUS_BOUND p.ix = bind ∧
      PortResets p s t) ∧
  (∀ (p : HostPort) (bind : Bool) (s : State), s.booted = true → s.bound p = bind →
    ∃ t, exec (.netbind p bind) s = .next t ∧ Settles s t) ∧
  (∀ (p : HostPort) (s : State), s.sys.inReset = false → (s.hp p).perstLow = false →
    ∃ t, exec (.portReset p) s = .next t ∧ (t.hp p).perstLow = true ∧ t.flag Reg.HP_STATUS_PERST p.ix = true ∧
      PortResets p s t) ∧
  (∀ (p : HostPort) (s : State), (s.hp p).perstLow = true →
    ∃ t, exec (.portReset p) s = .next t ∧ Settles s t) ∧
  (∀ (p : HostPort) (s : State), s.sys.inReset = false →
    ∃ t, exec (.perstRelease p) s = .next t ∧
      Settles ((s.setHp p { s.hp p with perstLow := false }).setFlag Reg.HP_STATUS_PERST p.ix 0 false) t) ∧
  (∀ (p : HostPort) (speed : Fin 4) (width : Fin 3) (en fm : Bool) (s : State), s.sys.inReset = false →
    s.serialMode p = false → (s.hp p).perstLow = false → speed.val ≠ 0 → width.val ≠ 0 →
    ∃ t, exec (.pcieLinkTrained p speed width en fm) s = .next t ∧ (t.hp p).inL0 = true ∧ (t.hp p).msixEnable = en ∧
      (t.hp p).msixFunctionMask = fm ∧ t.vecMask p = s.vecMask p ∧ t.fld Reg.HP_STATUS_SPEED p.ix = speed.val ∧
      t.fld Reg.HP_STATUS_WIDTH p.ix = width.val ∧
      (s.bound p = false → t.flag Reg.HP_STATUS_LINK_UP p.ix = true ∧
        (s.flag Reg.HP_STATUS_LINK_UP p.ix = false → t.told .HP p.ix 0 = true)))

/-- Serial transactions (R129, R131 to R135): a read of registers puts out the ready marker and each word, least significant
byte first, and the transaction goes on at the next address; a word written acts as REGISTER_WRITE does; an unknown
command is ignored, and what follows it, until CS_L rises; a read abandoned while it waits leaves no pop behind, and one abandoned
after its ready marker is counted.
The model's choices in it: log 71. -/
def Obligations.SerialTransactions : Prop :=
  (∀ (p : HostPort) (a : BitVec 24) (n : Nat) (s : State), s.serialOpen p = true → s.portOpen p = true → s.Delivered →
    (s.hp p).serial ≠ .ignored → 0 < n → (∀ i, i < n → s.plainRegister (a.toNat + 4 * i) = true) →
    ∃ t, exec (.serialRead p a n) s = .next t ∧
      Settles ((s.setHp p { s.hp p with
        serial := .read (a + BitVec.ofNat 24 (4 * n)).toNat
        lastRead := (List.range n).map fun i => s.plainRead (a.toNat + 4 * i) }).put
        (.serial p ((List.range n).flatMap fun i => 0x5A :: wordBytes (s.plainRead (a.toNat + 4 * i))))) t) ∧
  (∀ (p : HostPort) (a : BitVec 24) (w : Word) (s : State), s.serialOpen p = true → (s.hp p).serial ≠ .ignored →
    s.booted = true ∨ (s.sys.loadPending = false ∧ a.toNat / 4 * 4 ≠ Reg.SYS_BOOT_CTRL_CLAIM.addr 0 0) →
    ∃ t u, exec (.serialWrite p a [w]) s = .next t ∧ exec (.registerWrite p a w 0xF) s = .next u ∧
      t = u.setHp p { u.hp p with serial := .write (BitVec.ofNat 24 (a.toNat / 4 * 4 + 4)).toNat }) ∧
  (∀ (p : HostPort) (a : BitVec 24) (n : Nat) (ws : List Word) (s : State), s.serialOpen p = true →
    (s.hp p).serial = .ignored →
    (∃ t, exec (.serialRead p a n) s = .next t ∧ Settles s t) ∧ ∃ t, exec (.serialWrite p a ws) s = .next t ∧ Settles s t) ∧
  (∀ (p : HostPort) (cmd : Byte) (s : State), s.serialOpen p = true → cmd ≠ 0x0B → cmd ≠ 0x02 →
    ∃ t, exec (.serialBadCommand p cmd) s = .next t ∧ Settles (s.setHp p { s.hp p with serial := .ignored }) t) ∧
  (∀ (p : HostPort) (ph : SerialPhase) (s : State), s.serialOpen p = true → ph = .idle ∨ ph = .partialWord →
    ∃ t, exec (.serialCsRise p ph) s = .next t ∧ Settles (s.setHp p { s.hp p with serial := .none }) t) ∧
  (∀ (p : HostPort) (a : Nat) (s : State), s.serialOpen p = true → (s.hp p).serial = .read a →
    ∃ t, exec (.serialCsRise p .wait) s = .next t ∧ (t.hp p).serial = .none ∧
      (∀ q v, t.cry.queues.look q = some v → ∀ x, x ∈ v.waiting → x.port ≠ p)) ∧
  (∀ (p : HostPort) (a : BitVec 24) (k : PageKind) (n : Nat) (s : State), s.serialOpen p = true → s.portOpen p = true →
    (s.hp p).serial = .read a.toNat → pageHas k n a.toNat = true →
    s.effectRead k n (a.toNat - pageBase k n) = none →
    ∃ t, exec (.serialCsRise p .ready) s = .next t ∧
      Settles ((s.setFld Reg.HP_COUNTS_ABORTED_RD p.ix 0 (min (s.fld Reg.HP_COUNTS_ABORTED_RD p.ix + 1) 0xFFFF)).setHp p
        { s.hp p with serial := .none }) t)

/-- The host aperture (R138, R536, R540, R546): a read of the host region returns the bytes of the DRAM, a write changes exactly
the bytes it stores, a write to a protected region changes no byte, counts and raises EV_MEM_PROTECT, and a read on a bound port
returns zeros.
The model's choices in it: log 5. -/
def Obligations.ApertureAccess : Prop :=
  (∀ (p : HostPort) (a : BitVec 34) (n : Nat) (s : State), s.hostRegion p a.toNat n = true →
    ∃ t, exec (.apertureRead p a n []) s = .next t ∧
      Settles (s.setHp p { s.hp p with
        lastRead := bytesWords (cdiv n 4) (memRds Config.dramBlank s.dram a.toNat n)
        lastPoisoned := false }) t) ∧
  (∀ (p : HostPort) (a : BitVec 34) (bs : List Byte) (s : State), s.hostRegion p a.toNat bs.length = true →
    ∃ t, exec (.apertureWrite p a bs []) s = .next t ∧ Settles { s with dram := t.dram } t ∧
      ∀ x, memRd Config.dramBlank t.dram x =
        if a.toNat ≤ x ∧ x < a.toNat + bs.length then bs.getD (x - a.toNat) 0 else memRd Config.dramBlank s.dram x) ∧
  (∀ (p : HostPort) (a : BitVec 34) (bs : List Byte) (s : State), s.portOpen p = true → s.serialMode p = false →
    (s.hp p).inL0 = true → s.stagingOpen = false → bs ≠ [] → a.toNat + bs.length ≤ s.regionBase 5 →
    s.regionBase 5 ≤ s.usableBytes →
    ∃ t, exec (.apertureWrite p a bs []) s = .next t ∧ t.dram = s.dram ∧
      t.fld Reg.MEM_PROT_COUNT_PROTECTED = (s.fld Reg.MEM_PROT_COUNT_PROTECTED + 1) % 0x10000 ∧
      t.told .MEM 0 3 = true) ∧
  (∀ (p : HostPort) (a : BitVec 34) (n : Nat) (s : State), s.sys.inReset = false → s.serialMode p = false →
    (s.hp p).inL0 = true → s.bound p = true →
    ∃ t, exec (.apertureRead p a n []) s = .next t ∧
      Settles (s.setHp p { s.hp p with lastRead := List.replicate (cdiv n 4) 0, lastPoisoned := false }) t)

/-- Flash operations through the hub (R172 to R175). A READ of a port that holds semaphore 63 begins at any FLASH_ADDR; a PROGRAM
or an erase begins at an aligned one outside the journal. An operation of a port that does not hold the semaphore ends at once
with ERR 1, a PROGRAM or an erase that is not aligned with ERR 2, and one that touches the journal with ERR 3, and the flash keeps
its bytes. When an operation ends, the bytes are read into FLASH_BUF, programmed or erased; a failure of the flash ends it with
ERR 5, and a flash that is busy for 4 s with ERR 4.
The model's choices in it: log 83, 84, 85, 132. -/
def Obligations.FlashOperations : Prop :=
  (∀ (p : HostPort) (s : State), s.flashFree p = true → s.semOwner 63 = p.code →
    ∃ t, exec (.flashRead p) s = .next t ∧ Settles (s.flashBegun p 1) t) ∧
  (∀ (p : HostPort) (s : State), s.flashFree p = true → s.semOwner 63 = p.code → s.flashAt p % 0x100 = 0 →
    s.flashAt p + 0x100 ≤ 0x800000 ∨ 0x880000 ≤ s.flashAt p →
    ∃ t, exec (.flashProgram p) s = .next t ∧ Settles (s.flashBegun p 2) t) ∧
  (∀ (p : HostPort) (s : State), s.flashFree p = true → s.semOwner 63 = p.code → s.flashAt p % 0x1000 = 0 →
    s.flashAt p + 0x1000 ≤ 0x800000 ∨ 0x880000 ≤ s.flashAt p →
    ∃ t, exec (.flashErase4k p) s = .next t ∧ Settles (s.flashBegun p 3) t) ∧
  (∀ (p : HostPort) (s : State), s.flashFree p = true → s.semOwner 63 = p.code → s.flashAt p % 0x10000 = 0 →
    s.flashAt p + 0x10000 ≤ 0x800000 ∨ 0x880000 ≤ s.flashAt p →
    ∃ t, exec (.flashErase64k p) s = .next t ∧ Settles (s.flashBegun p 4) t) ∧
  (∀ (p : HostPort) (i : Instr) (s : State), s.flashFree p = true → s.semOwner 63 ≠ p.code →
    i ∈ [Instr.flashRead p, .flashProgram p, .flashErase4k p, .flashErase64k p] →
    ∃ t, exec i s = .next t ∧ FlashEnds p 1 s t ∧ t.flash = s.flash) ∧
  (∀ (p : HostPort) (c : (HostPort → Instr) × Nat × Nat) (s : State), s.flashFree p = true → s.semOwner 63 = p.code →
    c ∈ flashChange → s.flashAt p % c.2.2 ≠ 0 →
    ∃ t, exec (c.1 p) s = .next t ∧ FlashEnds p 2 s t ∧ t.flash = s.flash) ∧
  (∀ (p : HostPort) (c : (HostPort → Instr) × Nat × Nat) (s : State), s.flashFree p = true → s.semOwner 63 = p.code →
    c ∈ flashChange → s.flashAt p % c.2.2 = 0 → 0x800000 < s.flashAt p + c.2.2 → s.flashAt p < 0x880000 →
    ∃ t, exec (c.1 p) s = .next t ∧ FlashEnds p 3 s t ∧ t.flash = s.flash) ∧
  (∀ (p : HostPort) (s : State), s.flag Reg.HP_FLASH_STATUS_BUSY p.ix = true → (s.hp p).flashOp = 1 →
    (s.hp p).flashAddr + 0x100 ≤ Config.flashBytes →
    ∃ t, exec (.flashOperationDone p .ok) s = .next t ∧ FlashEnds p 0 s t ∧ t.flash = s.flash ∧
      ∀ i, i < 64 → w32 (t.fld Reg.HP_FLASH_BUF_DATA p.ix i) =
        leWord (memRds Config.flashBlank s.flash ((s.hp p).flashAddr + 4 * i) 4)) ∧
  (∀ (p : HostPort) (s : State), s.flag Reg.HP_FLASH_STATUS_BUSY p.ix = true → (s.hp p).flashOp = 2 →
    (s.hp p).flashBuf.length = 64 →
    ∃ t, exec (.flashOperationDone p .ok) s = .next t ∧ FlashEnds p 0 s t ∧
      (∀ i, i < 0x100 → memRd Config.flashBlank t.flash ((s.hp p).flashAddr + i) =
        (wordBytes ((s.hp p).flashBuf.getD (i / 4) 0)).getD (i % 4) 0) ∧
      (∀ x, x < (s.hp p).flashAddr ∨ (s.hp p).flashAddr + 0x100 ≤ x →
        memRd Config.flashBlank t.flash x = memRd Config.flashBlank s.flash x)) ∧
  (∀ (p : HostPort) (c : (HostPort → Instr) × Nat × Nat) (s : State), s.flag Reg.HP_FLASH_STATUS_BUSY p.ix = true →
    c ∈ flashChange → c.2.1 ≠ 2 → (s.hp p).flashOp = c.2.1 →
    ∃ t, exec (.flashOperationDone p .ok) s = .next t ∧ FlashEnds p 0 s t ∧
      ∀ x, memRd Config.flashBlank t.flash x =
        if (s.hp p).flashAddr ≤ x ∧ x < (s.hp p).flashAddr + c.2.2 then 0xFF else memRd Config.flashBlank s.flash x) ∧
  (∀ (p : HostPort) (s : State), s.flag Reg.HP_FLASH_STATUS_BUSY p.ix = true →
    ∃ t, exec (.flashOperationDone p .spi) s = .next t ∧ FlashEnds p 5 s t ∧ ((s.hp p).flashOp = 1 → t.flash = s.flash)) ∧
  (∀ (p : HostPort) (s : State), s.flag Reg.HP_FLASH_STATUS_BUSY p.ix = true →
    ∃ t, exec (.flashTimeout p) s = .next t ∧ FlashEnds p 4 s t ∧ ((s.hp p).flashOp = 1 → t.flash = s.flash))

/-- SYS.ADDR (R40, R111, R124): 0 written to a hub strapped as manager that holds no address makes it the top manager, at address
0, and it announces itself no longer; any other value records RANGE; a worker, or a hub that holds an address, ignores a 0.
The model's choices in it: log 86. -/
def Obligations.TopManager : Prop :=
  (∀ (p : HostPort) (w : Word) (s : State), s.portOpen p = true → s.isManager = true → s.hasAddr = false →
    w.toNat % 0x10000 = 0 →
    ∃ t, exec (.sysAddrWrite p w) s = .next t ∧ t.hasAddr = true ∧ t.flag Reg.SYS_ADDR_TOP = true ∧ t.addr = 0 ∧
      t.sys.announceMs = 0) ∧
  (∀ (p : HostPort) (w : Word) (s : State), s.portOpen p = true → w.toNat % 0x10000 ≠ 0 →
    ∃ t, exec (.sysAddrWrite p w) s = .next t ∧ Settles (s.err .SYS 0 7) t) ∧
  (∀ (p : HostPort) (w : Word) (s : State), s.portOpen p = true → s.isManager = false ∨ s.hasAddr = true →
    w.toNat % 0x10000 = 0 →
    ∃ t, exec (.sysAddrWrite p w) s = .next t ∧ Settles s t)

/-- A hub seeks its manager and joins it (R111 to R116, R563): it announces itself at growing intervals; a manager answers
an entry of its join table with a GRANT and tells of any other UID; a GRANT that names the hub gives it its address,
the sync epoch and its manager; one with another address than the hub holds is ignored, counted and told.
The model's choices in it: log 98, 116. -/
def Obligations.DiscoveryAndJoin : Prop :=
  (∀ (p : NetPort) (s : State), s.booted = true → s.sys.announceMs ≠ 0 → s.flag Reg.SYS_JOIN_STATUS_JOINED = false →
    p ∈ s.seeking → s.linked p = true →
    ∃ t, exec .announceTimer s = .next t ∧ t.sys.announceMs = min (2 * s.sys.announceMs) 3200 ∧
      Sent s t p 1 (AnnounceMsg.body ⟨Config.uid, regRd s.regs 0x108, s.digest⟩)) ∧
  (∀ (p : NetPort) (h : Hdr) (m : AnnounceMsg) (e : Nat) (j : JtEntry) (s : State), s.takes p 1 h = true →
    s.isManager = true → s.usable p = true → s.entryFor p m.uid = some (e, j) → s.flag Reg.TIM_STATUS_EPOCH_VALID = true →
    s.flag Reg.SYS_ADDR_TOP = true ∨ (s.flag Reg.SYS_JOIN_STATUS_JOINED = true ∧ p ≠ .M) →
    ∃ t, exec (.announce p h m) s = .next t ∧
      Sent s t p 2 (GrantMsg.body ⟨m.uid, BitVec.ofNat 16 (s.entryAddr e), s.tim.epoch, j.digest, Config.uid⟩)) ∧
  (∀ (p : NetPort) (h : Hdr) (m : AnnounceMsg) (s : State), s.takes p 1 h = true → s.isManager = true → p.ring = true →
    (∀ e, e ∈ s.net.jt → ¬ (e.2.valid = true ∧ e.2.uid = m.uid)) → (∀ e, e ∈ s.net.unknown → e.1 ≠ m.uid) →
    ∃ t, exec (.announce p h m) s = .next t ∧
      t.fld64 Reg.NET_LAST_UNKNOWN_LO_UID Reg.NET_LAST_UNKNOWN_HI_UID = m.uid.toNat ∧ t.told .NET p.ix 2 = true) ∧
  (∀ (p : NetPort) (h : Hdr) (g : GrantMsg) (s : State), s.booted = true → s.linked p = true → State.admits p 2 = true →
    s.isOwn h = false → s.taken h 2 = false → p ∈ s.seeking → s.hasAddr = false → g.uid = Config.uid →
    ∃ t, exec (.grant p h g) s = .next t ∧ t.hasAddr = true ∧ t.addr = g.addr.toNat ∧ t.tim.epoch = g.epoch ∧
      t.flag Reg.TIM_STATUS_EPOCH_VALID = true ∧ t.flag Reg.SYS_JOIN_STATUS_JOINED = true ∧
      t.fld Reg.NET_MGR_ADDR = h.src.toNat ∧ t.flag Reg.NET_MGR_VALID = true ∧
      t.fld64 Reg.NET_MGR_UID_LO_UID Reg.NET_MGR_UID_HI_UID = g.mgrUid.toNat ∧ t.sys.announceMs = 0 ∧
      t.told .SYS 0 5 = true) ∧
  (∀ (p : NetPort) (h : Hdr) (g : GrantMsg) (s : State), s.booted = true → s.linked p = true → State.admits p 2 = true →
    s.isOwn h = false → s.taken h 2 = false → s.hasAddr = true → g.uid = Config.uid → g.addr.toNat ≠ s.addr →
    ∃ t, exec (.grant p h g) s = .next t ∧ t.told .SYS 0 7 = true ∧ t.hasAddr = true ∧ t.addr = s.addr ∧
      t.fld Reg.SYS_JOIN_STATUS_CONFLICTS = min (s.fld Reg.SYS_JOIN_STATUS_CONFLICTS + 1)
        (2 ^ Reg.SYS_JOIN_STATUS_CONFLICTS.width - 1))

/-- Heartbeat and departure (R564 to R566, R608): a member's HEARTBEAT renews its place in its manager's list, an HB_REPLY of the
manager renews the member's; a member that stays silent leaves the list, and a member whose manager stays silent is joined
to none.
The model's choices in it: log 48. -/
def Obligations.HeartbeatAndDeparture : Prop :=
  (∀ (p : NetPort) (h : Hdr) (m : HeartbeatMsg) (j : JtEntry) (s : State), s.takes p 3 h = true → s.isManager = true →
    h.srcv = true → h.turned = false → s.net.jt.look (s.entryOf h.src.toNat) = some j → j.valid = true → j.uid = m.uid →
    (p = .M ↔ 256 < s.entryOf h.src.toNat) →
    ∃ t, exec (.heartbeat p h m) s = .next t ∧
      t.net.members.look (s.entryOf h.src.toNat) = some
        ⟨m.uid, s.life, m.active, m.standby, p, p, m.session⟩) ∧
  (∀ (p : NetPort) (h : Hdr) (m : HbReplyMsg) (s : State), s.takes p 4 h = true →
    s.flag Reg.SYS_JOIN_STATUS_JOINED = true →
    m.mgrUid.toNat = s.fld64 Reg.NET_MGR_UID_LO_UID Reg.NET_MGR_UID_HI_UID →
    ∃ t, exec (.hbReply p h m) s = .next t ∧ t.net.lastReply = some s.life) ∧
  (∀ (p : NetPort) (s : State), s.booted = true → s.flag Reg.SYS_JOIN_STATUS_JOINED = true → s.isManager = false →
    s.flag Reg.NET_MGR_VALID = true → s.primary = some p →
    ∃ t, exec .heartbeatTimer s = .next t ∧ ∃ f : Frame, Out.frame p f ∈ t.outbox.drop s.outbox.length ∧ f.type = 3 ∧
      f.hdr.dstv = true ∧ f.hdr.dst.toNat = s.fld Reg.NET_MGR_ADDR) ∧
  (∀ (e : Fin 512) (m : Member) (s : State), s.booted = true → s.net.members.look e.val = some m →
    s.past m.lastHb 30 = true →
    ∃ t, exec (.memberDeparted e) s = .next t ∧ t.net.members.look e.val = none ∧
      t.fld Reg.NET_MEMBERS_DEPARTS = (s.fld Reg.NET_MEMBERS_DEPARTS + 1) % 0x10000 ∧ t.told .NET m.port.ix 2 = true) ∧
  (∀ (e : Fin 512) (m : Member) (s : State), s.net.members.look e.val = some m → s.past m.lastHb 30 = false →
    ∃ t, exec (.memberDeparted e) s = .next t ∧ Settles s t) ∧
  (∀ (t0 : Tm) (s : State), s.booted = true → s.flag Reg.SYS_JOIN_STATUS_JOINED = true → s.net.lastReply = some t0 →
    s.past t0 30 = true →
    ∃ t, exec .managerDeparted s = .next t ∧ t.flag Reg.SYS_JOIN_STATUS_JOINED = false ∧ t.flag Reg.NET_MGR_VALID = false ∧
      t.sys.announceMs = 100 ∧ t.told .NET s.joinPort.ix 2 = true ∧ t.hasAddr = s.hasAddr ∧ t.addr = s.addr)

/-- The frames that keep the ring (R558, R559, R565, R568, R569): probes and their replies, beacons and the hop count that
they bring, turning 100 µs after a port went down, and what a RING_STATE tells.
The model's choices in it: log 48, 95, 116. -/
def Obligations.RingUpkeep : Prop :=
  (∀ (p : NetPort) (s : State), s.booted = true → p ≠ .M → s.linked p = true →
    ∃ t, exec .probeTimer s = .next t ∧ Sent s t p 5 (le 8 s.stamp64.toNat) ∧ (t.port p).probeOut = some s.life) ∧
  (∀ (p : NetPort) (t1 : BitVec 64) (s : State), s.booted = true → p ≠ .M → s.linked p = true →
    ∃ t, exec (.probe p t1) s = .next t ∧
      Sent s t p 6 (le 8 t1.toNat ++ le 8 s.stamp64.toNat ++ le 8 s.stamp64.toNat)) ∧
  (∀ (p : NetPort) (t1 t2 t3 : BitVec 64) (s : State), s.booted = true → p ≠ .M → s.linked p = true →
    (s.port p).probeOut.isSome = true →
    ∃ t, exec (.probeReply p t1 t2 t3) s = .next t ∧ (t.port p).probeOut = none ∧ (t.port p).missed = 0) ∧
  (∀ (p : NetPort) (s : State), s.booted = true → s.isManager = true → s.hasAddr = true → p.ring = true →
    s.usable p = true →
    ∃ t, exec .beaconTimer s = .next t ∧ Sent s t p 7 (le 8 Config.uid.toNat)) ∧
  (∀ (p : NetPort) (h : Hdr) (mgr : BitVec 64) (s : State), s.takes p 7 h = true → s.isManager = false → p.ring = true →
    h.turned = false →
    ∃ t, exec (.beacon p h mgr) s = .next t ∧ (t.port p).beacon = some (s.life, h.hops.toNat + 1) ∧
      (t.port p).invalidated = false) ∧
  (∀ (p : NetPort) (b : Tm × Nat) (s : State), (s.port p).beacon = some b →
    b.1 + 30000000 * Config.unitsPerNs < s.life →
    ∃ t, exec (.hopCountExpiry p) s = .next t ∧ (t.port p).beacon = none ∧ t.hops p = none) ∧
  (∀ (p : NetPort) (h : Hdr) (restored failedS : Bool) (s : State), s.takes p 8 h = true →
    ∃ t, exec (.ringState p h restored failedS) s = .next t ∧ t.told .NET p.ix 1 = true ∧
      (restored = false → s.isManager = false → (∃ d, s.hops p = some d ∧ h.hops.toNat + 1 < d) → p.ring = true →
        (t.port p).invalidated = true)) ∧
  (∀ (p : NetPort) (t0 : Tm) (s : State), s.booted = true → p.ring = true → (s.port p).downAt = some t0 →
    t0 + 100000 * Config.unitsPerNs ≤ s.life →
    ∃ t, exec (.ringTurnStart p) s = .next t ∧ (t.port p).downAt = none ∧ t.flag Reg.NET_STATUS_TURNING p.ix = true ∧
      t.told .NET p.ix 1 = true ∧
      (s.usable p.other = true → Sent s t p.other 8 (le 1 1 ++ le 1 p.ix ++ le 2 0))) ∧
  (∀ (p : NetPort) (s : State), s.booted = true → p.ring = true → s.linked p = true → 4 ≤ (s.port p).missed →
    (s.port p).fell = false →
    ∃ t, exec (.probeLoss p) s = .next t ∧ t.usable p = false ∧ (t.port p).fell = true ∧ (t.port p).beacon = none ∧
      t.told .NET p.ix 0 = true ∧ t.fld Reg.NET_LINKS_DOWNS p.ix = (s.fld Reg.NET_LINKS_DOWNS p.ix + 1) % 0x10000)

/-- The mailbox and remote register access (R574 to R577): a request to a joined member is sent under the next TAG of its
address; one to any other address, the last timeout and a response end it; a hub executes a request for a port that is
bound, once for each TAG, and refuses one for a port that is not.
The model's choices in it: log 48, 72, 116. -/
def Obligations.RemoteAccess : Prop :=
  (∀ (p : HostPort) (s : State), s.portOpen p = true → s.flag Reg.NET_RA_STATUS_BUSY = true →
    ∃ t, exec (.raGo p) s = .next t ∧ Settles (s.err .NET 0 0x14) t) ∧
  (∀ (p : HostPort) (s : State), s.portOpen p = true → s.flag Reg.NET_RA_STATUS_BUSY = false →
    (s.memberOf (s.fld Reg.NET_RA_CTRL_DST)).isNone = true →
    ∃ t, exec (.raGo p) s = .next t ∧ t.net.ra = none ∧ t.flag Reg.NET_RA_STATUS_DONE = true ∧
      t.fld Reg.NET_RA_STATUS_RESULT = 3 ∧ t.told .NET 0 3 = true) ∧
  (∀ (p : HostPort) (s : State), s.portOpen p = true → s.flag Reg.NET_RA_STATUS_BUSY = false →
    (s.memberOf (s.fld Reg.NET_RA_CTRL_DST)).isSome = true → s.isManager = true →
    ∃ t, exec (.raGo p) s = .next t ∧ t.flag Reg.NET_RA_STATUS_BUSY = true ∧ ∃ r, t.net.ra = some r ∧
      r.dst = s.fld Reg.NET_RA_CTRL_DST ∧ r.tag = s.nextTag (s.fld Reg.NET_RA_CTRL_DST) ∧ r.sends = 1 ∧
      r.count = s.fld Reg.NET_RA_CTRL_COUNT + 1 ∧ r.addr = s.fld Reg.NET_RA_ADDR_ADDR) ∧
  (∀ (r : RaReq) (s : State), s.net.ra = some r → s.past r.sentAt (s.fld Reg.NET_RA_TIMEOUT_MS) = true → r.sends < 4 →
    ∃ t, exec .raTimeout s = .next t ∧ t.net.ra = some { r with sends := r.sends + 1, sentAt := s.life }) ∧
  (∀ (r : RaReq) (s : State), s.net.ra = some r → s.past r.sentAt (s.fld Reg.NET_RA_TIMEOUT_MS) = true → 4 ≤ r.sends →
    ∃ t, exec .raTimeout s = .next t ∧ t.net.ra = none ∧ t.flag Reg.NET_RA_STATUS_BUSY = false ∧
      t.flag Reg.NET_RA_STATUS_DONE = true ∧ t.fld Reg.NET_RA_STATUS_RESULT = 1) ∧
  (∀ (p : NetPort) (h : Hdr) (m : RegRespMsg) (r : RaReq) (s : State), s.takes p 0x21 h = true → s.net.ra = some r →
    h.srcv = true → h.src.toNat = r.dst → m.tag.toNat = r.tag →
    ∃ t, exec (.regResp p h m) s = .next t ∧ t.net.ra = none ∧ t.flag Reg.NET_RA_STATUS_BUSY = false ∧
      t.flag Reg.NET_RA_STATUS_DONE = true ∧ t.fld Reg.NET_RA_STATUS_RESULT = (if m.result = 0 then 0 else 2) ∧
      (m.result = 0 → r.write = false → ∀ i, i < min r.count 16 → i < m.data.length →
        t.fld Reg.NET_RA_BUF_DATA 0 i = (m.data.getD i 0).toNat)) ∧
  (∀ (p q : NetPort) (h : Hdr) (m : RegReqMsg) (s : State), s.takes p 0x20 h = true → h.srcv = true →
    s.flag Reg.NET_MGR_VALID = true → h.src.toNat = s.fld Reg.NET_MGR_ADDR → s.net.done.look h.src.toNat = none →
    s.bound (if m.portB then .B else .A) = false → s.isManager = false → s.primary = some q →
    ∃ t, exec (.regReq p h m) s = .next t ∧ Sent s t q 0x21 (RegRespMsg.body ⟨m.tag, 2, []⟩) ∧ t.shadow = s.shadow ∧
      t.dram = s.dram ∧ t.net.done = s.net.done) ∧
  (∀ (p q : NetPort) (h : Hdr) (m : RegReqMsg) (k : PageKind) (n : Nat) (s : State), s.takes p 0x20 h = true →
    h.srcv = true → s.flag Reg.NET_MGR_VALID = true → h.src.toNat = s.fld Reg.NET_MGR_ADDR →
    s.net.done.look h.src.toNat = none → s.bound (if m.portB then .B else .A) = true → s.isManager = false →
    s.primary = some q → m.write = false → m.count = 0 → pageHas k n m.addr.toNat = true → m.addr.toNat < 0x11000 →
    s.viewRead k n (m.addr.toNat - pageBase k n) = none →
    ∃ t, exec (.regReq p h m) s = .next t ∧ Sent s t q 0x21 (RegRespMsg.body ⟨m.tag, 0, [s.plainRead m.addr.toNat]⟩) ∧
      t.net.done.look h.src.toNat = some (m.tag.toNat, 0, [s.plainRead m.addr.toNat])) ∧
  (∀ (p q : NetPort) (h : Hdr) (m : RegReqMsg) (result : Nat) (ws : List Word) (s : State), s.takes p 0x20 h = true →
    h.srcv = true → s.flag Reg.NET_MGR_VALID = true → h.src.toNat = s.fld Reg.NET_MGR_ADDR →
    s.net.done.look h.src.toNat = some (m.tag.toNat, result, ws) → s.isManager = false → s.primary = some q →
    ∃ t, exec (.regReq p h m) s = .next t ∧ Sent s t q 0x21 (RegRespMsg.body ⟨m.tag, BitVec.ofNat 16 result, ws⟩) ∧
      t.shadow = s.shadow ∧ t.dram = s.dram ∧ t.net.done = s.net.done) ∧
  (∀ (p : NetPort) (h : Hdr) (portB : Bool) (pend : Word) (s : State), s.takes p 0x22 h = true → s.isManager = true →
    ∃ t, exec (.eventNotice p h portB pend) s = .next t ∧ t.fld Reg.NET_NOTICE_SRC = h.src.toNat ∧
      t.flag Reg.NET_NOTICE_PORT = portB ∧ t.fld Reg.NET_NOTICE_PEND_PEND = pend.toNat ∧ t.told .NET p.ix 3 = true)

/-- The registers of a port and its join table, and the frames that no port admits (R269, R547, R554, R562, R580 to R582).
The model's choices in it: log 127. -/
def Obligations.PortRegisters : Prop :=
  (∀ (p : HostPort) (s : State), s.portOpen p = true → s.jtExists (s.fld Reg.NET_JT_IDX_IDX) = true →
    s.net.members.look (s.fld Reg.NET_JT_IDX_IDX) = none →
    ∃ t, exec (.jtWrite p) s = .next t ∧
      t.net.jt = s.net.jt.put (s.fld Reg.NET_JT_IDX_IDX)
        ⟨BitVec.ofNat 64 (s.fld64 Reg.NET_JT_DATA0_UID Reg.NET_JT_DATA1_UID), w32 (s.fld Reg.NET_JT_DATA2_DIGEST),
          s.flag Reg.NET_JT_DATA3_VALID⟩ ∧
      Settles { s with net := { s.net with jt := t.net.jt } } t) ∧
  (∀ (p : HostPort) (s : State), s.portOpen p = true →
    (s.net.members.look (s.fld Reg.NET_JT_IDX_IDX)).isSome = true →
    ∃ t, exec (.jtWrite p) s = .next t ∧ Settles (s.err .NET 0 0x13) t) ∧
  (∀ (p : HostPort) (v : JtEntry) (s : State), s.portOpen p = true →
    s.net.jt.look (s.fld Reg.NET_JT_IDX_IDX) = some v →
    ∃ t, exec (.jtRead p) s = .next t ∧ t.fld64 Reg.NET_JT_DATA0_UID Reg.NET_JT_DATA1_UID = v.uid.toNat ∧
      t.fld Reg.NET_JT_DATA2_DIGEST = v.digest.toNat ∧ t.flag Reg.NET_JT_DATA3_VALID = v.valid ∧
      t.flag Reg.NET_JT_DATA3_JOINED = (s.net.members.look (s.fld Reg.NET_JT_IDX_IDX)).isSome) ∧
  (∀ (p : HostPort) (np : NetPort) (s : State), s.portOpen p = true →
    ∃ t, exec (.clr p np) s = .next t ∧ t.fld Reg.NET_RX_FRAMES_FRAMES np.ix = 0 ∧
      t.fld Reg.NET_DROPS_A_DROP_TYPE np.ix = 0 ∧ t.fld Reg.NET_DROPS_A_DROP_FCS np.ix = 0 ∧
      t.fld Reg.NET_DROPS_B_DROP_ROUTE np.ix = 0 ∧ t.fld Reg.NET_DROPS_B_DROP_FRAG np.ix = 0 ∧
      t.fld Reg.NET_LINKS_PROBE_LOST np.ix = 0 ∧ t.fld Reg.NET_LINKS_DOWNS np.ix = 0 ∧
      t.fld Reg.NET_TURNED_FRAMES np.ix = 0 ∧
      Settles { s with regs := t.regs } t) ∧
  (∀ (np : NetPort) (s : State), s.booted = true → s.linked np = true →
    ∃ t, exec (.unadmittedFrame np .fcs) s = .next t ∧
      Settles (s.setFld Reg.NET_DROPS_A_DROP_FCS np.ix 0 (s.fld Reg.NET_DROPS_A_DROP_FCS np.ix + 1)) t) ∧
  (∀ (np : NetPort) (s : State), s.booted = true → s.linked np = true →
    ∃ t, exec (.unadmittedFrame np .other) s = .next t ∧
      Settles ((s.setFld Reg.NET_RX_FRAMES_FRAMES np.ix 0 (s.fld Reg.NET_RX_FRAMES_FRAMES np.ix + 1)).setFld
        Reg.NET_DROPS_A_DROP_TYPE np.ix 0 (s.fld Reg.NET_DROPS_A_DROP_TYPE np.ix + 1)) t) ∧
  (∀ (np : NetPort) (b : BadFrame) (s : State), s.booted = true → s.linked np = false →
    ∃ t, exec (.unadmittedFrame np b) s = .next t ∧ Settles s t)

/-- The links of the ports (R550, R568, R570, R583): a port that loses its link goes down, is counted and told; its link comes
back, and a ring port that fell is restored once every probe has been answered for RESTORE.
The model's choices in it: log 96. -/
def Obligations.LinkChanges : Prop :=
  (∀ (p : NetPort) (c : DownCause) (s : State), s.sys.inReset = false → s.linked p = true →
    ∃ t, exec (.linkDown p c) s = .next t ∧ t.linked p = false ∧ t.usable p = false ∧ (t.port p).fell = true ∧
      t.told .NET p.ix 0 = true ∧ t.fld Reg.NET_LINKS_DOWNS p.ix = (s.fld Reg.NET_LINKS_DOWNS p.ix + 1) % 0x10000 ∧
      (c = .los → t.flag Reg.NET_STATUS_LOS p.ix = true)) ∧
  (∀ (p : NetPort) (m : Option Byte) (s : State), s.sys.inReset = false → s.flag Reg.NET_STATUS_EN p.ix = true →
    s.flag Reg.NET_STATUS_LINK p.ix = false →
    ∃ t, exec (.linkUp p m) s = .next t ∧ t.linked p = true ∧ t.flag Reg.NET_STATUS_LOS p.ix = false ∧
      t.fld Reg.NET_MOD_ID_ID p.ix = (m.map (·.toNat)).getD 0 ∧
      t.usable p = !((s.port p).fell && decide (p ≠ .M)) ∧ t.told .NET p.ix 0 = true) ∧
  (∀ (p : NetPort) (t0 : Tm) (s : State), s.booted = true → s.linked p = true → s.usable p = false →
    (s.port p).restoring = some t0 → s.past t0 (s.fld Reg.NET_RESTORE_MS p.ix) = true →
    ∃ t, exec (.restoreExpiry p) s = .next t ∧ t.usable p = true ∧ (t.port p).fell = false ∧
      t.flag Reg.NET_STATUS_TURNING p.ix = false ∧
      (p.ring = true → Sent s t p 8 (le 1 2 ++ le 1 p.ix ++ le 2 0)))

/-- Frames of the twin (R590, R592, R593, R597, R598, R603, R611, R618): what each leaves in the member that takes it.
The model's choices in it: log 54, 59. -/
def Obligations.TwinFrames : Prop :=
  (∀ (m : TwRoleMsg) (s : State), s.twinOpen = true →
    ∃ t, exec (.twRole m) s = .next t ∧ t.fld Reg.TWN_STATUS_TWIN_ROLE = m.role.val ∧ t.twn.twinJoined = m.joined ∧
      t.twn.twinImage = m.imageVer ∧ t.twn.twinUsable = m.usable ∧
      t.fld64 Reg.TWN_TWIN_UID_LO_UID Reg.TWN_TWIN_UID_HI_UID = m.uid.toNat) ∧
  (∀ (m : TwRoleMsg) (s : State), s.twinOpen = true → s.usable .T = true → s.role = 0 → m.role.val = 1 → m.request.val = 0 →
    ∃ t, exec (.twRole m) s = .next t ∧ t.role = 4 ∧ t.fld Reg.TWN_STATUS_PHASE = 1) ∧
  (∀ (m : TwRoleMsg) (s : State), s.twinOpen = true → s.role = 2 → s.twn.handover = none → m.request.val = 1 →
    ∃ t, exec (.twRole m) s = .next t ∧ ∃ h, t.twn.handover = some h ∧ h.kH = m.kH ∧ h.yields = false ∧ h.past = false) ∧
  (∀ (phase : Fin 6) (off : Nat) (bs : List Byte) (s : State), s.twinOpen = true → s.role = 4 →
    ∃ t, exec (.twCopy phase off bs) s = .next t ∧ t.twn.copied = s.twn.copied + bs.length ∧
      ∀ i, i < bs.length → t.twn.store.look (0x10000000000 * phase.val + off + i) = some (bs.getD i 0)) ∧
  (∀ (m : TwSampleMsg) (s : State), s.twinOpen = true → s.role = 4 → s.fld Reg.TWN_STATUS_PHASE < 4 → s.twn.handover = none →
    ∃ t, exec (.twSample m) s = .next t ∧ t.twn.kept = s.twn.kept ++ [m] ∧ t.twn.nextK = s.twn.nextK) ∧
  (∀ (m : TwSampleMsg) (s : State), s.twinOpen = true → s.role = 2 → s.twn.handover = none → s.twn.nextK ≤ m.k →
    ∃ t, exec (.twSample m) s = .next t ∧ t.twn.nextK = m.k + 1 ∧ t.twn.prov = m.prov ∧ t.twn.hold = m.hold) ∧
  (∀ (k : Int) (es : List TwEntry) (s : State), s.twinOpen = true → s.role = 2 → s.twn.handover = none → s.twn.nextK ≤ k →
    ∃ t, exec (.twEvent k es) s = .next t ∧ t.twn.events = s.twn.events ++ es.map (fun e => (k, e))) ∧
  (∀ (k : Int) (es : List TwEntry) (s : State), s.twinOpen = true → s.role = 4 → s.fld Reg.TWN_STATUS_PHASE < 4 →
    ∃ t, exec (.twEvent k es) s = .next t ∧ t.twn.keptEvents = s.twn.keptEvents ++ [(k, es)])

/-- The comparison of a pair (R597 to R600, R605): a check value that meets its counterpart gives the verdict OK or a
digital mismatch; a verdict OK releases its block; a missing entry is a mismatch; a window of the analog cross-check
ends.
The model's choices in it: log 48. -/
def Obligations.TwinComparison : Prop :=
  (∀ (e : TwCheckMsg) (s : State), s.twinOpen = true → s.role = 2 →
    (∀ r, r ∈ s.twn.own → State.sameCheck r e.control e.stream.val e.n.toNat = false) →
    ∃ t, exec (.twCheck [e]) s = .next t ∧
      t.twn.got = s.twn.got ++ [⟨e.control, e.stream.val, e.n.toNat, e.crc, s.life⟩]) ∧
  (∀ (e : TwCheckMsg) (r : TwCheckRec) (s : State), s.twinOpen = true → s.role = 2 →
    s.twn.own.find? (fun r => State.sameCheck r e.control e.stream.val e.n.toNat) = some r → r.crc = e.crc →
    ∃ t, exec (.twCheck [e]) s = .next t ∧ t.fld Reg.TWN_CHECKED = (s.fld Reg.TWN_CHECKED + 1) % 0x100000000 ∧
      Sent s t .T 0x43 (State.checkEntry e.control e.stream.val e.n.toNat e.crc 0) ∧ t.twn.heldBack = s.twn.heldBack) ∧
  (∀ (e : TwCheckMsg) (r : TwCheckRec) (s : State), s.twinOpen = true → s.role = 2 →
    s.twn.own.find? (fun r => State.sameCheck r e.control e.stream.val e.n.toNat) = some r → r.crc ≠ e.crc →
    ∃ t, exec (.twCheck [e]) s = .next t ∧
      t.fld Reg.TWN_COUNTS_MISMATCH = (s.fld Reg.TWN_COUNTS_MISMATCH + 1) % 0x10000 ∧ t.twn.heldBack = true ∧
      t.twn.selfRun.isSome = true ∧ t.told .TWN 0 1 = true ∧
      Sent s t .T 0x43 (State.checkEntry e.control e.stream.val e.n.toNat e.crc 1)) ∧
  (∀ (e : TwCheckMsg) (b : Block) (s : State), s.twinOpen = true → s.leads = true → s.flag Reg.TWN_STATUS_LINK = true →
    e.control = false → b ∈ (s.stream e.stream.val).blocks → w32 b.bseq = e.n →
    ∃ t, exec (.twVerdict [(e, 0)]) s = .next t ∧ (e.stream.val, b.bseq) ∈ t.twn.okd ∧
      t.fld Reg.TWN_CHECKED = (s.fld Reg.TWN_CHECKED + 1) % 0x100000000) ∧
  (∀ (e : TwCheckMsg) (s : State), s.twinOpen = true → s.leads = true →
    ∃ t, exec (.twVerdict [(e, 1)]) s = .next t ∧ t.twn.heldBack = true ∧ t.twn.selfRun.isSome = true ∧
      t.told .TWN 0 1 = true) ∧
  (∀ (r : TwCheckRec) (s : State), s.sys.straps.pair = true → s.role = 2 →
    s.twn.own.find? (fun r => s.past r.at_ 10) = some r →
    ∃ t, exec .verdictMissing s = .next t ∧ t.twn.heldBack = true ∧ t.twn.selfRun.isSome = true ∧
      t.told .TWN 0 1 = true ∧ r ∉ t.twn.own) ∧
  (∀ (ch : Fin 256) (x : XWin) (s : State), s.sys.straps.pair = true → s.role = 2 → s.twn.cross.look ch.val = some x →
    s.fld Reg.TWN_XCHK_XWIN * 256 ≤ x.n → x.bad = true →
    ∃ t, exec (.xchkWindowEnd ch) s = .next t ∧
      Settles { s with twn := { s.twn with cross := s.twn.cross.put ch.val ⟨0, 0, false, x.fails⟩ } } t) ∧
  (∀ (ch : Fin 256) (x : XWin) (s : State), s.sys.straps.pair = true → s.role = 2 → s.twn.cross.look ch.val = some x →
    s.fld Reg.TWN_XCHK_XWIN * 256 ≤ x.n → x.bad = false →
    x.sum.natAbs * 1000000 ≤ s.fld Reg.TWN_XCHK_XTOL * 2147483648 * x.n →
    ∃ t, exec (.xchkWindowEnd ch) s = .next t ∧
      Settles { s with twn := { s.twn with cross := s.twn.cross.put ch.val ⟨0, 0, false, 0⟩ } } t) ∧
  (∀ (ch : Fin 256) (x : XWin) (s : State), s.sys.straps.pair = true → s.role = 2 → s.twn.cross.look ch.val = some x →
    s.fld Reg.TWN_XCHK_XWIN * 256 ≤ x.n → x.bad = false →
    s.fld Reg.TWN_XCHK_XTOL * 2147483648 * x.n < x.sum.natAbs * 1000000 → s.fld Reg.TWN_XCHK_XCOUNT ≤ x.fails + 1 →
    s.twn.selfRun = none →
    ∃ t, exec (.xchkWindowEnd ch) s = .next t ∧ t.told .TWN 0 2 = true ∧ t.flag Reg.TWN_STATUS_CHECKING = true ∧
      t.fld Reg.TWN_COUNTS_MISMATCH = (s.fld Reg.TWN_COUNTS_MISMATCH + 1) % 0x10000 ∧
      ∃ r, t.twn.selfRun = some r ∧ r.analog = true ∧ r.chan = ch.val)

/-- Self-checks, the heartbeat of the pair and the shared drive (R67, R68, R589, R601 to R604, R620): one self-check runs at a
time; its result is shown and told to the twin, a word of queue memory with a parity failure fails test 3, and an analog check
ends once its readings are taken; a standby whose own check fails and whose twin's passes has FAILED; a result that does not come
in 1 s counts as FAIL. TWHB_OUT toggles, and TWHB_IN counts as silent after TIMEOUT without an edge. Of two members that raise
DRIVE_EN within 1 µs the odd one gives way.
The model's choices in it: log 48. -/
def Obligations.SelfCheckAndDrive : Prop :=
  (∀ (p : HostPort) (s : State), s.portOpen p = true → s.sys.straps.pair = true → s.twn.selfRun = none →
    ∃ t, exec (.selfcheck p) s = .next t ∧
      Settles ({ s with twn := { s.twn with selfRun := some { (default : SelfRun) with host := true } } }.setFld
        Reg.TWN_STATUS_CHECKING 0 0 1) t) ∧
  (∀ (p : HostPort) (r : SelfRun) (s : State), s.portOpen p = true → s.twn.selfRun = some r →
    ∃ t, exec (.selfcheck p) s = .next t ∧ Settles s t) ∧
  (∀ (r : SelfRun) (s : State), s.twn.selfRun = some r → r.host = true → r.analog = false → s.sramFails = false →
    ∃ t, exec (.selfcheckDone none) s = .next t ∧ t.twn.selfRun = none ∧ t.fld Reg.TWN_SELF_OWN = 1 ∧
      t.flag Reg.TWN_STATUS_CHECKING = false ∧ t.role = s.role) ∧
  (∀ (r : SelfRun) (s : State), s.twn.selfRun = some r → r.analog = false → s.sramFails = true →
    ∃ t, exec (.selfcheckDone none) s = .next t ∧ t.fld Reg.TWN_SELF_OWN = 2 ∧ t.fld Reg.TWN_SELF_TEST = 3) ∧
  (∀ (r : SelfRun) (x : SelfResult) (s : State), s.twn.selfRun = some r → r.analog = true → r.host = false → r.ended = true →
    r.own = 0 →
    ∃ t, exec (.selfcheckDone x) s = .next t ∧ t.fld Reg.TWN_SELF_OWN = (if r.fails then 2 else 1) ∧
      t.fld Reg.TWN_SELF_TEST = (if r.fails then 4 else 0)) ∧
  (∀ (r : SelfRun) (x : SelfResult) (s : State), s.twn.selfRun = some r → r.analog = true → r.ended = false →
    ∃ t, exec (.selfcheckDone x) s = .next t ∧ Settles s t) ∧
  (∀ (r : SelfRun) (x : SelfResult) (s : State), s.twn.selfRun = some r → r.host = false → r.analog = false → r.twin = 0 →
    x.isSome = true ∨ s.sramFails = false →
    ∃ t, exec (.selfcheckDone x) s = .next t ∧ t.fld Reg.TWN_SELF_OWN = (if x.isSome then 2 else 1) ∧
      t.twn.selfRun = some { r with
        own := if x.isSome then 2 else 1
        ownAt := s.life
        test := (x.map (·.val)).getD 0 }) ∧
  (∀ (r : SelfRun) (x : Fin 5) (s : State), s.sys.straps.pair = true → s.role = 2 → s.twn.selfRun = some r →
    r.host = false → r.analog = false → r.twin = 1 →
    ∃ t, exec (.selfcheckDone (some x)) s = .next t ∧ t.role = 5 ∧ t.twn.selfRun = none) ∧
  (∀ (r : SelfRun) (s : State), s.twn.selfRun = some r → r.own ≠ 0 → r.twin = 0 → s.past r.ownAt 1000 = true →
    ∃ t, exec .selfcheckResultTimeout s = .next t ∧ t.twn.selfRun = none ∧ t.fld Reg.TWN_SELF_TWIN = 2) ∧
  (∀ s : State, s.booted = true → s.sys.straps.pair = true →
    ∃ t, exec .twhbToggle s = .next t ∧ Settles { s with twn := { s.twn with twhbOut := !s.twn.twhbOut } } t) ∧
  (∀ (silent : Bool) (s : State), s.booted = true → s.sys.straps.pair = true →
    s.flag Reg.TWN_STATUS_TWHB_LIVE = silent →
    silent = false ∨ (∀ t0, s.twn.twhbEdge = some t0 →
      t0 + s.fld Reg.TWN_TWHB_CFG_TIMEOUT * 1000 * Config.unitsPerNs ≤ s.life) →
    ∃ t, exec (.twhbSilent silent) s = .next t ∧ t.flag Reg.TWN_STATUS_TWHB_LIVE = !silent ∧ t.told .TWN 0 5 = true) ∧
  (∀ (level : Bool) (s : State), s.sys.inReset = false →
    ∃ t, exec (.driveMonChange level) s = .next t ∧ t.pins.driveMon = level ∧ t.flag Reg.TWN_STATUS_DRIVE_MON = level) ∧
  (∀ s : State, s.sys.inReset = false → s.twn.drive = true → s.sys.straps.pair = true → s.sys.straps.twin = true →
    s.life ≤ s.twn.driveAt + 1000 * Config.unitsPerNs →
    ∃ t, exec (.driveMonChange true) s = .next t ∧ t.twn.drive = false ∧ t.role = 3)

/-- Roles and handover (R585, R590, R606, R607, R610, R611, R614, R618), with the roles 0 SETTLING, 1 ACTIVE, 2 STANDBY,
3 UNCOMPARED, 4 RESYNC and 5 FAILED. TW_ROLE goes out at its timer; a host's YIELD on the active member plans a handover, alone
where no standby is there; REJOIN brings a FAILED member to SETTLING, and does nothing in another role or an unpaired hub; the
manager's GRANT, CONFIRM and YIELD are acted on from a bound port with the hub's own address, CONFIRM is refused elsewhere; a
settling member becomes active where its twin cannot; NETYIELD's expiry plans a handover; at K_H the yielding member ends its
drive and the taking one begins its own and is active; at the end of the blend the handover is over; a standby whose twin's
frames are lost is UNCOMPARED; blocks kept uncompared go after OUTAGE; and a phase of resynchronisation ends. The model's choices
in it: log 56, 59, 105, 106. -/
def Obligations.RolesAndHandover : Prop :=
  (∀ s : State, s.twinOpen = true →
    ∃ t, exec .twRoleTimer s = .next t ∧ ∃ f : Frame, Out.frame .T f ∈ t.outbox.drop s.outbox.length ∧ f.type = 0x44) ∧
  (∀ (p : HostPort) (s : State), s.portOpen p = true → s.sys.straps.pair = true → s.role = 1 → s.twn.handover = none →
    ∃ t, exec (.yield p) s = .next t ∧ ∃ h, t.twn.handover = some h ∧ h.yields = true ∧ h.cause = 5 ∧ h.past = false ∧
      h.alone = !(s.flag Reg.TWN_STATUS_LINK && decide (s.fld Reg.TWN_STATUS_TWIN_ROLE = 2)) ∧
      (h.alone = true → h.kH = s.tim.k + 1)) ∧
  (∀ (p : HostPort) (s : State), s.portOpen p = true → s.sys.straps.pair = true → s.role = 5 →
    ∃ t, exec (.rejoinTwin p) s = .next t ∧ t.role = 0 ∧ t.told .TWN 0 0 = true) ∧
  (∀ (p : HostPort) (s : State), s.portOpen p = true → s.sys.straps.pair = false ∨ s.role ≠ 5 →
    ∃ t, exec (.rejoinTwin p) s = .next t ∧ Settles s t) ∧
  (∀ (p : HostPort) (a : BitVec 16) (s : State), s.booted = true → s.bound p = true → s.sys.straps.pair = true →
    s.hasAddr = true → a.toNat = s.addr → s.role = 0 ∨ s.role = 2 ∨ s.role = 3 ∨ s.role = 4 → s.pins.driveMon = false →
    ∃ t, exec (.mgrCmdGrant p a) s = .next t ∧ t.twn.activeDue = some 4 ∧ t.told .TWN 0 7 = true) ∧
  (∀ (p : HostPort) (a : BitVec 16) (s : State), s.booted = true → s.bound p = true → s.sys.straps.pair = true →
    s.hasAddr = true → a.toNat = s.addr → s.role = 0 ∨ s.role = 2 ∨ s.role = 3 ∨ s.role = 4 → s.pins.driveMon = false →
    s.flag Reg.TWN_STATUS_TWHB_LIVE = false →
    ∃ t, exec (.mgrCmdConfirm p a) s = .next t ∧ t.twn.activeDue = some 3 ∧ t.told .TWN 0 7 = true) ∧
  (∀ (p : HostPort) (a : BitVec 16) (s : State), s.booted = true → s.bound p = true → s.sys.straps.pair = true →
    s.hasAddr = true → a.toNat = s.addr → s.role = 1 → s.twn.handover = none →
    ∃ t, exec (.mgrCmdYield p a) s = .next t ∧ t.told .TWN 0 7 = true ∧
      ∃ h, t.twn.handover = some h ∧ h.yields = true ∧ h.cause = 5) ∧
  (∀ (p : HostPort) (a : BitVec 16) (s : State), s.portOpen p = true →
    ∃ t, exec (.mgrCmdConfirm p a) s = .next t ∧ t.twn.activeDue = s.twn.activeDue ∧
      t.fld Reg.COMMON_ERRCODE_CAUSE 0xA0 = 0x11) ∧
  (∀ s : State, s.booted = true → s.sys.straps.pair = true → s.role = 0 → s.flag Reg.TWN_STATUS_LINK = true →
    s.fld Reg.TWN_STATUS_TWIN_ROLE = 5 ∨ (s.fld Reg.TWN_STATUS_TWIN_ROLE = 0 ∧ s.sys.straps.twin = false) →
    s.flag Reg.SYS_JOIN_STATUS_JOINED = true → s.pins.driveMon = false → s.pins.testen = false →
    ∃ t, exec .becomeActiveAtStart s = .next t ∧ t.role = 1 ∧ t.twn.drive = true) ∧
  (∀ (t0 : Tm) (s : State), s.booted = true → s.sys.straps.pair = true → s.role = 1 → s.twn.handover = none →
    s.twn.netLost = some t0 → s.fld Reg.TWN_TW_CFG_NETYIELD ≠ 0 → s.past t0 (s.fld Reg.TWN_TW_CFG_NETYIELD) = true →
    ∃ t, exec .netyieldExpiry s = .next t ∧ ∃ h, t.twn.handover = some h ∧ h.yields = true ∧ h.cause = 7) ∧
  (∀ (h : Handover) (s : State), s.sys.straps.pair = true → s.twn.handover = some h → h.past = false → h.alone = false →
    h.yields = true → h.acked = true → h.kH ≤ s.tim.k →
    ∃ t, exec .handoverInstant s = .next t ∧ t.twn.handover = some { h with past := true } ∧ t.twn.drive = false ∧
      t.twn.blendLeft = s.fld Reg.TWN_TW_CFG_XBLEND) ∧
  (∀ (h : Handover) (s : State), s.sys.straps.pair = true → s.twn.handover = some h → h.past = false → h.alone = false →
    h.yields = false → h.kH ≤ s.tim.k → s.twn.drive = false → s.pins.driveMon = false → s.pins.testen = false →
    ∃ t, exec .handoverInstant s = .next t ∧ t.twn.handover = some { h with past := true } ∧ t.twn.drive = true ∧
      t.role = 1) ∧
  (∀ (h : Handover) (s : State), s.sys.straps.pair = true → s.twn.handover = some h → h.past = true → h.yields = true →
    s.twn.blendLeft = 0 →
    ∃ t, exec .handoverBlendEnd s = .next t ∧ t.twn.handover = none ∧ t.role = (if h.toFailed then 5 else 2)) ∧
  (∀ (c : Fin 3) (s : State), s.booted = true → s.sys.straps.pair = true → s.role = 2 → s.twn.handover = none →
    s.frameMissing c = true →
    ∃ t, exec (.twSampleLoss c) s = .next t ∧ t.role = 3 ∧ t.flag Reg.TWN_STATUS_LINK = false ∧
      t.twn.blendLeft = s.fld Reg.TWN_TW_CFG_XBLEND) ∧
  (∀ (st : Fin 64) (b : Block) (rest : List Block) (s : State), s.uncompared = true → (s.stream st.val).blocks = b :: rest →
    b.closedNs + s.fld Reg.CRY_S_OUTAGE_MS 0 st.val * 1000000 ≤ s.lifeNs →
    ∃ t, exec (.uncomparedBlockRelease st) s = .next t ∧ (t.stream st.val).blocks = rest) ∧
  (∀ (c : ResyncCopy) (s : State), s.sys.straps.pair = true → s.role = 1 → 0 < s.fld Reg.TWN_STATUS_PHASE →
    s.fld Reg.TWN_STATUS_PHASE < 5 →
    ∃ t, exec (.resyncPhaseEnd c) s = .next t ∧ t.fld Reg.TWN_STATUS_PHASE = s.fld Reg.TWN_STATUS_PHASE + 1 ∧
      Out.copy (s.fld Reg.TWN_STATUS_PHASE + 1) (s.copyOf (s.fld Reg.TWN_STATUS_PHASE + 1)) ∈ t.outbox) ∧
  (∀ (c : ResyncCopy) (s : State), s.sys.straps.pair = true → s.role = 4 → s.fld Reg.TWN_STATUS_PHASE = 5 →
    ∃ t, exec (.resyncPhaseEnd c) s = .next t ∧ t.role = 2 ∧ t.fld Reg.TWN_STATUS_PHASE = 0 ∧ t.twn.store = [])

/-- PTP messages (R268 to R273, R279 to R281): what an admitted message of the master that the hub follows leaves in its path, what
a worker forwards and what a manager answers; a Follow_Up that is forwarded carries the hub's own rate; the grandmaster of the best
Announce on port M is shown; what the timers of a master port and of a slave port send. A message of another domain or version is
dropped and counted.
The model's choices in it: log 127, 140. -/
def Obligations.PtpMessages : Prop :=
  (∀ (p : NetPort) (m : PtpMsg) (residence : Int) (s : State), s.booted = true → s.linked p = true →
    s.ptpAdmits p m.domain.toNat m.version = true → s.isManager = false → m.oneStep = false →
    ∃ t, exec (.ptpSync p m residence) s = .next t ∧
      (t.path p).sync = some (m.seq, s.stampAt m.fine, m.correction) ∧
      Out.ptp (s.ptpOut p) (s.ptpFrame 0 m.seq (m.correction + residence + s.asym p) m.stamp none none) ∈
        t.outbox.drop s.outbox.length) ∧
  (∀ (m : PtpMsg) (residence : Int) (s : State), s.booted = true → s.linked .M = true →
    s.ptpAdmits .M m.domain.toNat m.version = true → s.hears .M m.sender = true → m.oneStep = true →
    ∃ t, exec (.ptpSync .M m residence) s = .next t ∧
      (t.path .M).t12 = some (m.stamp, s.stampAt m.fine, m.correction + s.asym .M)) ∧
  (∀ (m : PtpMsg) (residence : Int) (s : State), s.booted = true → s.linked .M = true →
    s.ptpAdmits .M m.domain.toNat m.version = true → s.hears .M m.sender = true → m.oneStep = false →
    ∃ t, exec (.ptpSync .M m residence) s = .next t ∧
      (t.path .M).sync = some (m.seq, s.stampAt m.fine, m.correction)) ∧
  (∀ (p : NetPort) (m : PtpMsg) (residence : Int) (s : State), s.booted = true → s.linked p = true →
    s.ptpAdmits p m.domain.toNat m.version = false →
    ∃ t, exec (.ptpSync p m residence) s = .next t ∧
      t.fld Reg.NET_DROPS_A_DROP_TYPE p.ix = (s.fld Reg.NET_DROPS_A_DROP_TYPE p.ix + 1) % 0x10000 ∧
      t.fld Reg.TIM_PTP_DROP_DROPS = min (s.fld Reg.TIM_PTP_DROP_DROPS + 1) 0xFFFFFFFF ∧
      t.fld Reg.NET_RX_FRAMES_FRAMES p.ix = (s.fld Reg.NET_RX_FRAMES_FRAMES p.ix + 1) % 0x100000000 ∧ t.tim = s.tim) ∧
  (∀ (p : NetPort) (m : PtpMsg) (t2 : Tm) (c : Int) (s : State), s.booted = true → s.linked p = true →
    s.ptpAdmits p m.domain.toNat m.version = true → s.hears p m.sender = true → (s.path p).sync = some (m.seq, t2, c) →
    ∃ t, exec (.ptpFollowUp p m) s = .next t ∧ (t.path p).t12 = some (m.stamp, t2, c + m.correction + s.asym p) ∧
      (t.path p).sync = none ∧ (t.path p).upHold = m.tlvFlags.toNat.testBit 1 ∧
      (m.tlvFlags.toNat.testBit 2 = true → (t.path p).tlv = some (m.tlvRate, s.life))) ∧
  (∀ (p : NetPort) (m : PtpMsg) (s : State), s.booted = true → s.linked p = true →
    s.ptpAdmits p m.domain.toNat m.version = true → s.isManager = false →
    ∃ t, exec (.ptpFollowUp p m) s = .next t ∧
      Out.ptp (s.ptpOut p) (s.ptpFrame 8 m.seq m.correction m.stamp (some s.rateTlv) none) ∈ t.outbox.drop s.outbox.length) ∧
  (∀ (p : NetPort) (m : PtpMsg) (residence : Int) (s : State), s.booted = true → s.linked p = true →
    s.ptpAdmits p m.domain.toNat m.version = true → s.isManager = true → p ≠ .M →
    ∃ t, exec (.ptpDelayReq p m residence) s = .next t ∧
      Settles ((s.bump Reg.NET_RX_FRAMES_FRAMES p.ix 0).sendPtp p 9 m.seq m.correction (s.stampAt m.fine) none) t) ∧
  (∀ (p : NetPort) (m : PtpMsg) (residence : Int) (s : State), s.booted = true → s.linked p = true →
    s.ptpAdmits p m.domain.toNat m.version = true → s.isManager = false →
    ∃ t, exec (.ptpDelayReq p m residence) s = .next t ∧
      Settles ((s.bump Reg.NET_RX_FRAMES_FRAMES p.ix 0).sendPtp (s.ptpOut p) 1 m.seq
        (m.correction + residence - s.asym (s.ptpOut p)) m.stamp none) t) ∧
  (∀ (p : NetPort) (m : PtpMsg) (t1 t2 t3 : Tm) (cs : Int) (s : State), s.booted = true → s.linked p = true →
    s.ptpAdmits p m.domain.toNat m.version = true → m.forUs = true → (s.path p).t12 = some (t1, t2, cs) →
    (s.path p).t3 = some (m.seq, t3) →
    ∃ t, exec (.ptpDelayResp p m) s = .next t ∧ (t.path p).doneAt = some s.life ∧ (t.path p).t12 = none ∧
      ∃ mpd : Int, mpd = rdiv (((t2 : Int) - t1 - cs) + ((m.stamp : Int) - t3 - (m.correction - s.asym p))) 2 ∧
        (t.path p).recent = ((mpd, (t2 : Int) - t1 - cs - mpd) :: (s.path p).recent).take 16) ∧
  (∀ (m : PtpAnnounceMsg) (s : State), s.booted = true → s.linked .M = true → s.ptpAdmits .M m.domain.toNat m.version = true →
    s.bestMaster m = true →
    ∃ t, exec (.ptpAnnounce .M m) s = .next t ∧ t.tim.gm = some (m, s.life) ∧
      t.fld64 Reg.TIM_GM_ID_LO_ID Reg.TIM_GM_ID_HI_ID = m.gmId.toNat ∧
      t.fld Reg.TIM_GM_QUAL_CLASS = m.clockClass.toNat ∧ t.fld Reg.TIM_GM_QUAL_ACCURACY = m.accuracy.toNat ∧
      t.fld Reg.TIM_GM_QUAL_VARIANCE = m.variance.toNat ∧ t.fld Reg.TIM_UTC_OFFSET = m.utcOffset.toNat ∧
      t.flag Reg.TIM_UTC_VALID = m.utcValid ∧
      (s.fld64 Reg.TIM_GM_ID_LO_ID Reg.TIM_GM_ID_HI_ID ≠ m.gmId.toNat → t.told .TIM 0 5 = true)) ∧
  (∀ (m : PtpAnnounceMsg) (s : State), s.booted = true → s.linked .M = true → s.ptpAdmits .M m.domain.toNat m.version = true →
    s.bestMaster m = false →
    ∃ t, exec (.ptpAnnounce .M m) s = .next t ∧ Settles (s.bump Reg.NET_RX_FRAMES_FRAMES NetPort.M.ix 0) t) ∧
  (∀ (p : NetPort) (fine : Fin 640) (s : State), s.booted = true → s.linked p = true → s.isManager = true → p.ring = true →
    ∃ t, exec (.syncIntervalTimer ⟨p, fine⟩) s = .next t ∧
      Settles (({ s with tim := { s.tim with seq := s.tim.seq + 1 } }.sendPtp p 0 s.tim.seq 0 0 none).sendPtp
        p 8 s.tim.seq 0 (s.stampAt fine) (some s.rateTlv)) t) ∧
  (∀ (p : NetPort) (fine : Fin 640) (s : State), s.booted = true → s.linked p = true →
    (p.ring = true ∧ s.isManager = false) ∨ (p = .M ∧ s.isManager = true) →
    ∃ t, exec (.syncIntervalTimer ⟨p, fine⟩) s = .next t ∧ (t.path p).t3 = some (s.tim.seq, s.stampAt fine) ∧
      Out.ptp p (s.ptpFrame 1 s.tim.seq (-(s.asym p)) 0 none none) ∈ t.outbox.drop s.outbox.length) ∧
  (∀ (p : NetPort) (s : State), s.booted = true → s.linked p = true → s.isManager = true → p.ring = true →
    ∃ t, exec (.ptpAnnounceTimer p) s = .next t ∧
      Settles ({ s with tim := { s.tim with seq := s.tim.seq + 1 } }.sendPtp p 0xB s.tim.seq 0 s.now none
        (some s.announced)) t)

/-- The counter and the time states as a host and an evaluation find them (R265, R267, R281 to R283, R294): SNAP copies the
counter; ACCEPT of an available path makes it the trusted one; locked time with no path available goes to holdover. -/
def Obligations.CounterAndTimeState : Prop :=
  (∀ (p : HostPort) (s : State), s.portOpen p = true →
    ∃ t, exec (.snap p) s = .next t ∧
      t.fld Reg.TIM_SNAP_LO_NS + 0x100000000 * t.fld Reg.TIM_SNAP_HI_NS = s.now / 0x10000 ∧
      t.fld Reg.TIM_SNAP_FRAC_FRAC = s.now % 0x10000 ∧ t.tim = s.tim) ∧
  (∀ (p : HostPort) (s : State), s.portOpen p = true → s.availNow .N = true →
    ∃ t, exec (.acceptN p) s = .next t ∧ t.trust = 1 ∧ t.told .TIM 0 3 = true ∧
      t.fld Reg.TIM_PATH_REF_D 0 0 = toU8 (s.dPath .N) ∧ t.tim.acceptNow = decide (s.timeState = 3)) ∧
  (∀ (p : HostPort) (s : State), s.portOpen p = true → s.availNow .S = true →
    ∃ t, exec (.acceptS p) s = .next t ∧ t.trust = 2 ∧ t.told .TIM 0 3 = true ∧
      t.fld Reg.TIM_PATH_REF_D 0 1 = toU8 (s.dPath .S) ∧ t.tim.acceptNow = decide (s.timeState = 3)) ∧
  (∀ (p : HostPort) (s : State), s.portOpen p = true → s.availNow .M = true →
    ∃ t, exec (.acceptM p) s = .next t ∧ t.trust = 8 ∧ t.told .TIM 0 3 = true ∧
      t.fld Reg.TIM_PATH_REF_D 0 3 = toU8 (s.dPath .M) ∧ t.tim.acceptNow = decide (s.timeState = 3)) ∧
  (∀ (p : HostPort) (s : State), s.portOpen p = true → s.availNow .N = false →
    ∃ t, exec (.acceptN p) s = .next t ∧ Settles (s.err .TIM 0 0x13) t) ∧
  (∀ (p : HostPort) (s : State), s.portOpen p = true → s.availNow .S = false →
    ∃ t, exec (.acceptS p) s = .next t ∧ Settles (s.err .TIM 0 0x13) t) ∧
  (∀ (p : HostPort) (s : State), s.portOpen p = true → s.availNow .M = false →
    ∃ t, exec (.acceptM p) s = .next t ∧ Settles (s.err .TIM 0 0x13) t) ∧
  (∀ (e : TimeEnv) (s : State), s.booted = true → s.timeState = 2 → (∀ q, s.availNow q = false) →
    ∃ t, exec (.timeEvaluation e) s = .next t ∧ t.timeState = 3 ∧ t.tim.servo = 0 ∧ t.trust = 0 ∧
      t.fld Reg.TIM_COUNTS_HOLDOVERS = (s.fld Reg.TIM_COUNTS_HOLDOVERS + 1) % 0x10000 ∧ t.told .TIM 0 0 = true ∧
      t.tim.counter = s.tim.counter)

/-- Presence and wire breaks (R186 to R189, R193 to R195): a measurement is kept and counts in its run; PRESENT is what the
window and the excitation leave; the 64th decision in a row out of range declares a break, and the 4,096th in range ends it. -/
def Obligations.PresenceAndBreaks : Prop :=
  (∀ (b : Fin 16) (uv : List Int) (s : State), s.booted = true →
    ∃ t, exec (.presenceMeasurement b uv) s = .next t ∧ Settles { s with afe := t.afe } t ∧
      (∀ p, p < 16 → (t.afeOf b.val).cm.look p = some (uv.getD p 0)) ∧
      (∀ p r, p < 16 → s.flag Reg.AFE_CH_PRES_EN b.val p = true → (s.afeOf b.val).runs.look p = some r →
        r.inside = decide ((s.fld Reg.AFE_PRES_WIN_CM_LO b.val : Int) ≤ State.roundCm (uv.getD p 0) ∧
          State.roundCm (uv.getD p 0) ≤ s.fld Reg.AFE_PRES_WIN_CM_HI b.val) →
        (t.afeOf b.val).runs.look p = some ⟨r.inside, r.n + 1⟩)) ∧
  (∀ (b : Fin 16) (s : State), s.booted = true →
    ∃ t, exec (.presenceLoss b) s = .next t ∧
      t.fld Reg.AFE_PRES_STATUS_PRESENT b.val = 0xFFFF -
        (((s.afeOf b.val).lostWin ||| s.presDue b.val false ||| (s.afeOf b.val).lostExc) &&& s.presEn b.val) ∧
      (t.fld Reg.AFE_PRES_STATUS_PRESENT b.val ≠ s.fld Reg.AFE_PRES_STATUS_PRESENT b.val → t.told .AFE b.val 1 = true)) ∧
  (∀ (b p : Fin 16) (s : State), s.booted = true → s.flag Reg.AFE_CH_PRES_EN b.val p.val = true →
    (s.presDue b.val true).testBit p.val = true →
    (s.flag Reg.AFE_CH_PRES_EXC b.val p.val = false ∧ (s.afeOf b.val).lostExc.testBit p.val = false) ∨
      (s.flag Reg.AFE_STATUS_EXC_REG b.val = true ∧ s.flag Reg.AFE_STATUS_EXC_FAULT b.val = false ∧ s.excDriven b.val = true) →
    s.flag Reg.AFE_CH_PRES_EXC b.val p.val = true ∨ (s.afeOf b.val).lostExc.testBit p.val = false →
    ∃ t, exec (.presenceRegain b) s = .next t ∧ (t.fld Reg.AFE_PRES_STATUS_PRESENT b.val).testBit p.val = true) ∧
  (∀ (b p : Fin 16) (s : State), s.booted = true → s.flag Reg.AFE_CH_PRES_EN b.val p.val = true →
    (s.presDue b.val true).testBit p.val = false → (s.afeOf b.val).lostWin.testBit p.val = true →
    ∃ t, exec (.presenceRegain b) s = .next t ∧ (t.fld Reg.AFE_PRES_STATUS_PRESENT b.val).testBit p.val = false) ∧
  (∀ (b p : Fin 16) (l : List PinDec) (s : State), s.booted = true →
    (s.fld Reg.AFE_BRK_STATUS_BREAK b.val).testBit p.val = false → (∀ x, x ∈ l → State.outOfRange x = true) → l ≠ [] →
    (s.afeOf b.val).brk.lookD p.val 0 + l.length = 64 → (s.afeOf b.val).told + l.length ≤ 96 →
    ∃ t, exec (.breakDeclared b [(p.val, l)]) s = .next t ∧
      (t.fld Reg.AFE_BRK_STATUS_BREAK b.val).testBit p.val = true ∧
      (t.fld Reg.AFE_STICKY_BROKE b.val).testBit p.val = true ∧ t.told .AFE b.val 0 = true ∧
      ((t.afeOf b.val).breaks.lookD p.val []).head? = some ⟨s.brkNext b.val + l.length - 64, none⟩) ∧
  (∀ (b p : Fin 16) (l : List PinDec) (s : State), s.booted = true →
    (s.fld Reg.AFE_BRK_STATUS_BREAK b.val).testBit p.val = true → (∀ x, x ∈ l → State.outOfRange x = false) → l ≠ [] →
    (s.afeOf b.val).brk.lookD p.val 0 + l.length = 4096 → (s.afeOf b.val).told + l.length ≤ 96 →
    ∃ t, exec (.wholeDeclared b [(p.val, l)]) s = .next t ∧
      (t.fld Reg.AFE_BRK_STATUS_BREAK b.val).testBit p.val = false ∧ t.told .AFE b.val 0 = true) ∧
  (∀ (b p : Fin 16) (l : List PinDec) (s : State), s.booted = true →
    (s.fld Reg.AFE_BRK_STATUS_BREAK b.val).testBit p.val = false → (∀ x, x ∈ l → State.outOfRange x = true) → l ≠ [] →
    (s.afeOf b.val).brk.lookD p.val 0 + l.length < 64 → (s.afeOf b.val).told + l.length ≤ 96 →
    ∃ t, exec (.breakDeclared b [(p.val, l)]) s = .next t ∧
      (t.fld Reg.AFE_BRK_STATUS_BREAK b.val).testBit p.val = false ∧
      (t.afeOf b.val).brk.lookD p.val 0 = (s.afeOf b.val).brk.lookD p.val 0 + l.length)

/-- The excitation of a bank (R204 to R209, R718): limiting, the faults after FAULT_MS, their clearing, and the steps of a
change.
The model's choices in it: log 141. -/
def Obligations.ExcitationSteps : Prop :=
  (∀ (b : Fin 16) (s : State), s.follows = false → s.excDriven b.val = true → s.flag Reg.AFE_STATUS_EXC_LIMIT b.val = false →
    ∃ t, exec (.excLimitStart b) s = .next t ∧
      Settles (((s.setExc b.val { (s.afeOf b.val).exc with limAt := some s.life }).setFlag
        Reg.AFE_STATUS_EXC_LIMIT b.val 0 true).excEvent b.val 1) t) ∧
  (∀ (b : Fin 16) (t0 : Tm) (s : State), s.flag Reg.AFE_STATUS_EXC_LIMIT b.val = true →
    (s.afeOf b.val).exc.limAt = some t0 → s.faultDue b.val t0 = true →
    ∃ t, exec (.excFaultLimit b) s = .next t ∧ (t.afeOf b.val).exc.phase = .fault ∧ t.excLevel b.val = 0 ∧
      t.flag Reg.AFE_STATUS_EXC_FAULT b.val = true ∧
      t.fld Reg.AFE_STATUS_FAULT_CAUSE b.val = (if s.fld Reg.AFE_EXC_MODE_MODE b.val = 1 then 1 else 2) ∧
      t.flag Reg.AFE_STATUS_EXC_ON b.val = false ∧ t.told .AFE b.val 2 = true) ∧
  (∀ (b : Fin 16) (t0 : Tm) (s : State), s.flag Reg.AFE_STATUS_EXC_REG b.val = false →
    (s.afeOf b.val).exc.satAt = some t0 → s.faultDue b.val t0 = true →
    ∃ t, exec (.excFaultSat b) s = .next t ∧ (t.afeOf b.val).exc.phase = .fault ∧ t.excLevel b.val = 0 ∧
      t.flag Reg.AFE_STATUS_EXC_FAULT b.val = true ∧ t.fld Reg.AFE_STATUS_FAULT_CAUSE b.val = 3 ∧
      t.flag Reg.AFE_STATUS_EXC_ON b.val = false ∧ t.told .AFE b.val 2 = true) ∧
  (∀ (p : HostPort) (b : Fin 16) (s : State), s.pageOpen p = true →
    ∃ t, exec (.excClrFault p b) s = .next t ∧ (t.afeOf b.val).exc.clearReq = true ∧
      Settles { s with afe := t.afe } t) ∧
  (∀ (b : Fin 16) (s : State), (s.afeOf b.val).exc.phase = .ramp ∨ (s.afeOf b.val).exc.phase = .revUp →
    ∃ t, exec (.excRampEnd b) s = .next t ∧ (t.afeOf b.val).exc.phase = .idle ∧
      (t.afeOf b.val).exc.toQ = (s.afeOf b.val).exc.toQ ∧ t.flag Reg.AFE_EXC_NOW_CHANGING b.val = false ∧
      (t.flag Reg.AFE_STATUS_EXC_LIMIT b.val = false → t.excLevel b.val = (s.afeOf b.val).exc.toQ) ∧
      t.told .AFE b.val 2 = true) ∧
  (∀ (b : Fin 16) (s : State), (s.afeOf b.val).exc.phase = .disable →
    ∃ t, exec (.excRampEnd b) s = .next t ∧
      (t.afeOf b.val).exc.phase = (if (s.afeOf b.val).exc.late then .turnLate else .idle) ∧
      t.flag Reg.AFE_EXC_NOW_CHANGING b.val = false ∧ t.told .AFE b.val 2 = true) ∧
  (∀ (b : Fin 16) (s : State), (s.afeOf b.val).exc.phase = .revRamp →
    ∃ t, exec (.excRampEnd b) s = .next t ∧ (t.afeOf b.val).exc.phase = .revOff ∧ t.excLevel b.val = 0 ∧
      t.fld Reg.AFE_EXC_NOW_REV b.val = s.fld Reg.AFE_EXC_NOW_REV b.val) ∧
  (∀ (b : Fin 16) (s : State), (s.afeOf b.val).exc.phase = .revOff →
    ∃ t, exec (.excBbmEnd b) s = .next t ∧ (t.afeOf b.val).exc.phase = .revTurn ∧ t.excLevel b.val = 0 ∧
      t.fld Reg.AFE_EXC_NOW_REV b.val =
        if (s.afeOf b.val).exc.toggles then s.fld Reg.AFE_EXC_MODE_REV b.val else s.fld Reg.AFE_EXC_NOW_REV b.val) ∧
  (∀ (b : Fin 16) (s : State), (s.afeOf b.val).exc.phase = .revTurn →
    ∃ t, exec (.excBbmEnd b) s = .next t ∧ (t.afeOf b.val).exc.phase = .revUp ∧
      (t.afeOf b.val).exc.toQ = s.excTarget b.val ∧ t.fld Reg.AFE_EXC_NOW_REV b.val = s.fld Reg.AFE_EXC_NOW_REV b.val) ∧
  (∀ (b : Fin 16) (s : State), (s.afeOf b.val).exc.phase = .bbm →
    ∃ t, exec (.excBbmEnd b) s = .next t ∧ (t.afeOf b.val).exc.phase = .ramp ∧
      (t.afeOf b.val).exc.fromQ = 0 ∧ (t.afeOf b.val).exc.toQ = s.excTarget b.val) ∧
  (∀ (b : Fin 16) (s : State), (s.afeOf b.val).exc.phase = .turnLate →
    ∃ t, exec (.excBbmEnd b) s = .next t ∧ (t.afeOf b.val).exc.phase = .idle ∧
      t.fld Reg.AFE_EXC_NOW_REV b.val = s.fld Reg.AFE_EXC_MODE_REV b.val) ∧
  (∀ (b : Fin 16) (s : State), (s.afeOf b.val).exc.phase = .idle →
    ∃ t, exec (.excBbmEnd b) s = .next t ∧ Settles s t)

/-- The TEDS line of a bank (R213 to R218): a scan or a read begins on a line that is free and that the member drives, and a read
selects its device then; a scan leaves the identities whose CRC holds, a short keeps those found before, and a read leaves the
bytes of its device.
The model's choices in it: log 142. -/
def Obligations.TedsLine : Prop :=
  (∀ (p : HostPort) (b : Fin 16) (s : State), s.pageOpen p = true → s.twn.drive = true →
    s.flag Reg.AFE_STATUS_TEDS_BUSY b.val = false →
    ∃ t, exec (.tedsScan p b) s = .next t ∧ (t.afeOf b.val).tedsScanning = true ∧
      t.flag Reg.AFE_STATUS_TEDS_BUSY b.val = true) ∧
  (∀ (p : HostPort) (b : Fin 16) (s : State), s.pageOpen p = true →
    s.twn.drive = false ∨ s.flag Reg.AFE_STATUS_TEDS_BUSY b.val = true →
    ∃ t, exec (.tedsScan p b) s = .next t ∧ Settles s t) ∧
  (∀ (b : Fin 16) (s : State), s.fld Reg.AFE_TEDS_CTRL_PERIOD b.val ≠ 0 → s.twn.drive = true →
    s.flag Reg.AFE_STATUS_TEDS_BUSY b.val = false →
    ∃ t, exec (.tedsScanPeriod b) s = .next t ∧ (t.afeOf b.val).tedsScanning = true ∧
      t.flag Reg.AFE_STATUS_TEDS_BUSY b.val = true) ∧
  (∀ (p : HostPort) (b : Fin 16) (s : State), s.pageOpen p = true → s.twn.drive = true →
    s.flag Reg.AFE_STATUS_TEDS_BUSY b.val = false →
    ∃ t, exec (.tedsRead p b) s = .next t ∧ (t.afeOf b.val).tedsReading =
        some (s.fld64 Reg.AFE_TEDS_FOUND_ID_LO Reg.AFE_TEDS_FOUND_ID_HI b.val (s.fld Reg.AFE_TEDS_RDADDR_DEV b.val)) ∧
      t.flag Reg.AFE_STATUS_TEDS_BUSY b.val = true) ∧
  (∀ (p : HostPort) (b : Fin 16) (s : State), s.pageOpen p = true → s.flag Reg.AFE_STATUS_TEDS_BUSY b.val = true →
    ∃ t, exec (.tedsRead p b) s = .next t ∧ Settles (s.err .AFE b.val 0x13) t) ∧
  (∀ (b : Fin 16) (x : BitVec 56) (c : Byte) (s : State), (s.afeOf b.val).tedsScanning = true → idSound (c ++ x) = true →
    ∃ t, exec (.tedsScanDone b [x] [c]) s = .next t ∧ (t.afeOf b.val).tedsScanning = false ∧
      t.flag Reg.AFE_STATUS_TEDS_BUSY b.val = false ∧ t.fld Reg.AFE_TEDS_STAT_FOUND b.val = 1 ∧
      t.fld64 Reg.AFE_TEDS_FOUND_ID_LO Reg.AFE_TEDS_FOUND_ID_HI b.val 0 = (c ++ x).toNat ∧
      t.flag Reg.AFE_TEDS_STAT_CRCERR b.val = false ∧ t.flag Reg.AFE_TEDS_STAT_OVERFLOW b.val = false ∧
      t.fld Reg.AFE_TEDS_STAT_SCANS b.val = (s.fld Reg.AFE_TEDS_STAT_SCANS b.val + 1) % 0x1000000) ∧
  (∀ (b : Fin 16) (x : BitVec 56) (c : Byte) (s : State), (s.afeOf b.val).tedsScanning = true → idSound (c ++ x) = false →
    ∃ t, exec (.tedsScanDone b [x] [c]) s = .next t ∧ (t.afeOf b.val).tedsScanning = false ∧
      t.fld Reg.AFE_TEDS_STAT_FOUND b.val = 0 ∧ t.flag Reg.AFE_TEDS_STAT_CRCERR b.val = true ∧ t.told .AFE b.val 3 = true) ∧
  (∀ (b : Fin 16) (s : State), (s.afeOf b.val).tedsScanning = true →
    ∃ t, exec (.tedsShort b) s = .next t ∧ (t.afeOf b.val).tedsScanning = false ∧
      t.flag Reg.AFE_STATUS_TEDS_BUSY b.val = false ∧ t.flag Reg.AFE_TEDS_STAT_SHORT b.val = true ∧
      t.told .AFE b.val 3 = true ∧
      (∀ i, i < 16 → t.fld64 Reg.AFE_TEDS_FOUND_ID_LO Reg.AFE_TEDS_FOUND_ID_HI b.val i =
        s.fld64 Reg.AFE_TEDS_FOUND_ID_LO Reg.AFE_TEDS_FOUND_ID_HI b.val i)) ∧
  (∀ (b : Fin 16) (ws : List Word) (crc : Word) (id : Nat) (s : State), (s.afeOf b.val).tedsReading = some id →
    ∃ t, exec (.tedsReadDone b ws crc) s = .next t ∧ (t.afeOf b.val).tedsReading = none ∧
      t.flag Reg.AFE_STATUS_TEDS_BUSY b.val = false ∧
      t.flag Reg.AFE_TEDS_STAT_CRCERR b.val = decide (crc ≠ Config.tedsPageCrc ws) ∧
      t.told .AFE b.val 3 = true ∧ (∀ i, i < 8 → t.fld Reg.AFE_TEDS_BUF_DATA b.val i = (ws.getD i 0).toNat))

/-- The calibration of the converters in service (R235, R244, R246, R247, R250): a temperature reading of every bank enters
the readings of the last second; in steps 1 and 5, once the samples of its measurement have passed, a point is measured, and
a spare that fails ends its cycle; a blend begins with the 8th base sample after its step instant; once it has run, step 4 goes
on to step 5 with the spare in the pair, and step 8 ends the cycle with the own converter back; UNPARK asks the round of a
parked bank to go on, and does nothing at a bank that is not parked or that is already going on. -/
def Obligations.CalibrationRound : Prop :=
  (∀ (ts : List Int) (b : Fin 16) (s : State), s.sys.inReset = false →
    ∃ t, exec (.bankTemperatureRead ts) s = .next t ∧
      (t.cnvOf b.val).temps = (ts.getD b.val 0 :: (s.cnvOf b.val).temps).take 1000 ∧ t.round b.val = s.round b.val) ∧
  (∀ (b : Fin 16) (r : CalReadings) (j : Nat) (s : State), j = s.fld Reg.AFE_CH_GAIN b.val (s.round b.val).pos →
    (s.round b.val).step = 1 → (s.round b.val).measured = false →
    (s.round b.val).sRef + calSpan s (s.round b.val) j ≤ s.tim.k + 1 →
    ∃ t, exec (.calibrationPoint b r) s = .next t ∧ (t.round b.val).measured = true ∧
      (t.cnvOf b.val).spareGain = j ∧ t.cal.tables = (s.calibrate b.val 16 j r).1.cal.tables ∧
      ((s.calibrate b.val 16 j r).2.1 = 0 → (t.round b.val).step = 1) ∧
      ((s.calibrate b.val 16 j r).2.1 ≠ 0 → (t.round b.val).step = 0 ∧ t.told .CNV b.val 1 = true)) ∧
  (∀ (b : Fin 16) (r : CalReadings) (j : Nat) (s : State), j = s.fld Reg.AFE_CH_GAIN b.val (s.round b.val).pos →
    (s.round b.val).step = 5 → (s.round b.val).measured = false →
    (s.round b.val).sRef + 8 + (s.round b.val).cycL + calSpan s (s.round b.val) j ≤ s.tim.k + 1 →
    ∃ t, exec (.calibrationPoint b r) s = .next t ∧ (t.round b.val).measured = true ∧ (t.round b.val).step = 5 ∧
      t.cal.tables = (s.calibrate b.val (s.round b.val).pos j r).1.cal.tables) ∧
  (∀ (b : Fin 16) (r : CalReadings) (s : State), (s.round b.val).measured = true →
    ∃ t, exec (.calibrationPoint b r) s = .next t ∧ Settles s t) ∧
  (∀ (b : Fin 16) (s : State), (s.round b.val).step = 3 ∨ (s.round b.val).step = 7 →
    s.tim.k + 1 = (s.round b.val).sRef + 8 →
    ∃ t, exec (.roundBlendStart b) s = .next t ∧ (t.round b.val).step = (s.round b.val).step + 1 ∧
      (t.round b.val).blendN = 0 ∧ (t.round b.val).blendSum = 0) ∧
  (∀ (b : Fin 16) (s : State), (s.round b.val).step = 4 → (s.round b.val).cycL ≤ (s.round b.val).blendN →
    ∃ t, exec (.roundBlendEnd b) s = .next t ∧ (t.round b.val).step = 5 ∧ (t.round b.val).spareFeeds = true ∧
      (t.round b.val).measured = false) ∧
  (∀ (b : Fin 16) (s : State), (s.round b.val).step = 8 → (s.round b.val).cycL ≤ (s.round b.val).blendN →
    ∃ t, exec (.roundBlendEnd b) s = .next t ∧ (t.round b.val).step = 0 ∧ (t.round b.val).spareFeeds = false ∧
      (t.round b.val).prev = some (s.round b.val).pos ∧ t.told .CNV b.val 0 = true) ∧
  (∀ (p : HostPort) (b : Fin 16) (s : State), s.portOpen p = true → s.flag Reg.CNV_STATUS_PARKED b.val = true →
    (s.round b.val).unparking = false →
    ∃ t, exec (.unpark p b) s = .next t ∧ Settles (s.setRound b.val { s.round b.val with unparkReq := true }) t) ∧
  (∀ (p : HostPort) (b : Fin 16) (s : State), s.portOpen p = true → s.flag Reg.CNV_STATUS_PARKED b.val = false ∨ (s.round b.val).unparking = true →
    ∃ t, exec (.unpark p b) s = .next t ∧ Settles s t)

/-- The calibration journal and the point tables (R256 to R258, R262): a store is asked for, or held while one is pending;
one that ends well frees SEM63 and brings the new generation; one that fails frees it, tells of its cause and makes its slot
invalid; a wait of 60 s for SEM63 is told once; PT_WRITE puts the point of the registers into a table, and is refused while the
converter is being calibrated or where the point is out of range; PT_READ shows a point, and 0 with TEMP 0x8000 where the table
has none. -/
def Obligations.JournalAndPoints : Prop :=
  (∀ (p : HostPort) (s : State), s.portOpen p = true → s.cal.storeReq = false → s.cal.storing = none →
    ∃ t, exec (.store p) s = .next t ∧ Settles { s with cal := { s.cal with storeReq := true } } t) ∧
  (∀ (p : HostPort) (s : State), s.portOpen p = true → s.cal.storeReq = true ∨ s.cal.storing.isSome = true →
    ∃ t, exec (.store p) s = .next t ∧ Settles { s with cal := { s.cal with storeHeld := true } } t) ∧
  (∀ s : State, s.fld Reg.CAL_JOURNAL_PERIOD_MIN ≠ 0 → s.cal.storeReq = false → s.cal.storing = none →
    ∃ t, exec .journalPeriodExpiry s = .next t ∧ Settles { s with cal := { s.cal with storeReq := true } } t) ∧
  (∀ s : State, s.fld Reg.CAL_JOURNAL_PERIOD_MIN = 0 →
    ∃ t, exec .journalPeriodExpiry s = .next t ∧ Settles s t) ∧
  (∀ s : State, s.cal.storing.isSome = true → s.flag Reg.CAL_STATUS_SEM_WAIT = false →
    ∃ t, exec (.journalStoreEnd .ok) s = .next t ∧ t.cal.storing = none ∧ t.cal.storeReq = s.cal.storeHeld ∧
      t.semOwner 63 = 0 ∧ t.flag Reg.CAL_STATUS_STORING = false ∧
      t.fld Reg.CAL_JOURNAL_GEN_GEN = s.storeTarget.2 ∧ t.fld Reg.CAL_JOURNAL_STATUS_NEWEST = s.storeTarget.1 ∧
      t.fld Reg.CAL_JOURNAL_STATUS_ERR = 0 ∧ t.told .CAL 0 1 = true) ∧
  (∀ (e : StoreEnd) (c : Nat) (s : State), (e, c) ∈ [(StoreEnd.timeout, 1), (.verify, 2), (.spi, 3)] →
    s.cal.storing.isSome = true → s.flag Reg.CAL_STATUS_SEM_WAIT = false →
    ∃ t, exec (.journalStoreEnd e) s = .next t ∧ t.cal.storing = none ∧ t.semOwner 63 = 0 ∧
      t.flag Reg.CAL_STATUS_STORING = false ∧ t.fld Reg.CAL_JOURNAL_STATUS_ERR = c ∧ t.told .CAL 0 2 = true ∧
      t.fld Reg.CAL_JOURNAL_GEN_GEN = s.fld Reg.CAL_JOURNAL_GEN_GEN ∧
      (s.storeTarget.1 = 0 → t.flag Reg.CAL_JOURNAL_STATUS_VALID0 = false) ∧
      (s.storeTarget.1 ≠ 0 → t.flag Reg.CAL_JOURNAL_STATUS_VALID1 = false)) ∧
  (∀ (e : StoreEnd) (s : State), s.cal.storing = none →
    ∃ t, exec (.journalStoreEnd e) s = .next t ∧ Settles s t) ∧
  (∀ s : State, s.flag Reg.CAL_STATUS_SEM_WAIT = true → s.cal.semTold = false →
    ∃ t, exec .journalSemWait s = .next t ∧
      Settles ({ s with cal := { s.cal with semTold := true } }.raise .CAL 0 2 4 0) t) ∧
  (∀ s : State, s.flag Reg.CAL_STATUS_SEM_WAIT = false ∨ s.cal.semTold = true →
    ∃ t, exec .journalSemWait s = .next t ∧ Settles s t) ∧
  (∀ (p : HostPort) (s : State), s.portOpen p = true → s.ptBusy = true →
    ∃ t, exec (.ptWrite p) s = .next t ∧ Settles (s.err .CAL 0 0x11) t) ∧
  (∀ (p : HostPort) (x : CalPoint) (s : State), s.portOpen p = true → s.ptBusy = false →
    x = ⟨s.fldS Reg.CAL_PT_DATA0_OFFSET, s.fld Reg.CAL_PT_DATA1_GAIN, s.fldS Reg.CAL_PT_DATA2_SQ,
      s.fldS Reg.CAL_PT_DATA2_TEMP⟩ → x.temp ≠ -0x8000 → pointOk x = false →
    ∃ t, exec (.ptWrite p) s = .next t ∧ Settles (s.err .CAL 0 0x12) t) ∧
  (∀ (p : HostPort) (l : List CalPoint) (s : State), s.portOpen p = true → s.ptBusy = false → s.mem.errs = [] →
    s.fldS Reg.CAL_PT_DATA2_TEMP = -0x8000 → l = s.table (s.fld Reg.CAL_PT_SEL_CONV) (s.fld Reg.CAL_PT_SEL_GAIN) →
    s.fld Reg.CAL_PT_SEL_POINT < l.length →
    ∃ t, exec (.ptWrite p) s = .next t ∧ t.told .CAL 0 5 = true ∧
      t.table (s.fld Reg.CAL_PT_SEL_CONV) (s.fld Reg.CAL_PT_SEL_GAIN) = dropPoint l (s.fld Reg.CAL_PT_SEL_POINT)) ∧
  (∀ (p : HostPort) (x : CalPoint) (l : List CalPoint) (s : State), s.portOpen p = true → s.ptBusy = false →
    s.mem.errs = [] →
    x = ⟨s.fldS Reg.CAL_PT_DATA0_OFFSET, s.fld Reg.CAL_PT_DATA1_GAIN, s.fldS Reg.CAL_PT_DATA2_SQ,
      s.fldS Reg.CAL_PT_DATA2_TEMP⟩ → x.temp ≠ -0x8000 → pointOk x = true →
    l = s.table (s.fld Reg.CAL_PT_SEL_CONV) (s.fld Reg.CAL_PT_SEL_GAIN) → l.length ≤ s.fld Reg.CAL_PT_SEL_POINT →
    ∃ t, exec (.ptWrite p) s = .next t ∧ t.told .CAL 0 5 = true ∧
      t.table (s.fld Reg.CAL_PT_SEL_CONV) (s.fld Reg.CAL_PT_SEL_GAIN) = (insPoint x l).take 8) ∧
  (∀ (p : HostPort) (x : CalPoint) (s : State), s.portOpen p = true →
    (s.table (s.fld Reg.CAL_PT_SEL_CONV) (s.fld Reg.CAL_PT_SEL_GAIN))[s.fld Reg.CAL_PT_SEL_POINT]? = some x →
    s.mem.errs = [] →
    ∃ t, exec (.ptRead p) s = .next t ∧ t.fld Reg.CAL_PT_DATA1_GAIN = x.gain % 0x100000000 ∧
      (-0x80000000 ≤ x.offset ∧ x.offset ≤ 0x7FFFFFFF → t.fldS Reg.CAL_PT_DATA0_OFFSET = x.offset) ∧
      (-0x8000 ≤ x.sq ∧ x.sq ≤ 0x7FFF → t.fldS Reg.CAL_PT_DATA2_SQ = x.sq) ∧
      (-0x8000 ≤ x.temp ∧ x.temp ≤ 0x7FFF → t.fldS Reg.CAL_PT_DATA2_TEMP = x.temp) ∧ t.cal = s.cal) ∧
  (∀ (p : HostPort) (s : State), s.portOpen p = true → s.mem.errs = [] →
    (s.table (s.fld Reg.CAL_PT_SEL_CONV) (s.fld Reg.CAL_PT_SEL_GAIN))[s.fld Reg.CAL_PT_SEL_POINT]? = none →
    ∃ t, exec (.ptRead p) s = .next t ∧ t.fldS Reg.CAL_PT_DATA0_OFFSET = 0 ∧ t.fld Reg.CAL_PT_DATA1_GAIN = 0 ∧
      t.fldS Reg.CAL_PT_DATA2_SQ = 0 ∧ t.fldS Reg.CAL_PT_DATA2_TEMP = -0x8000 ∧ t.cal = s.cal)

/-- Inputs and rods (R316, R319 to R321, R323, R324, R327, R329): an edge of an input leaves its level and time, and the same level
again nothing; an input that has been active for STUCK x 100 ms is told stuck; a crossing of the mains is the last source event
of every MAINS rod, to 10 ns, and one that comes too early of none; an update is that of the NETWORK rods with its identity; a rod
is regraded by the time since its last source event, and stops when it has none; a load waits for the next instant; a manager
sends the rods of BCAST.MASK on its downlinks. -/
def Obligations.InputsAndRods : Prop :=
  (∀ (i : Fin 20) (ball : Bool) (tm : Tm) (s : State), s.booted = true →
    (ball != s.flag Reg.ABC_IN_CFG_POL 0 i.val) ≠ s.inLevel i.val →
    ∃ t, exec (.inputEdge i ball tm) s = .next t ∧ t.inLevel i.val = (ball != s.flag Reg.ABC_IN_CFG_POL 0 i.val) ∧
      (t.input i.val).lastEdge = some tm) ∧
  (∀ (i : Fin 20) (ball : Bool) (tm : Tm) (s : State), s.booted = true →
    (ball != s.flag Reg.ABC_IN_CFG_POL 0 i.val) = s.inLevel i.val →
    ∃ t, exec (.inputEdge i ball tm) s = .next t ∧ Settles s t) ∧
  (∀ (i : Fin 20) (s : State), s.booted = true → s.inLevel i.val = true → s.flag Reg.ABC_IN_STAT_STUCK 0 i.val = false →
    s.fld Reg.ABC_IN_CFG_STUCK 0 i.val ≠ 0 → (∃ t0, (s.input i.val).activeSince = some t0 ∧
      t0 + 100 * s.fld Reg.ABC_IN_CFG_STUCK 0 i.val * msTm ≤ s.now) →
    ∃ t, exec (.inputStuck i) s = .next t ∧ t.flag Reg.ABC_IN_STAT_STUCK 0 i.val = true ∧ t.told .ABC 0 2 = true) ∧
  (∀ (tm : Tm) (r : Fin 8) (s : State), s.booted = true → s.follows = false → r.val ≠ 0 → s.rodKind r.val = 5 →
    (s.rod r.val).sat = false →
    (∀ t0, (s.rod r.val).lastEvent = some t0 → secTm ≤ (tm - tm % (10 * Config.unitsPerNs) - t0) * 65) →
    ∃ t, exec (.mainsCrossing tm) s = .next t ∧
      (t.rod r.val).lastEvent = some (tm - tm % (10 * Config.unitsPerNs)) ∧ (t.rod r.val).stopped = false) ∧
  (∀ (tm t0 : Tm) (r : Fin 8) (s : State), (s.rod r.val).lastEvent = some t0 →
    (tm - tm % (10 * Config.unitsPerNs) - t0) * 65 < secTm →
    ∃ t, exec (.mainsCrossing tm) s = .next t ∧ t.rod r.val = s.rod r.val) ∧
  (∀ (p : NetPort) (h : Hdr) (m : RodMsg) (r : Fin 8) (s : State), s.takes p 0x31 h = true → s.follows = false →
    s.rodKind r.val = 6 → s.fld Reg.ABC_ROD_CFG_NET_ID 0 r.val = m.netId.toNat → (s.rod r.val).sat = false →
    ∃ t, exec (.rodUpdate p h m) s = .next t ∧ (t.rod r.val).lastEvent = some s.now ∧
      t.fld Reg.NET_RX_FRAMES_FRAMES p.ix = (s.fld Reg.NET_RX_FRAMES_FRAMES p.ix + 1) % 0x100000000) ∧
  (∀ (q : NetPort) (r : Fin 8) (s : State), s.booted = true → s.isManager = true →
    (q = .N ∨ q = .S) ∧ s.usable q = true ∨ q = .M ∧ s.flag Reg.SYS_ADDR_TOP = true ∧ s.linked .M = true →
    r.val ∈ bitsOf 8 (s.fld Reg.ABC_BCAST_MASK) →
    ∃ t, exec .rodBroadcastTimer s = .next t ∧
      ∃ f : Frame, Out.frame q f ∈ t.outbox.drop s.outbox.length ∧ f.type = 0x31 ∧
        f.body.take 2 = le 1 (s.fld Reg.ABC_ROD_CFG_NET_ID 0 r.val) ++ le 1 0 ∧
        f.body.drop 12 = le 4 s.nowNs) ∧
  (∀ (r : Fin 8) (t0 : Tm) (s : State), s.booted = true → r.val ≠ 0 → s.follows = false →
    (s.rod r.val).lastEvent = some t0 → (s.rod r.val).stopped = false → s.gradeAt r.val (s.now - t0) = none →
    ∃ t, exec (.rodFreshnessChange r) s = .next t ∧ (t.rod r.val).stopped = true ∧ (t.rod r.val).vn = 0) ∧
  (∀ (r : Fin 8) (t0 : Tm) (g : Nat) (s : State), s.booted = true → r.val ≠ 0 → s.follows = false →
    (s.rod r.val).lastEvent = some t0 → (s.rod r.val).stopped = false → s.gradeAt r.val (s.now - t0) = some g →
    ∃ t, exec (.rodFreshnessChange r) s = .next t ∧ t.rod r.val = { s.rod r.val with grade := g }) ∧
  (∀ (r : Fin 8) (s : State), (s.rod r.val).lastEvent = none ∨ (s.rod r.val).stopped = true →
    ∃ t, exec (.rodFreshnessChange r) s = .next t ∧ Settles s t) ∧
  (∀ (p : HostPort) (w : Word) (r : Fin 8) (s : State), s.pageOpen p = true → r.val ≠ 0 →
    s.rodKind r.val = 2 ∨ s.rodKind r.val = 3 → w.toNat.testBit (8 + r.val) = true →
    ∃ t, exec (.rodLoad p w) s = .next t ∧ (t.rod r.val).loadReq = true ∧ Settles { s with abc := t.abc } t)

/-- The bead table (R332 to R334, R344): a bead whose checks pass is enabled with the word written, one that fails them is not and
the cause is recorded; one of action SHADOW_COMMIT locks its page, where the page's shadow passes; EN = 0 disables, and writes
the word of a bead that is not live; a word 1 that changes a live bead is refused, and does not change it; the other words are
written while the bead is not live, and refused while it is. The model's choices in it: log 38, 39. -/
def Obligations.BeadTable : Prop :=
  (∀ (p : HostPort) (b : Fin 1024) (w : Word) (u s : State), s.pageOpen p = true → (s.bead b.val).en = false →
    u = { s with regs := regWr s.regs (beadAddr b.val 1) (w &&& 0x3FFFFFFF) } → u.beadCause (u.bead b.val) = none →
    (u.bead b.val).action ≠ 11 →
    ∃ t, exec (.beadEnable p b w) s = .next t ∧ Settles (u.admitBead b.val) t ∧ (t.bead b.val).en = true) ∧
  (∀ (p : HostPort) (b : Fin 1024) (w : Word) (u s : State), s.pageOpen p = true → (s.bead b.val).en = false →
    u = { s with regs := regWr s.regs (beadAddr b.val 1) (w &&& 0x3FFFFFFF) } → u.beadCause (u.bead b.val) = none →
    (u.bead b.val).action = 11 → u.beadFailures (u.bead b.val).arg = [] →
    ∃ t, exec (.beadEnable p b w) s = .next t ∧ (t.bead b.val).en = true ∧
      Settles ((u.admitBead b.val).setShadowFlag Reg.COMMON_SHADOW_STATE_LOCKED (0x1000 * (u.bead b.val).arg) true) t) ∧
  (∀ (p : HostPort) (b : Fin 1024) (w : Word) (s : State), s.pageOpen p = true → (s.bead b.val).en = true →
    ∃ t, exec (.beadEnable p b w) s = .next t ∧
      Settles (if w &&& 0x3FFFFFFF = regRd s.regs (beadAddr b.val 1) &&& 0x7FFFFFFF then s else s.err .ABC 0 0x10) t) ∧
  (∀ (p : HostPort) (b : Fin 1024) (w : Word) (c : Nat) (u s : State), s.pageOpen p = true → (s.bead b.val).en = false →
    u = { s with regs := regWr s.regs (beadAddr b.val 1) (w &&& 0x3FFFFFFF) } → u.beadCause (u.bead b.val) = some c →
    ∃ t, exec (.beadEnable p b w) s = .next t ∧ Settles (u.err .ABC 0 c) t) ∧
  (∀ (p : HostPort) (b : Fin 1024) (w : Word) (s : State), s.pageOpen p = true →
    ∃ t, exec (.beadDisable p b w) s = .next t ∧ (t.bead b.val).en = false ∧
      ((s.bead b.val).en = false → Settles { s with regs := regWr s.regs (beadAddr b.val 1) (w &&& 0x3FFFFFFF) } t)) ∧
  (∀ (p : HostPort) (b : Fin 1024) (w : Word) (s : State),
    exec (.beadWordWrite p b 1 w) s = exec (if w.toNat < 0x80000000 then .beadDisable p b w else .beadEnable p b w) s) ∧
  (∀ (p : HostPort) (b : Fin 1024) (i : Fin 4) (w : Word) (s : State), s.pageOpen p = true → i.val ≠ 1 →
    (s.bead b.val).en = false →
    ∃ t, exec (.beadWordWrite p b i w) s = .next t ∧
      Settles { s with regs := regWr s.regs (beadAddr b.val i.val) w } t) ∧
  (∀ (p : HostPort) (b : Fin 1024) (i : Fin 4) (w : Word) (s : State), s.pageOpen p = true → i.val ≠ 1 →
    (s.bead b.val).en = true →
    ∃ t, exec (.beadWordWrite p b i w) s = .next t ∧ Settles (s.err .ABC 0 0x10) t)

/-- The filter chains (R358, R359, R362, R365, R367, R380): sync resets are asked for, by SYNC_NOW and by an edge of SYNC, 1 µs after
it; the coefficient RAM and the shape of a bank are written while the bank is idle, and refused while it is busy; LOAD_DEFAULT
loads the default FIR of the CHAIN shadow with biquads that pass, and is refused on a busy bank or a D that no plan has; a queued
fade is cancelled; a fade whose last slot has come ends with its bank in force, and the queued one follows it.
The model's choices in it: log 18. -/
def Obligations.FilterCommands : Prop :=
  (∀ (p : HostPort) (g : Fin 16) (s : State), s.pageOpen p = true →
    ∃ t, exec (.syncNow p g) s = .next t ∧ Settles (s.setFlt g.val { s.fltOf g.val with syncNow := true }) t) ∧
  (∀ (tm : Tm) (g : Fin 16) (s : State), s.booted = true → s.follows = false →
    s.flag Reg.FLT_SYNC_CFG_PIN_EN g.val = true →
    ∃ t, exec (.syncEdge tm) s = .next t ∧
      (t.fltOf g.val).syncAt = (s.fltOf g.val).syncAt ++ [tm + 1000 * Config.unitsPerNs]) ∧
  (∀ (p : HostPort) (g : Fin 16) (s : State), s.pageOpen p = true → s.flag Reg.FLT_STATUS_QUEUED g.val = true →
    ∃ t, exec (.xfCancel p g) s = .next t ∧ t.flag Reg.FLT_STATUS_QUEUED g.val = false ∧
      t.fld Reg.FLT_STATUS_QUEUE_BANK g.val = 0 ∧ t.told .FLT g.val 1 = true ∧ t.flt = s.flt) ∧
  (∀ (p : HostPort) (g : Fin 16) (s : State), s.pageOpen p = true → s.flag Reg.FLT_STATUS_QUEUED g.val = false →
    ∃ t, exec (.xfCancel p g) s = .next t ∧ Settles s t) ∧
  (∀ (p : HostPort) (g : Fin 16) (w : Word) (x d n : Nat) (s : State), s.pageOpen p = true → x = w.toNat / 0x800 % 4 →
    x ≤ 2 → s.bankBusy g.val x = false → d = Reg.FLT_CHAIN_D.rd s.shadow g.val 0 → rateOk d = true →
    n = 64 * (planOf d).m - 1 →
    ∃ t, exec (.loadDefault p g w) s = .next t ∧ t.fld Reg.FLT_BANK_SHAPE_N g.val x = n ∧
      t.fld Reg.FLT_BANK_SHAPE_GF g.val x = 256 * (32 * (planOf d).m - 1) ∧
      (∀ i, i < n → regRd t.regs (bankBase g.val x + 4 * i) = Config.firTap d (min i (n - 1 - i))) ∧
      ∀ i, i < 10 → regRd t.regs (bankBase g.val x + 0x800 + 4 * i) = if i % 5 = 0 then 0x10000000 else 0) ∧
  (∀ (p : HostPort) (g : Fin 16) (w : Word) (s : State), s.pageOpen p = true → w.toNat / 0x800 % 4 ≤ 2 →
    s.bankBusy g.val (w.toNat / 0x800 % 4) = false → rateOk (Reg.FLT_CHAIN_D.rd s.shadow g.val 0) = false →
    ∃ t, exec (.loadDefault p g w) s = .next t ∧ Settles (s.err .FLT g.val 0x10) t) ∧
  (∀ (p : HostPort) (g : Fin 16) (w : Word) (s : State), s.pageOpen p = true → w.toNat / 0x800 % 4 ≤ 2 →
    s.bankBusy g.val (w.toNat / 0x800 % 4) = true →
    ∃ t, exec (.loadDefault p g w) s = .next t ∧ Settles (s.err .FLT g.val 0x14) t) ∧
  (∀ (p : HostPort) (g : Fin 16) (i : BitVec 14) (w : Word) (s : State), s.pageOpen p = true →
    ramOffset (4 * i.toNat) = true → s.bankBusy g.val (4 * i.toNat / 0x4000) = false →
    ∃ t, exec (.coefRamWrite p g i w) s = .next t ∧
      Settles { s with regs := regWr s.regs (0x100000 + 0x10000 * g.val + 4 * i.toNat) w } t) ∧
  (∀ (p : HostPort) (g : Fin 16) (i : BitVec 14) (w : Word) (s : State), s.pageOpen p = true →
    ramOffset (4 * i.toNat) = true → s.bankBusy g.val (4 * i.toNat / 0x4000) = true →
    ∃ t, exec (.coefRamWrite p g i w) s = .next t ∧ Settles (s.err .FLT g.val 0x14) t) ∧
  (∀ (p : HostPort) (g : Fin 16) (x : Fin 3) (w : Word) (n gf : Nat) (s : State), s.pageOpen p = true →
    n = w.toNat % 0x400 → gf = w.toNat / 0x1000 % 0x20000 → n ≤ 512 → gf ≤ 256 * (n - 1) → s.bankBusy g.val x.val = false →
    ∃ t, exec (.bankShapeWrite p g x w) s = .next t ∧
      Settles ((s.setFld Reg.FLT_BANK_SHAPE_N g.val x.val n).setFld Reg.FLT_BANK_SHAPE_GF g.val x.val gf) t) ∧
  (∀ (p : HostPort) (g : Fin 16) (x : Fin 3) (w : Word) (n gf : Nat) (s : State), s.pageOpen p = true →
    n = w.toNat % 0x400 → gf = w.toNat / 0x1000 % 0x20000 → n ≤ 512 → gf ≤ 256 * (n - 1) → s.bankBusy g.val x.val = true →
    ∃ t, exec (.bankShapeWrite p g x w) s = .next t ∧ Settles (s.err .FLT g.val 0x14) t) ∧
  (∀ (g : Fin 16) (f : Fade) (s : State), (s.fltOf g.val).fade = some f → f.len ≠ 0 →
    f.start + (f.len : Int) - 1 ≤ s.slotAt g.val s.chainK → s.flag Reg.FLT_STATUS_QUEUED g.val = false →
    ∃ t, exec (.fadeEnd g) s = .next t ∧ (t.fltOf g.val).fade = none ∧
      t.flag Reg.FLT_STATUS_FADING g.val = false ∧ t.told .FLT g.val 1 = true ∧
      t.fld Reg.FLT_STATUS_IN_FORCE g.val = f.dst % 4) ∧
  (∀ (g : Fin 16) (f : Fade) (s : State), (s.fltOf g.val).fade = some f → f.len ≠ 0 →
    f.start + (f.len : Int) - 1 ≤ s.slotAt g.val s.chainK → s.flag Reg.FLT_STATUS_QUEUED g.val = true →
    ∃ t, exec (.fadeEnd g) s = .next t ∧ (∃ f', (t.fltOf g.val).fade = some f' ∧ f'.src = f.dst ∧
      f'.dst = s.fld Reg.FLT_STATUS_QUEUE_BANK g.val) ∧ t.flag Reg.FLT_STATUS_QUEUED g.val = false) ∧
  (∀ (g : Fin 16) (f : Fade) (s : State), (s.fltOf g.val).fade = some f →
    s.slotAt g.val s.chainK < f.start + (f.len : Int) - 1 →
    ∃ t, exec (.fadeEnd g) s = .next t ∧ Settles s t)

/-- The tally (R389, R390, R400, R401, R407): SNAP and CLEAR of the rainflow counts and SNAP of the peak maps wait for the next
instant; CLEAR of the peak maps is at once; a closed window whose channels are done gives its record, with the next number of
its set, and one whose channels are not done waits. -/
def Obligations.TallyCommands : Prop :=
  (∀ (p : HostPort) (s : State), s.pageOpen p = true →
    ∃ t, exec (.rfSnap p) s = .next t ∧ Settles { s with tal := { s.tal with rfSnapDue := true } } t) ∧
  (∀ (p : HostPort) (s : State), s.pageOpen p = true →
    ∃ t, exec (.rfClear p) s = .next t ∧ Settles { s with tal := { s.tal with rfClearDue := true } } t) ∧
  (∀ (p : HostPort) (mask : BitVec 16) (s : State), s.pageOpen p = true →
    ∃ t, exec (.pmSnap p mask) s = .next t ∧
      Settles { s with tal := { s.tal with pmSnap := s.tal.pmSnap ||| mask.toNat } } t) ∧
  (∀ (p : HostPort) (mask : BitVec 16) (u : Fin 16) (s : State), s.pageOpen p = true → mask.toNat.testBit u.val = true →
    ∃ t, exec (.pmClear p mask) s = .next t ∧ t.fld Reg.TAL_PM_CAPTURES 0 u.val = 0 ∧
      t.tal.pmOpenNs.look u.val = some s.nowNs) ∧
  (∀ (w : Fin 16) (x : TalWindow) (l : List TalWindow) (s : State), s.windows w.val = x :: l → x.kClose.isSome = true →
    (∀ e, e ∈ x.accs → e.2.done = true) →
    ∃ t, exec (.windowRecord w) s = .next t ∧ t.windows w.val = l ∧ t.told .TAL 0 0 = true ∧
      t.tal.winSeq.look w.val = some ((s.tal.winSeq.lookD w.val 0 + 1) % 0x10000)) ∧
  (∀ (w : Fin 16) (s : State), s.windows w.val = [] ∨
    (∃ x l, s.windows w.val = x :: l ∧ (x.kClose = none ∨ x.accs.any (fun e => !e.2.done) = true)) →
    ∃ t, exec (.windowRecord w) s = .next t ∧ Settles s t)

/-- The capture units under their CTRL and MARK (R419, R424, R429, R434, R441): ARM, TRIG and START wait for the next instant;
DISARM drops what waits and disarms an armed unit at once, a capturing one when its capture has ended; RELEASE frees what is
held; STOP of a ring without a capture in progress stops it; REWIND, MARK_HERE and a write of MARK_LO move the read pointer and
the mark within what the ring holds, and are refused outside it. -/
def Obligations.CaptureControl : Prop :=
  (∀ (p : HostPort) (u : Fin 16) (s : State), s.pageOpen p = true →
    ∃ t, exec (.arm p u) s = .next t ∧ Settles (s.setCap u.val { s.capOf u.val with armReq := true }) t) ∧
  (∀ (p : HostPort) (u : Fin 16) (s : State), s.pageOpen p = true →
    ∃ t, exec (.trig p u) s = .next t ∧ Settles (s.setCap u.val { s.capOf u.val with trigReq := true }) t) ∧
  (∀ (p : HostPort) (u : Fin 16) (s : State), s.pageOpen p = true →
    ∃ t, exec (.start p u) s = .next t ∧ Settles (s.setCap u.val { s.capOf u.val with startReq := true }) t) ∧
  (∀ (p : HostPort) (u : Fin 16) (s : State), s.pageOpen p = true →
    ∃ t, exec (.disarm p u) s = .next t ∧ (t.capOf u.val).armReq = false ∧
      t.flag Reg.CAP_STATUS_PENDING u.val = false ∧ t.capState u.val = (if s.capState u.val = 1 then 0 else s.capState u.val) ∧
      (t.capOf u.val).disarm = ((s.capOf u.val).disarm || decide (2 ≤ s.capState u.val))) ∧
  (∀ (p : HostPort) (u : Fin 16) (s : State), s.pageOpen p = true →
    ∃ t, exec (.release p u) s = .next t ∧ (t.capOf u.val).keep = [] ∧
      t.cap = (s.setCap u.val { s.capOf u.val with keep := [] }).cap ∧
      t.flag Reg.CAP_STATUS_HELD u.val = decide (t.heldFrom u.val ≠ [])) ∧
  (∀ (p : HostPort) (u : Fin 16) (s : State), s.pageOpen p = true → s.ringState u.val = 2 →
    ∃ t, exec (.stop p u) s = .next t ∧ t.ringState u.val = 0 ∧ (t.capOf u.val).startReq = false ∧
      (t.capOf u.val).startAt = none) ∧
  (∀ (p : HostPort) (u : Fin 16) (s : State), s.pageOpen p = true → s.ringState u.val = 1 →
    (s.capOf u.val).cap = none →
    ∃ t, exec (.stop p u) s = .next t ∧ t.ringState u.val = 0 ∧ (t.capOf u.val).startReq = false ∧
      (t.capOf u.val).startAt = none ∧ t.wr u.val = s.wr u.val) ∧
  (∀ (p : HostPort) (u : Fin 16) (s : State), s.pageOpen p = true → s.flag Reg.CAP_STATUS_MARK_VALID u.val = true →
    ∃ t, exec (.rewind p u) s = .next t ∧ Settles (s.setRead u.val (s.capOf u.val).mark 0) t) ∧
  (∀ (p : HostPort) (u : Fin 16) (s : State), s.pageOpen p = true → s.flag Reg.CAP_STATUS_MARK_VALID u.val = false →
    ∃ t, exec (.rewind p u) s = .next t ∧ Settles (s.err .CAP u.val 0x17) t) ∧
  (∀ (p : HostPort) (u : Fin 16) (s : State), s.pageOpen p = true →
    s.oldest u.val ≤ s.fld64 Reg.CAP_RD_LO_SLOT Reg.CAP_RD_HI_SLOT u.val →
    ∃ t, exec (.markHere p u) s = .next t ∧ (t.capOf u.val).mark = s.fld64 Reg.CAP_RD_LO_SLOT Reg.CAP_RD_HI_SLOT u.val ∧
      t.fld64 Reg.CAP_MARK_LO_MARK Reg.CAP_MARK_HI_MARK u.val = s.fld64 Reg.CAP_RD_LO_SLOT Reg.CAP_RD_HI_SLOT u.val) ∧
  (∀ (p : HostPort) (u : Fin 16) (s : State), s.pageOpen p = true →
    s.fld64 Reg.CAP_RD_LO_SLOT Reg.CAP_RD_HI_SLOT u.val < s.oldest u.val →
    ∃ t, exec (.markHere p u) s = .next t ∧ Settles (s.err .CAP u.val 0x18) t) ∧
  (∀ (p : HostPort) (u : Fin 16) (w : Word) (v : Nat) (s : State), s.pageOpen p = true →
    v = w.toNat + 0x100000000 * s.fld Reg.CAP_MARK_HI_MARK u.val → s.oldest u.val ≤ v → v ≤ s.wr u.val →
    ∃ t, exec (.markWrite p u w) s = .next t ∧ (t.capOf u.val).mark = v ∧
      t.flag Reg.CAP_STATUS_MARK_VALID u.val = true ∧ t.flag Reg.CAP_STATUS_RD_ERR u.val = false ∧
      t.fld Reg.CAP_MARK_LO_MARK u.val = w.toNat ∧ t.fld Reg.CAP_RD_HI_WORD u.val = 0 ∧
      t.fld64 Reg.CAP_RD_LO_SLOT Reg.CAP_RD_HI_SLOT u.val = v) ∧
  (∀ (p : HostPort) (u : Fin 16) (w : Word) (v : Nat) (s : State), s.pageOpen p = true →
    v = w.toNat + 0x100000000 * s.fld Reg.CAP_MARK_HI_MARK u.val → v < s.oldest u.val ∨ s.wr u.val < v →
    ∃ t, exec (.markWrite p u w) s = .next t ∧ Settles (s.err .CAP u.val 0x18) t)

/-- Reads of a ring and what resumes and triggers a capture (R422, R424, R427, R435, R442): RD_DATA with no valid mark, and at the
last slot written, gives 0 and says so; otherwise it gives the word of the ring where the read pointer stands; a paused ring that
nothing blocks starts a new run; a trigger of the network is taken once, by its origin and time. -/
def Obligations.RingReadsAndTriggers : Prop :=
  (∀ (p : HostPort) (u : Fin 16) (s : State), s.portOpen p = true → s.flag Reg.CAP_STATUS_MARK_VALID u.val = false →
    ∃ t, exec (.rdDataRead p u) s = .next t ∧ (t.hp p).lastRead = [0] ∧ t.flag Reg.CAP_STATUS_RD_ERR u.val = true ∧
      t.flag Reg.CAP_STATUS_RD_EMPTY u.val = false) ∧
  (∀ (p : HostPort) (u : Fin 16) (s : State), s.portOpen p = true → s.flag Reg.CAP_STATUS_MARK_VALID u.val = true →
    s.wr u.val ≤ s.fld64 Reg.CAP_RD_LO_SLOT Reg.CAP_RD_HI_SLOT u.val →
    ∃ t, exec (.rdDataRead p u) s = .next t ∧ (t.hp p).lastRead = [0] ∧ t.flag Reg.CAP_STATUS_RD_ERR u.val = false ∧
      t.flag Reg.CAP_STATUS_RD_EMPTY u.val = true) ∧
  (∀ (p : HostPort) (u : Fin 16) (a : Nat) (s : State), s.portOpen p = true →
    s.flag Reg.CAP_STATUS_MARK_VALID u.val = true →
    s.fld64 Reg.CAP_RD_LO_SLOT Reg.CAP_RD_HI_SLOT u.val < s.wr u.val → s.mem.errs = [] →
    a = s.ringAddr u.val (s.fld64 Reg.CAP_RD_LO_SLOT Reg.CAP_RD_HI_SLOT u.val) (s.fld Reg.CAP_RD_HI_WORD u.val) →
    ∃ t, exec (.rdDataRead p u) s = .next t ∧ (t.hp p).lastRead = [leWord ((List.range 4).map fun i => s.storedByte (a + i))] ∧
      t.flag Reg.CAP_STATUS_RD_ERR u.val = false ∧ t.flag Reg.CAP_STATUS_RD_EMPTY u.val = false) ∧
  (∀ (u : Fin 16) (s : State), s.ringState u.val = 2 → s.ringBlocked u.val = false →
    ∃ t, exec (.ringResume u) s = .next t ∧ t.ringState u.val = 1 ∧ t.told .CAP u.val 3 = true ∧
      t.runW u.val = s.wr u.val ∧ t.wr u.val = s.wr u.val) ∧
  (∀ (u : Fin 16) (s : State), s.ringBlocked u.val = true →
    ∃ t, exec (.ringResume u) s = .next t ∧ Settles s t) ∧
  (∀ (p : NetPort) (h : Hdr) (m : TriggerMsg) (s : State), s.takes p 0x30 h = true →
    s.net.trigs.contains (m.origin.toNat, m.time.toNat) = false →
    ∃ t, exec (.trigger p h m) s = .next t ∧ t.net.trigs = ((m.origin.toNat, m.time.toNat) :: s.net.trigs).take 64) ∧
  (∀ (p : NetPort) (h : Hdr) (m : TriggerMsg) (s : State), s.takes p 0x30 h = true →
    s.net.trigs.contains (m.origin.toNat, m.time.toNat) = true →
    ∃ t, exec (.trigger p h m) s = .next t ∧ t.net.trigs = s.net.trigs ∧ t.cap = s.cap)

/-- The compression engines (R466 to R469, R472, R474, R480, R481): GO takes the job of the registers, refuses it by cause, or does
nothing on a disabled engine; CANCEL drops the host's job; FLUSH cuts the open segment of a stream that has input; an idle engine
starts the next ready job; a job of the host ends with its result, decoded or coded; one of Carry that meets a memory error is
held, and runs again ahead of the others. The model's choices in it: log 41. -/
def Obligations.CompressionEngines : Prop :=
  (∀ (p : HostPort) (e : Fin 4) (s : State), s.pageOpen p = true → s.hostBusy e.val = false →
    s.flag Reg.CMP_ENG_CFG_EN e.val = true → s.jobBad e.val = false →
    ∃ t, exec (.go p e) s = .next t ∧ (t.engine e.val).ready = (s.engine e.val).ready ++ [s.hostJob e.val] ∧
      t.hostBusy e.val = true ∧ t.flag Reg.CMP_JOB_RESULT_DONE e.val = false) ∧
  (∀ (p : HostPort) (e : Fin 4) (s : State), s.pageOpen p = true → s.hostBusy e.val = true →
    ∃ t, exec (.go p e) s = .next t ∧ Settles (s.err .CMP e.val 0x15) t) ∧
  (∀ (p : HostPort) (e : Fin 4) (s : State), s.pageOpen p = true → s.hostBusy e.val = false →
    s.flag Reg.CMP_ENG_CFG_EN e.val = true → s.jobBad e.val = true →
    ∃ t, exec (.go p e) s = .next t ∧ Settles (s.err .CMP e.val 0x14) t) ∧
  (∀ (p : HostPort) (e : Fin 4) (s : State), s.pageOpen p = true → s.hostBusy e.val = false →
    s.flag Reg.CMP_ENG_CFG_EN e.val = false →
    ∃ t, exec (.go p e) s = .next t ∧ Settles s t) ∧
  (∀ (p : HostPort) (e : Fin 4) (s : State), s.pageOpen p = true → s.hostBusy e.val = true →
    ∃ t, exec (.cancel p e) s = .next t ∧ t.hostBusy e.val = false ∧
      (t.engine e.val).ready = (s.engine e.val).ready.filter (fun j => !j.host) ∧
      t.flag Reg.CMP_JOB_RESULT_DONE e.val = true ∧ t.fld Reg.CMP_JOB_RESULT_RESULT e.val = 7 ∧
      t.told .CMP e.val 0 = true) ∧
  (∀ (p : HostPort) (e : Fin 4) (s : State), s.pageOpen p = true → s.hostBusy e.val = false →
    ∃ t, exec (.cancel p e) s = .next t ∧ Settles s t) ∧
  (∀ (p : HostPort) (e : Fin 4) (i : Fin 64) (idx n : Nat) (x : Nat × Nat × Bool × Prof) (s : State), s.pageOpen p = true →
    s.flag Reg.CRY_S_CFG_EN 0 i.val = true → s.fld Reg.CRY_S_CFG_ENGINE 0 i.val = e.val →
    s.flag Reg.CRY_S_CFG_COMP 0 i.val = true → s.fld Reg.CRY_S_STATE_LEVEL 0 i.val = 0 →
    idx = s.fld Reg.CRY_S_CFG_PROF 0 i.val → n = (s.stream i.val).buf.length →
    (segmentsFrom (profIn s.regs e.val idx) idx (s.streamNch i.val) n (s.stream i.val).profs (s.stream i.val).cuts n 0).getLast?
      = some x → x.2.2.1 = true → (s.stream i.val).cuts.contains n = false →
    ∃ t, exec (.flush p e) s = .next t ∧ (t.stream i.val).cuts = (s.stream i.val).cuts ++ [n]) ∧
  (∀ (e : Fin 4) (j : Job) (s : State), (s.engine e.val).running = none → State.nextJob (s.engine e.val) = some j →
    ∃ t, exec (.jobStart e) s = .next t ∧ (t.engine e.val).running = some j ∧
      (t.engine e.val).ready = State.dropJob j (s.engine e.val).ready ∧ t.flag Reg.CMP_STATUS_BUSY e.val = true) ∧
  (∀ (e : Fin 4) (s : State), (s.engine e.val).running.isSome = true ∨ State.nextJob (s.engine e.val) = none →
    ∃ t, exec (.jobStart e) s = .next t ∧ Settles s t) ∧
  (∀ (e : Fin 4) (j : Job) (ws : List Word) (s : State), (s.engine e.val).running = some j → j.host = true →
    j.decode = true → s.mem.errs = [] →
    readSegment ((List.range j.len).map fun i => s.storedByte (j.src + i)) j.limit = .ok ws →
    ∃ t, exec (.jobEnd e .none) s = .next t ∧ (t.engine e.val).running = none ∧
      t.flag Reg.CMP_JOB_RESULT_DONE e.val = true ∧ t.fld Reg.CMP_JOB_RESULT_RESULT e.val = 0 ∧
      t.fld Reg.CMP_JOB_OUT_BYTES e.val = 4 * ws.length % 0x100000000 ∧ t.told .CMP e.val 0 = true ∧
      t.dram = (s.dramWrite j.dst (wordsBytes ws)).dram) ∧
  (∀ (e : Fin 4) (j : Job) (ws : List Word) (c : List Byte × Nat × Nat) (s : State),
    (s.engine e.val).running = some j → j.host = true → j.decode = false → s.mem.errs = [] →
    ws = bytesWords (min (j.len / 4) (j.prof.segWords j.nch)) ((List.range j.len).map fun i => s.storedByte (j.src + i)) →
    c = codeSegment j.prof j.nch (s.flag Reg.CMP_STATUS_RAWONLY e.val) (fun _ => false)
      (decide (ws.length < j.prof.segWords j.nch)) ws → c.1.length ≤ j.space →
    ∃ t, exec (.jobEnd e .none) s = .next t ∧ (t.engine e.val).running = none ∧
      t.flag Reg.CMP_JOB_RESULT_DONE e.val = true ∧ t.fld Reg.CMP_JOB_RESULT_RESULT e.val = 0 ∧
      t.fld Reg.CMP_JOB_OUT_BYTES e.val = c.1.length % 0x100000000 ∧ t.told .CMP e.val 0 = true ∧
      t.dram = (s.dramWrite j.dst c.1).dram) ∧
  (∀ (e : Fin 4) (f : JobFault) (s : State), (s.engine e.val).running = none →
    ∃ t, exec (.jobEnd e f) s = .next t ∧ Settles s t) ∧
  (∀ (e : Fin 4) (j : Job) (bad : List Nat) (s : State), (s.engine e.val).running = some j → j.host = false → j.tries = 0 →
    ∃ t, exec (.jobEnd e (.memErr bad)) s = .next t ∧ (t.engine e.val).running = none ∧
      (t.engine e.val).held = (s.engine e.val).held ++ [{ j with tries := 1 }] ∧ t.told .CMP e.val 3 = true) ∧
  (∀ (e : Fin 4) (j : Job) (rest : List Job) (s : State), (s.engine e.val).held = j :: rest →
    ∃ t, exec (.heldJobRetry e) s = .next t ∧ (t.engine e.val).held = rest ∧
      (t.engine e.val).ready = j :: (s.engine e.val).ready ∧ t.flag Reg.CMP_STATUS_HELD e.val = decide (rest ≠ [])) ∧
  (∀ (e : Fin 4) (s : State), (s.engine e.val).held = [] →
    ∃ t, exec (.heldJobRetry e) s = .next t ∧ Settles s t)

/-- Blocks of the streams (R488 to R490, R495, R497, R504, R560): a block of an enabled stream closes at its end or its age; one
that is sent advances NEXT and leaves in fragments; one kept of a source goes on when the hub has none of its own under that
number; without an acknowledgement a replay begins; an outage past its maximum sets OVER, and one that is not past it clears it,
told once each. The model's choices in it: log 48, 116, 129, 150. -/
def Obligations.CarryBlocks : Prop :=
  (∀ (p : HostPort) (s : State), s.pageOpen p = true →
    ∃ t, exec (.closeAll p) s = .next t ∧ Settles { s with cry := { s.cry with closeAll := true } } t) ∧
  (∀ (i : Fin 64) (n : Nat) (s : State), s.flag Reg.CRY_S_CFG_EN 0 i.val = true → s.carries i.val = true →
    s.dueAt i.val = some n →
    ∃ t, exec (.blockClose i) s = .next t ∧
      (t.stream i.val).nextBseq = ((s.stream i.val).nextBseq + 1) % 2 ^ 48 ∧
      (t.stream i.val).nextFirst = ((s.stream i.val).nextFirst + n) % 2 ^ 48) ∧
  (∀ (i : Fin 64) (s : State), s.flag Reg.CRY_S_CFG_EN 0 i.val = false ∨ s.carries i.val = false ∨ s.dueAt i.val = none →
    ∃ t, exec (.blockClose i) s = .next t ∧ Settles s t) ∧
  (∀ (i : Fin 64) (s : State), s.flag Reg.CRY_S_CFG_EN 0 i.val = true → s.isFilter i.val = false → s.carries i.val = true →
    s.idles = false → s.dueAt i.val = none → (s.stream i.val).openLife + 1000000000 ≤ s.lifeNs →
    ∃ t, exec (.blockAgeExpiry i) s = .next t ∧
      (t.stream i.val).nextBseq = ((s.stream i.val).nextBseq + 1) % 2 ^ 48 ∧
      (t.stream i.val).nextFirst = ((s.stream i.val).nextFirst + (s.stream i.val).buf.length) % 2 ^ 48) ∧
  (∀ (i : Fin 64) (s : State), s.isKept i.val = true → s.follows = false → s.uncompared = false →
    s.fld Reg.CRY_S_OUTAGE_MS 0 i.val * 1000000 < s.outageNs i.val → s.flag Reg.CRY_S_STATE_OVER 0 i.val = false →
    ∃ t, exec (.outageOver i) s = .next t ∧ t.flag Reg.CRY_S_STATE_OVER 0 i.val = true ∧ t.told .CRY 0 18 = true ∧
      (i.val ∈ s.liveStreams → t.shed = true)) ∧
  (∀ (i : Fin 64) (s : State), s.isKept i.val = true → s.follows = false → s.uncompared = false →
    s.outageNs i.val ≤ s.fld Reg.CRY_S_OUTAGE_MS 0 i.val * 1000000 → s.flag Reg.CRY_S_STATE_OVER 0 i.val = true →
    ∃ t, exec (.outageOver i) s = .next t ∧ t.flag Reg.CRY_S_STATE_OVER 0 i.val = false ∧ t.told .CRY 0 18 = true) ∧
  (∀ (i : Fin 64) (b : Block) (q : NetPort) (bytes : List Byte) (mtu : Nat) (s : State), s.booted = true →
    s.maySend = true → s.flag Reg.CRY_S_CFG_DEST 0 i.val = false → s.toSend i.val = some b →
    (s.stream i.val).replayAt = none → (if s.isManager then some .M else s.primary) = some q →
    bytes = wordsBytes b.words → mtu = s.fld Reg.NET_CFG_MTU q.ix → 32 < mtu →
    ∃ t, exec (.blockSend i) s = .next t ∧ t.nextOf i.val = b.stop % 2 ^ 48 ∧
      Sent s t q 0x10 (le 2 b.source ++ le 1 b.stream ++ le 1 (if bytes.length ≤ mtu - 32 then 3 else 1) ++ le 4 b.bseq ++
        le 4 0 ++ le 4 bytes.length ++ bytes.take (mtu - 32))) ∧
  (∀ (i : Fin 64) (e e' : SourceState) (b : Block) (q : NetPort) (bytes : List Byte) (mtu : Nat) (s : State),
    s.booted = true → s.maySend = true → s.toSend i.val = none ∨ s.flag Reg.CRY_S_CFG_DEST 0 i.val = true →
    s.isManager = true → s.flag Reg.CRY_FWD_CFG_TO_HOST = false → s.nextKept (fun _ => true) = some (e, b, e') →
    e.stream = i.val → q = .M →
    bytes = wordsBytes b.words → mtu = s.fld Reg.NET_CFG_MTU q.ix → 32 < mtu →
    ∃ t, exec (.blockSend i) s = .next t ∧ t.nextOf i.val = s.nextOf i.val ∧
      Sent s t q 0x10 (le 2 b.source ++ le 1 b.stream ++ le 1 (if bytes.length ≤ mtu - 32 then 3 else 1) ++ le 4 b.bseq ++
        le 4 0 ++ le 4 bytes.length ++ bytes.take (mtu - 32))) ∧
  (∀ (i : Fin 64) (s : State), s.booted = false ∨ s.maySend = false →
    ∃ t, exec (.blockSend i) s = .next t ∧ Settles s t) ∧
  (∀ (i : Fin 64) (s : State), s.ackedOf i.val < s.nextOf i.val →
    (s.stream i.val).ackT + s.fld Reg.CRY_ACK_CFG_TIMEOUT * msTm ≤ s.life → s.follows = false →
    ∃ t, exec (.ackTimeout i) s = .next t ∧ (t.stream i.val).replayAt = some (s.ackedOf i.val) ∧
      t.flag Reg.CRY_S_STATE_REPLAYING 0 i.val = true ∧ t.told .CRY 0 20 = true) ∧
  (∀ (i : Fin 64) (s : State), s.life < (s.stream i.val).ackT + s.fld Reg.CRY_ACK_CFG_TIMEOUT * msTm →
    s.cry.sources = [] →
    ∃ t, exec (.ackTimeout i) s = .next t ∧ Settles s t)

/-- Acknowledgements and the blocks of other hubs (R495 to R498): an acknowledgement at a block boundary, of the manager or of a
host, releases what lies below it; a host's replay starts where it asks; one past the blocks sent is counted, and changes no
block; a manager keeps the first fragment of a block, and drops and counts one that follows none. -/
def Obligations.Acknowledgement : Prop :=
  (∀ (p : NetPort) (h : Hdr) (e : AckEntry) (i a : Nat) (s : State), s.takes p 0x11 h = true → i = e.stream.val →
    a = e.a.toNat → e.kind.val = 0 → e.source.toNat = s.sourceAddr → s.flag Reg.SYS_JOIN_STATUS_JOINED = true →
    h.src.toNat = s.fld Reg.NET_MGR_ADDR → s.flag Reg.CRY_S_CFG_DEST 0 i = false → e.session = w32 (s.fld Reg.CRY_SESSION) →
    e.gen.toNat = s.fld Reg.CRY_S_STATE_GEN 0 i → s.ackedOf i < a → a ≤ s.nextOf i → s.onBoundary i a = true →
    ∃ t, exec (.ack p h [e]) s = .next t ∧ t.ackedOf i = a ∧
      (t.stream i).blocks = (s.stream i).blocks.filter (fun b => decide (a < b.stop)) ∧ t.nextOf i = s.nextOf i) ∧
  (∀ (p : HostPort) (w : Word) (i a : Nat) (s : State), s.pageOpen p = true → i = w.toNat / 0x10000 % 0x40 →
    a = s.cry.hostAckLo.toNat + 0x100000000 * (w.toNat % 0x10000) → s.fld Reg.CRY_HOST_ACK_SRC_SRC = s.sourceAddr →
    s.flag Reg.CRY_S_CFG_DEST 0 i = true → s.ackedOf i < a → a ≤ s.nextOf i → s.onBoundary i a = true →
    ∃ t, exec (.hostAck p w) s = .next t ∧ t.ackedOf i = a ∧
      (t.stream i).blocks = (s.stream i).blocks.filter (fun b => decide (a < b.stop)) ∧ t.nextOf i = s.nextOf i) ∧
  (∀ (p : HostPort) (w : Word) (i a : Nat) (s : State), s.pageOpen p = true → i = w.toNat / 0x10000 % 0x40 →
    a = s.cry.hostAckLo.toNat + 0x100000000 * (w.toNat % 0x10000) → s.fld Reg.CRY_HOST_ACK_SRC_SRC = s.sourceAddr →
    s.flag Reg.CRY_S_CFG_DEST 0 i = true → s.ackedOf i < a → s.nextOf i < a →
    ∃ t, exec (.hostAck p w) s = .next t ∧ t.fld Reg.CRY_COUNTS_ACK_BAD = (s.fld Reg.CRY_COUNTS_ACK_BAD + 1) % 0x10000 ∧
      t.told .CRY 0 19 = true ∧ t.ackedOf i = s.ackedOf i ∧ (t.stream i).blocks = (s.stream i).blocks) ∧
  (∀ (p : HostPort) (w : Word) (i a : Nat) (s : State), s.pageOpen p = true → i = w.toNat / 0x10000 % 0x40 →
    a = s.cry.hostReplayLo.toNat + 0x100000000 * (w.toNat % 0x10000) → s.fld Reg.CRY_HOST_ACK_SRC_SRC = s.sourceAddr →
    s.flag Reg.CRY_S_CFG_DEST 0 i = true → s.ackedOf i ≤ a → a < s.nextOf i → s.onBoundary i a = true →
    ∃ t, exec (.hostReplay p w) s = .next t ∧ (t.stream i).replayAt = some a ∧
      t.flag Reg.CRY_S_STATE_REPLAYING 0 i = true ∧ t.told .CRY 0 20 = true ∧ t.ackedOf i = s.ackedOf i) ∧
  (∀ (p : NetPort) (h : Hdr) (m : BlockMsg) (s : State), s.takes p 0x10 h = true → s.isManager = true → m.first = true →
    m.last = false → m.offset = 0 → m.bytes.length ≤ m.total.toNat →
    ∃ t, exec (.block p h m) s = .next t ∧
      t.cry.partials = (s.cry.partials.filter fun x => !decide (x.source = m.source.toNat ∧ x.stream = m.stream.val)) ++
        [⟨m.source.toNat, m.stream.val, m.bseq.toNat, m.total.toNat, m.bytes⟩]) ∧
  (∀ (p : NetPort) (h : Hdr) (m : BlockMsg) (s : State), s.takes p 0x10 h = true → s.isManager = true → m.first = false →
    (∀ x, x ∈ s.cry.partials → ¬ (x.source = m.source.toNat ∧ x.stream = m.stream.val)) →
    ∃ t, exec (.block p h m) s = .next t ∧
      t.fld Reg.NET_DROPS_B_DROP_FRAG p.ix = (s.fld Reg.NET_DROPS_B_DROP_FRAG p.ix + 1) % 0x10000 ∧
      t.fld Reg.CRY_FWD_DROPS_DROPS = (s.fld Reg.CRY_FWD_DROPS_DROPS + 1) % 0x100000000 ∧ t.cry.sources = s.cry.sources)

/-- The queues of the hosts (R510 to R513): a block that fits, of the hub's own or kept of a source, is pushed whole, with the bits
that change in the memory; a pop takes the oldest word, or waits for one, and reads 0 on a bound port; a word whose parity fails
is told, with P set; a pop that waits at a block boundary returns the idle item, and one inside a block waits on.
The model's choices in it: log 74. -/
def Obligations.HostQueues : Prop :=
  (∀ (q : Fin 16) (flips : List (Nat × BitVec 33)) (i : Nat) (b : Block) (s : State),
    s.flag Reg.CRY_QCFG_EN 0 q.val = true → s.feeds = true → s.queueNext q.val = some (i, b) →
    (s.queue q.val).waiting = [] →
    ∃ t, exec (.queuePush ⟨q, flips⟩) s = .next t ∧
      (t.queue q.val).words = (s.queue q.val).words ++ State.storedWords b.words flips ∧
      ((s.stream i).replayAt = none → t.nextOf i = b.stop % 2 ^ 48)) ∧
  (∀ (q : Fin 16) (flips : List (Nat × BitVec 33)) (e e' : SourceState) (b : Block) (s : State),
    s.flag Reg.CRY_QCFG_EN 0 q.val = true → s.feeds = true → s.queueNext q.val = none → s.isManager = true →
    s.flag Reg.CRY_FWD_CFG_TO_HOST = true → s.fld Reg.CRY_FWD_CFG_QUEUE = q.val →
    s.nextKept (fun b => decide (b.words.length ≤ s.queueRoom q.val)) = some (e, b, e') → (s.queue q.val).waiting = [] →
    ∃ t, exec (.queuePush ⟨q, flips⟩) s = .next t ∧
      (t.queue q.val).words = (s.queue q.val).words ++ State.storedWords b.words flips) ∧
  (∀ (q : Fin 16) (flips : List (Nat × BitVec 33)) (s : State), s.flag Reg.CRY_QCFG_EN 0 q.val = false ∨ s.feeds = false →
    (s.queue q.val).waiting = [] →
    ∃ t, exec (.queuePush ⟨q, flips⟩) s = .next t ∧ Settles s t) ∧
  (∀ (p : HostPort) (q : Fin 16) (flips : BitVec 33) (x : QWord) (rest : List QWord) (s : State), s.portOpen p = true →
    (s.queue q.val).words = x :: rest → x.bad = decide (popcount 33 flips.toNat % 2 = 1) →
    ∃ t, exec (.qpop p q flips) s = .next t ∧ (t.hp p).lastRead = [x.w ^^^ w32 flips.toNat] ∧
      (t.queue q.val).words = rest) ∧
  (∀ (p : HostPort) (q : Fin 16) (flips : BitVec 33) (x : QWord) (rest : List QWord) (s : State), s.portOpen p = true →
    (s.queue q.val).words = x :: rest → x.bad ≠ decide (popcount 33 flips.toNat % 2 = 1) →
    ∃ t, exec (.qpop p q flips) s = .next t ∧ (t.hp p).lastRead = [x.w ^^^ w32 flips.toNat ||| 1] ∧
      (t.queue q.val).words = rest ∧ t.told .CRY 0 21 = true ∧
      t.fld Reg.CRY_QSTAT_PARITY 0 q.val = (s.fld Reg.CRY_QSTAT_PARITY 0 q.val + 1) % 0x1000) ∧
  (∀ (p : HostPort) (q : Fin 16) (flips : BitVec 33) (s : State), s.portOpen p = true → (s.queue q.val).words = [] →
    ∃ t, exec (.qpop p q flips) s = .next t ∧ (t.hp p).lastRead = [] ∧
      (t.queue q.val).waiting = (s.queue q.val).waiting ++ [⟨p, .single⟩] ∧ (t.queue q.val).words = []) ∧
  (∀ (p : HostPort) (q : Fin 16) (flips : BitVec 33) (s : State), s.booted = true → s.bound p = true →
    ∃ t, exec (.qpop p q flips) s = .next t ∧ (t.hp p).lastRead = [0] ∧ t.queue q.val = s.queue q.val) ∧
  (∀ (p : HostPort) (q : Fin 16) (rest : List PopWait) (s : State), (s.queue q.val).waiting = ⟨p, .single⟩ :: rest →
    (s.queue q.val).left = 0 →
    ∃ t, exec (.queuePopStall q) s = .next t ∧ (t.hp p).lastRead = (s.hp p).lastRead ++ [0] ∧
      (t.queue q.val).waiting = rest ∧ (t.queue q.val).words = (s.queue q.val).words) ∧
  (∀ (q : Fin 16) (s : State), (s.queue q.val).waiting = [] ∨ (s.queue q.val).left ≠ 0 →
    ∃ t, exec (.queuePopStall q) s = .next t ∧ Settles s t)

/-- The scrubber and the devices' temperature (R523, R530, R531): a scrub begins at the first codeword of a trained memory, each
read moves on by one whatever it finds, leaves a memory without errors as it is, and the last one ends the pass; MR4 is shown,
and told where it is new; DQS tracking changes nothing. -/
def Obligations.MemoryUpkeep : Prop :=
  (∀ (p : HostPort) (s : State), s.pageOpen p = true → s.sys.trained = true →
    ∃ t, exec (.scrubNow p) s = .next t ∧ t.mem.pos = 0 ∧ t.mem.immediate = true ∧
      t.flag Reg.MEM_STATUS_SCRUBBING = true ∧ t.fld Reg.MEM_SCRUB_POS_UNIT = 0 ∧ t.dram = s.dram) ∧
  (∀ (p : HostPort) (s : State), s.pageOpen p = true → s.sys.trained = false →
    ∃ t, exec (.scrubNow p) s = .next t ∧ Settles s t) ∧
  (∀ (errs : List (Nat × Byte)) (s : State), s.booted = true → s.mem.pos + 1 < s.usableBytes / 32 →
    ∃ t, exec (.scrubRead errs) s = .next t ∧ t.mem.pos = s.mem.pos + 1) ∧
  (∀ s : State, s.booted = true → s.mem.errs = [] → s.mem.pos + 1 < s.usableBytes / 32 →
    ∃ t, exec (.scrubRead []) s = .next t ∧ t.mem.pos = s.mem.pos + 1 ∧
      t.fld Reg.MEM_SCRUB_POS_UNIT = (s.mem.pos + 1) / 128 % 0x400000 ∧ t.dram = s.dram) ∧
  (∀ s : State, s.booted = true → s.mem.errs = [] → s.usableBytes / 32 ≤ s.mem.pos + 1 →
    ∃ t, exec (.scrubRead []) s = .next t ∧ t.mem.pos = 0 ∧ t.mem.immediate = false ∧
      t.flag Reg.MEM_STATUS_SCRUBBING = false ∧ t.told .MEM 0 2 = true ∧
      t.fld Reg.MEM_SCRUB_PASSES_PASSES = (s.fld Reg.MEM_SCRUB_PASSES_PASSES + 1) % 0x100000000 ∧ t.dram = s.dram) ∧
  (∀ (m0 m1 : BitVec 3) (s : State), s.sys.trained = true →
    ∃ t, exec (.mr4Poll m0 m1) s = .next t ∧ t.fld Reg.MEM_DEV_TEMP_MR4_0 = m0.toNat ∧
      t.fld Reg.MEM_DEV_TEMP_MR4_1 = m1.toNat ∧
      (s.fld Reg.MEM_DEV_TEMP_MR4_0 ≠ m0.toNat ∨ s.fld Reg.MEM_DEV_TEMP_MR4_1 ≠ m1.toNat → t.told .MEM 0 4 = true)) ∧
  (∀ s : State, ∃ t, exec .dqsTracking s = .next t ∧ Settles s t)

/-- The control loops under their commands (R628, R630, R634 to R637, R643 to R645): requests of an enabled loop wait for its next
period, AUTO of a disabled one is refused; SP and MAN_OUT are written; CLR_FAULT clears the fault; at a period's start, on the
grid or at a re-anchoring, the code of the period before takes effect, and a loop whose state fails its parity drops; a missed
deadline loses the result, and the last one admitted drops the loop. -/
def Obligations.ControlLoops : Prop :=
  (∀ (p : HostPort) (n : Fin 16) (s : State), s.pageOpen p = true → s.flag Reg.CTL_STATUS_EN n.val = true →
    ∃ t, exec (.auto p n) s = .next t ∧
      Settles (s.setLoop n.val { s.loop n.val with reqs := (s.loop n.val).reqs ++ [⟨true, 0, 0⟩] }) t) ∧
  (∀ (p : HostPort) (n : Fin 16) (s : State), s.pageOpen p = true → s.flag Reg.CTL_STATUS_EN n.val = false →
    ∃ t, exec (.auto p n) s = .next t ∧ Settles (s.refuseAuto n.val ⟨true, 0, 0⟩) t) ∧
  (∀ (p : HostPort) (n : Fin 16) (s : State), s.pageOpen p = true → s.flag Reg.CTL_STATUS_EN n.val = true →
    ∃ t, exec (.manual p n) s = .next t ∧
      Settles (s.setLoop n.val { s.loop n.val with reqs := (s.loop n.val).reqs ++ [⟨false, 0, 0⟩] }) t) ∧
  (∀ (p : HostPort) (n : Fin 16) (s : State), s.pageOpen p = true → s.flag Reg.CTL_STATUS_EN n.val = false →
    ∃ t, exec (.manual p n) s = .next t ∧ Settles s t) ∧
  (∀ (p : HostPort) (n : Fin 16) (s : State), s.pageOpen p = true →
    ∃ t, exec (.ctlClrFault p n) s = .next t ∧
      Settles ((s.setFlag Reg.CTL_STATUS_FAULT n.val 0 false).setFld Reg.CTL_STATUS_FAULT_CAUSE n.val 0 0) t) ∧
  (∀ (p : HostPort) (n : Fin 16) (w : Word) (s : State), s.pageOpen p = true →
    ∃ t, exec (.spWrite p n w) s = .next t ∧ t.fld Reg.CTL_SP n.val = w.toNat % 0x1000000 ∧ t.ctl = s.ctl) ∧
  (∀ (p : HostPort) (n : Fin 16) (w : Word) (s : State), s.pageOpen p = true →
    ∃ t, exec (.manOutWrite p n w) s = .next t ∧ t.fld Reg.CTL_MAN_OUT_CODE n.val = w.toNat % 0x10000 ∧ t.ctl = s.ctl) ∧
  (∀ (n : Fin 16) (parity : Bool) (u : Nat) (a : Bool) (s : State), s.booted = true → s.idles = false →
    s.flag Reg.CTL_STATUS_EN n.val = true →
    s.chainK % (s.fld Reg.CTL_PERIOD_P n.val : Int) = 0 ∨ (s.loop n.val).restart = some s.chainK →
    (s.loop n.val).lastK ≠ some s.chainK → (s.loop n.val).next = some (u, a) → s.twn.holdLoops = none →
    ∃ t, exec (.loopPeriodStart ⟨n, parity⟩) s = .next t ∧ t.fld Reg.CTL_OUT_CODE n.val = u % 0x10000 ∧
      t.flag Reg.CTL_OUT_MODE n.val = a ∧ (t.loop n.val).lastK = some s.chainK) ∧
  (∀ (n : Fin 16) (s : State), s.booted = true → s.idles = false → s.flag Reg.CTL_STATUS_EN n.val = true →
    s.chainK % (s.fld Reg.CTL_PERIOD_P n.val : Int) = 0 ∨ (s.loop n.val).restart = some s.chainK →
    (s.loop n.val).lastK ≠ some s.chainK →
    ∃ t, exec (.loopPeriodStart ⟨n, true⟩) s = .next t ∧ t.flag Reg.CTL_STATUS_MODE n.val = false ∧
      t.flag Reg.CTL_STATUS_FAULT n.val = true ∧ t.fld Reg.CTL_STATUS_FAULT_CAUSE n.val = 5 ∧
      t.told .CTL n.val 1 = true) ∧
  (∀ (n : Fin 16) (parity : Bool) (s : State), s.flag Reg.CTL_STATUS_EN n.val = false ∨
    (s.loop n.val).lastK = some s.chainK ∨ s.booted = false ∨ s.idles = true →
    ∃ t, exec (.loopPeriodStart ⟨n, parity⟩) s = .next t ∧ Settles s t) ∧
  (∀ (n : Fin 16) (s : State), s.flag Reg.CTL_STATUS_EN n.val = true → (s.loop n.val).computed = true →
    s.flag Reg.CTL_STATUS_MODE n.val = false ∨ (s.loop n.val).overruns + 1 < s.fld Reg.CTL_PLAUS_N_OVR_LIMIT n.val →
    ∃ t, exec (.loopDeadline n) s = .next t ∧ (t.loop n.val).next = none ∧ (t.loop n.val).computed = false ∧
      (t.loop n.val).law = (s.loop n.val).saved ∧ (t.loop n.val).overruns = (s.loop n.val).overruns + 1 ∧
      t.flag Reg.CTL_STATUS_HOLDING n.val = true ∧ t.fld Reg.CTL_OUT_CODE n.val = s.fld Reg.CTL_OUT_CODE n.val ∧
      t.fld Reg.CTL_COUNTS_OVERRUNS n.val = (s.fld Reg.CTL_COUNTS_OVERRUNS n.val + 1) % 0x10000) ∧
  (∀ (n : Fin 16) (s : State), s.flag Reg.CTL_STATUS_EN n.val = true → (s.loop n.val).computed = true →
    s.flag Reg.CTL_STATUS_MODE n.val = true → s.fld Reg.CTL_PLAUS_N_OVR_LIMIT n.val ≤ (s.loop n.val).overruns + 1 →
    ∃ t, exec (.loopDeadline n) s = .next t ∧ t.flag Reg.CTL_STATUS_MODE n.val = false ∧
      t.flag Reg.CTL_STATUS_FAULT n.val = true ∧ t.fld Reg.CTL_STATUS_FAULT_CAUSE n.val = 4 ∧
      t.fld Reg.CTL_MAN_OUT_CODE n.val = s.fld Reg.CTL_OUT_CODE n.val ∧ t.told .CTL n.val 1 = true) ∧
  (∀ (n : Fin 16) (s : State), s.flag Reg.CTL_STATUS_EN n.val = false ∨ (s.loop n.val).computed = false →
    ∃ t, exec (.loopDeadline n) s = .next t ∧ Settles s t)

/-- The marker drive (R651, R657 to R660, R662, R667, R668): a flip is asked for, by a host or an edge of MKSYNC, and taken at the next
refresh start; a refresh starts with a PWM period and ends once its periods have run, with the chain checked where the hub drives
it and a refresh has been sent before; a diagnostic refresh becomes due, by a host or after its period, and is told when it has
waited 1 s; the fades that have run their time end; the hidden buffer of the frame memory is written, the shown one is not, nor
is a width out of range. -/
def Obligations.MarkerDrive : Prop :=
  (∀ (p : HostPort) (s : State), s.pageOpen p = true → s.flag Reg.MRK_STATUS_FLIP_PEND = false →
    ∃ t, exec (.flip p) s = .next t ∧
      Settles { s.setFlag Reg.MRK_STATUS_FLIP_PEND 0 0 true with mrk := { s.mrk with flipSrc := 0 } } t) ∧
  (∀ (p : HostPort) (s : State), s.pageOpen p = true → s.flag Reg.MRK_STATUS_FLIP_PEND = true →
    ∃ t, exec (.flip p) s = .next t ∧ Settles (s.bump Reg.MRK_COUNTS_MERGED 0 0) t) ∧
  (∀ (level : Bool) (tm : Tm) (s : State), s.booted = true → s.follows = false →
    ∃ t, exec (.mksyncEdge level tm) s = .next t ∧
      t.fld Reg.MRK_LAST_SYNC_T = tm / Config.unitsPerNs % 0x100000000 ∧
      (s.flag Reg.MRK_CFG_SYNC_EN = true → s.flag Reg.MRK_CFG_SYNC_EDGE = !level → t.flag Reg.MRK_STATUS_FLIP_PEND = true)) ∧
  (∀ s : State, s.booted = true → s.idles = false → s.mrkMode ≠ 0 → s.mrk.running = false → s.chainK % 16 = 0 →
    ∃ t, exec .refreshStart s = .next t ∧ t.mrk.running = decide (s.mrkMode = 1) ∧ t.flag Reg.MRK_STATUS_FLIP_PEND = false ∧
      t.fld Reg.MRK_STATUS_FRONT = (if s.flag Reg.MRK_STATUS_FLIP_PEND then 1 - s.fld Reg.MRK_STATUS_FRONT
        else s.fld Reg.MRK_STATUS_FRONT)) ∧
  (∀ s : State, s.mrkMode = 0 ∨ s.mrk.running = true ∨ s.chainK % 16 ≠ 0 ∨ s.booted = false ∨ s.idles = true →
    ∃ t, exec .refreshStart s = .next t ∧ Settles s t) ∧
  (∀ (bs : List BoardRet) (s : State), s.latchDue = false → ∃ t, exec (.latch bs) s = .next t ∧ Settles s t) ∧
  (∀ (bs : List BoardRet) (s : State), s.latchDue = true →
    s.flag Reg.MRK_STATUS_DRIVING = false ∨ s.mrk.sentOnce = false →
    ∃ t, exec (.latch bs) s = .next t ∧ t.mrk.running = false ∧ t.mrk.sentOnce = true ∧ t.mrk.wasDiag = s.mrk.diag ∧
      t.mrk.sent = s.mrk.sending ∧
      t.flag Reg.MRK_STATUS_CHAIN_OK = s.flag Reg.MRK_STATUS_CHAIN_OK) ∧
  (∀ (bs : List BoardRet) (s : State), s.latchDue = true → s.flag Reg.MRK_STATUS_DRIVING = true → s.mrk.sentOnce = true →
    (∀ k, k < s.boards → (bs.find? fun b => decide (b.board.val = k)).any s.echoOk = true) →
    ∃ t, exec (.latch bs) s = .next t ∧ t.mrk.running = false ∧ t.flag Reg.MRK_STATUS_CHAIN_OK = true ∧
      t.mrk.failRun = 0) ∧
  (∀ (p : HostPort) (s : State), s.pageOpen p = true → s.mrkMode = 1 → s.flag Reg.MRK_STATUS_DIAG_DUE = false →
    ∃ t, exec (.diagNow p) s = .next t ∧ Settles { s.setFlag Reg.MRK_STATUS_DIAG_DUE 0 0 true with
      mrk := { s.mrk with dueAt := s.life, told := false } } t) ∧
  (∀ (p : HostPort) (s : State), s.pageOpen p = true → s.mrkMode ≠ 1 ∨ s.flag Reg.MRK_STATUS_DIAG_DUE = true →
    ∃ t, exec (.diagNow p) s = .next t ∧ Settles s t) ∧
  (∀ s : State, s.booted = true → s.mrkMode = 1 → s.flag Reg.MRK_STATUS_DIAG_DUE = false →
    s.past s.mrk.diagFrom (s.fld Reg.MRK_DIAG_TIME_PERIOD) = true →
    ∃ t, exec .diagPeriodExpiry s = .next t ∧ Settles { s.setFlag Reg.MRK_STATUS_DIAG_DUE 0 0 true with
      mrk := { s.mrk with diagFrom := s.life, dueAt := s.life, told := false } } t) ∧
  (∀ s : State, s.past s.mrk.diagFrom (s.fld Reg.MRK_DIAG_TIME_PERIOD) = false →
    ∃ t, exec .diagPeriodExpiry s = .next t ∧ Settles s t) ∧
  (∀ s : State, s.flag Reg.MRK_STATUS_DIAG_DUE = true → s.mrk.told = false → s.past s.mrk.dueAt 1000 = true →
    ∃ t, exec .diagDeferred s = .next t ∧ t.mrk = { s.mrk with told := true } ∧ t.told .MRK 0 4 = true ∧
      t.fld Reg.MRK_DIAGS_DEFERRED = (s.fld Reg.MRK_DIAGS_DEFERRED + 1) % 0x10000) ∧
  (∀ s : State, ∃ t, exec .markerFadeEnd s = .next t ∧
      t.mrk.fades = s.mrk.fades.filter (fun e => !decide (e.2.t0 + e.2.time ≤ s.life)) ∧
      t.flag Reg.MRK_STATUS_FADING = !t.mrk.fades.isEmpty) ∧
  (∀ (p : HostPort) (i : Fin 2048) (w : Word) (s : State), s.pageOpen p = true →
    i.val / 0x400 ≠ s.fld Reg.MRK_STATUS_FRONT → w.toNat % 0x400 ≤ 768 →
    ∃ t, exec (.frameMemoryWrite p i w) s = .next t ∧
      Settles { s with regs := regWr s.regs (0xC8000 + 4 * i.val) (w32 (w.toNat % 0x400000)) } t) ∧
  (∀ (p : HostPort) (i : Fin 2048) (w : Word) (s : State), s.pageOpen p = true →
    i.val / 0x400 = s.fld Reg.MRK_STATUS_FRONT →
    ∃ t, exec (.frameMemoryWrite p i w) s = .next t ∧ Settles (s.err .MRK 0 0x10) t) ∧
  (∀ (p : HostPort) (i : Fin 2048) (w : Word) (s : State), s.pageOpen p = true →
    i.val / 0x400 ≠ s.fld Reg.MRK_STATUS_FRONT → 768 < w.toNat % 0x400 →
    ∃ t, exec (.frameMemoryWrite p i w) s = .next t ∧ Settles (s.err .MRK 0 7) t)

/-- The boost of the marker drive (R664 to R666): a switching cycle measures the output, with a duty no greater than DUTY_MAX;
an overvoltage that has lasted 10 µs trips it; CLR_FAULT clears the fault and starts it again where it is enabled.
The model's choices in it: log 22. -/
def Obligations.MarkerBoost : Prop :=
  (∀ (mv : Nat) (s : State), s.booted = true → s.flag Reg.MRK_STATUS_BOOST_ON = true →
    ∃ t, exec (.boostCycle mv) s = .next t ∧ t.fld Reg.MRK_BST_NOW_V_MEAS = s.vMeas mv ∧
      t.mrk.duty ≤ s.fld Reg.MRK_BST_LIM_DUTY_MAX * 65536 / 100) ∧
  (∀ (mv : Nat) (s : State), s.flag Reg.MRK_STATUS_BOOST_ON = false →
    ∃ t, exec (.boostCycle mv) s = .next t ∧ Settles s t) ∧
  (∀ (mv : Nat) (s : State), s.booted = true → s.flag Reg.MRK_STATUS_BOOST_ON = true →
    105 * s.fld Reg.MRK_BST_CFG_V_MAX < 100 * s.vMeas mv →
    s.mrk.overAt.any (fun t => decide (t + 10000 * Config.unitsPerNs ≤ s.life)) = true →
    ∃ t, exec (.boostTrip mv) s = .next t ∧ t.flag Reg.MRK_STATUS_BOOST_FAULT = true ∧
      t.flag Reg.MRK_STATUS_BOOST_ON = false ∧ t.mrk.duty = 0 ∧ t.told .MRK 0 3 = true ∧
      t.fld Reg.MRK_BST_NOW_V_MEAS = s.vMeas mv) ∧
  (∀ (mv : Nat) (s : State), 100 * s.vMeas mv ≤ 105 * s.fld Reg.MRK_BST_CFG_V_MAX ∨
    s.mrk.overAt.any (fun t => decide (t + 10000 * Config.unitsPerNs ≤ s.life)) = false →
    ∃ t, exec (.boostTrip mv) s = .next t ∧ Settles s t) ∧
  (∀ (p : HostPort) (s : State), s.pageOpen p = true → s.flag Reg.MRK_STATUS_BOOST_FAULT = true →
    ∃ t, exec (.mrkClrFault p) s = .next t ∧ t.flag Reg.MRK_STATUS_BOOST_FAULT = false ∧
      (s.flag Reg.MRK_CFG_BST_EN = true → t.fld Reg.MRK_BST_NOW_V_SET = s.fld Reg.MRK_BST_CFG_V_INIT ∧ t.mrk.duty = 0 ∧
        t.flag Reg.MRK_STATUS_BOOST_ON = s.flag Reg.MRK_STATUS_DRIVING)) ∧
  (∀ (p : HostPort) (s : State), s.pageOpen p = true → s.flag Reg.MRK_STATUS_BOOST_FAULT = false →
    ∃ t, exec (.mrkClrFault p) s = .next t ∧ Settles s t)

/-- The test access port and TESTEN (R676 to R680): each instruction comes into force, those that drive the balls only while
TESTEN is high, and BYPASS in their place while it is low; a code of another instruction is no BYPASS. -/
def Obligations.TestAccess : Prop :=
  (∀ (level : Bool) (s : State), s.pins.testen = !level →
    ∃ t, exec (.testenChange level) s = .next t ∧ t.pins.testen = level ∧ t.flag Reg.DBG_STATUS_TESTMODE = level ∧
      (s.sys.inReset = false → t.told .DBG 0 1 = true) ∧
      (level = false → 3 ≤ s.fld Reg.DBG_STATUS_IR → s.fld Reg.DBG_STATUS_IR ≤ 5 → t.fld Reg.DBG_STATUS_IR = 0xFF)) ∧
  (∀ s : State, ∃ t, exec (.testenChange s.pins.testen) s = .next t ∧ Settles s t) ∧
  (∀ s : State, ∃ t, exec .testLogicReset s = .next t ∧ t.fld Reg.DBG_STATUS_IR = 1 ∧ t.dbg.cells = [] ∧
      t.dbg.testDrive = false) ∧
  (∀ s : State, ∃ t, exec .idcode s = .next t ∧ t.fld Reg.DBG_STATUS_IR = 1 ∧ t.dbg.cells = s.dbg.cells) ∧
  (∀ (cells : List Bool) (s : State), ∃ t, exec (.samplePreload cells) s = .next t ∧ t.fld Reg.DBG_STATUS_IR = 2 ∧
      t.dbg.cells = cells) ∧
  (∀ (cells : List Bool) (s : State), s.pins.testen = true →
    ∃ t, exec (.extest cells) s = .next t ∧ t.fld Reg.DBG_STATUS_IR = 3 ∧ t.dbg.cells = cells) ∧
  (∀ (cells : List Bool) (s : State), s.pins.testen = false →
    ∃ t, exec (.extest cells) s = .next t ∧ t.fld Reg.DBG_STATUS_IR = 0xFF ∧ t.dbg.cells = s.dbg.cells) ∧
  (∀ s : State, ∃ t, exec .clamp s = .next t ∧ t.fld Reg.DBG_STATUS_IR = (if s.pins.testen then 4 else 0xFF) ∧
      t.dbg.cells = s.dbg.cells) ∧
  (∀ s : State, ∃ t, exec .highz s = .next t ∧ t.fld Reg.DBG_STATUS_IR = (if s.pins.testen then 5 else 0xFF) ∧
      t.dbg.cells = s.dbg.cells) ∧
  (∀ (code : Byte) (s : State), code.toNat = 0 ∨ 5 < code.toNat →
    ∃ t, exec (.bypass code) s = .next t ∧ t.fld Reg.DBG_STATUS_IR = 0xFF ∧ t.dbg.cells = s.dbg.cells) ∧
  (∀ (code : Byte) (s : State), 1 ≤ code.toNat → code.toNat ≤ 5 →
    ∃ t, exec (.bypass code) s = .next t ∧ Settles s t)

/-- The self-tests (R688 to R691): each starts on a memory that is not in use, and is refused while another runs; the end of a memory
test leaves its result, the address of a failure and a memory of zeros; that of the reference test, once every bank has been
measured, its verdict. The model's choices in it: log 113. -/
def Obligations.SelfTests : Prop :=
  (∀ (p : HostPort) (s : State), s.portOpen p = true → s.flag Reg.DBG_STATUS_BIST_BUSY = false →
    State.bistInUse s.regs (!s.enabledBeads.isEmpty) 1 0 = false →
    ∃ t, exec (.bistQueueSram p) s = .next t ∧ t.flag Reg.DBG_STATUS_BIST_BUSY = true ∧ t.dbg.target = 1) ∧
  (∀ (p : HostPort) (g : Fin 16) (s : State), s.portOpen p = true → s.flag Reg.DBG_STATUS_BIST_BUSY = false →
    State.bistInUse s.regs (!s.enabledBeads.isEmpty) 2 g.val = false →
    ∃ t, exec (.bistCoefficientRam p g) s = .next t ∧ t.flag Reg.DBG_STATUS_BIST_BUSY = true ∧ t.dbg.target = 2 ∧
      t.dbg.group = g.val) ∧
  (∀ (p : HostPort) (s : State), s.portOpen p = true → s.flag Reg.DBG_STATUS_BIST_BUSY = false → s.enabledBeads = [] →
    ∃ t, exec (.bistBeadTable p) s = .next t ∧ t.flag Reg.DBG_STATUS_BIST_BUSY = true ∧ t.dbg.target = 3) ∧
  (∀ (p : HostPort) (s : State), s.portOpen p = true → s.flag Reg.DBG_STATUS_BIST_BUSY = false → s.mrkMode = 0 →
    ∃ t, exec (.bistFrameMemory p) s = .next t ∧ t.flag Reg.DBG_STATUS_BIST_BUSY = true ∧ t.dbg.target = 4) ∧
  (∀ (p : HostPort) (s : State), s.portOpen p = true → s.flag Reg.DBG_STATUS_BIST_BUSY = false →
    ∃ t, exec (.bistConverterReferences p) s = .next t ∧ t.flag Reg.DBG_STATUS_BIST_BUSY = true ∧ t.dbg.target = 5) ∧
  (∀ (p : HostPort) (g : Fin 16) (i : Instr) (s : State), i ∈ [.bistQueueSram p, .bistCoefficientRam p g, .bistBeadTable p,
      .bistFrameMemory p, .bistConverterReferences p] → s.portOpen p = true → s.flag Reg.DBG_STATUS_BIST_BUSY = true →
    ∃ t, exec i s = .next t ∧ t.dbg = s.dbg ∧ t.flag Reg.DBG_STATUS_BIST_BUSY = true ∧
      (regRd t.regs 0xF0018).toNat % 0x100 = 0x10) ∧
  (∀ (a : Word) (devs : List (Int × Int)) (s : State), s.flag Reg.DBG_STATUS_BIST_BUSY = true → 1 ≤ s.dbg.target →
    s.dbg.target ≤ 4 →
    ∃ t, exec (.bistEnd (.fail a) devs) s = .next t ∧ t.fld Reg.DBG_BIST_RES_RESULT = 2 ∧
      t.fld Reg.DBG_BIST_RES_TARGET = s.dbg.target ∧ t.fld Reg.DBG_FAIL_ADDR_ADDR = a.toNat ∧
      t.flag Reg.DBG_STATUS_BIST_BUSY = false ∧ t.told .DBG 0 0 = true) ∧
  (∀ (e : BistEnd) (devs : List (Int × Int)) (s : State), s.flag Reg.DBG_STATUS_BIST_BUSY = true → 1 ≤ s.dbg.target →
    s.dbg.target ≤ 4 →
    ∃ t, exec (.bistEnd e devs) s = .next t ∧ (e = .pass → t.fld Reg.DBG_BIST_RES_RESULT = 1) ∧
      t.fld Reg.DBG_BIST_RES_TARGET = s.dbg.target ∧ t.flag Reg.DBG_STATUS_BIST_BUSY = false ∧
      (s.dbg.target = 1 → ∀ q : Fin 16, (t.queue q.val).words = []) ∧
      (s.dbg.target = 2 → s.dbg.group < 16 → ∀ i, i < 16384 → regRd t.regs (0x100000 + 0x10000 * s.dbg.group + 4 * i) = 0) ∧
      (s.dbg.target = 3 → ∀ i, i < 4096 → regRd t.regs (0x18000 + 4 * i) = 0) ∧
      (s.dbg.target = 4 → ∀ i, i < 2048 → regRd t.regs (0xC8000 + 4 * i) = 0)) ∧
  (∀ (e : BistEnd) (devs : List (Int × Int)) (s : State), s.flag Reg.DBG_STATUS_BIST_BUSY = true → s.dbg.target = 5 →
    s.dbg.measured = 0xFFFF →
    ∃ t, exec (.bistEnd e devs) s = .next t ∧ t.fld Reg.DBG_BIST_RES_RESULT = (if (s.refVerdict devs).2 then 1 else 2) ∧
      t.fld Reg.DBG_BIST_RES_TARGET = 5 ∧ t.flag Reg.DBG_STATUS_BIST_BUSY = false ∧ t.told .DBG 0 0 = true) ∧
  (∀ (e : BistEnd) (devs : List (Int × Int)) (s : State), s.flag Reg.DBG_STATUS_BIST_BUSY = false ∨
    s.dbg.target = 5 ∧ s.dbg.measured ≠ 0xFFFF →
    ∃ t, exec (.bistEnd e devs) s = .next t ∧ Settles s t)

/-- The reset sources by name (R78 to R80, R87 to R89, R120): each resets the hub at its threshold, and leaves it as it is below. -/
def Obligations.ResetSources : Prop :=
  (∀ s : State, ∃ t, exec (.powerOnReset .firstPower) s = .next t ∧ t.sys.inReset = true ∧ t.dram = [] ∧
    t.fld Reg.DBG_STATUS_IR = 1) ∧
  (∀ (r : Rail) (mv : Nat) (s : State), mv < tripMv s r →
    ∃ t, exec (.powerOnReset (.railLow r mv)) s = .next t ∧ t.sys.inReset = true ∧ t.dram = []) ∧
  (∀ (r : Rail) (mv : Nat) (s : State), tripMv s r ≤ mv →
    ∃ t, exec (.powerOnReset (.railLow r mv)) s = .next t ∧ Settles s t) ∧
  (∀ (ns : Nat) (s : State), 1000 ≤ ns → ∃ t, exec (.pinReset ns) s = .next t ∧ t.sys.inReset = true ∧ t.dram = []) ∧
  (∀ (ns : Nat) (s : State), ns < 100 → ∃ t, exec (.pinReset ns) s = .next t ∧ Settles s t) ∧
  (∀ (ns : Nat) (s : State), 400 ≤ ns → ∃ t, exec (.refclkLoss ns) s = .next t ∧ t.sys.inReset = true ∧ t.dram = []) ∧
  (∀ (ns : Nat) (s : State), ns < 400 → ∃ t, exec (.refclkLoss ns) s = .next t ∧ Settles s t) ∧
  (∀ (t8 : Int) (s : State), 960 ≤ t8 → ∃ t, exec (.thermalReset t8) s = .next t ∧ t.sys.inReset = true ∧ t.dram = []) ∧
  (∀ (t8 : Int) (s : State), t8 < 960 → ∃ t, exec (.thermalReset t8) s = .next t ∧ Settles s t) ∧
  (∀ (p : HostPort) (w : Word) (s : State), s.portOpen p = true → w.toNat / 0x10000 = 0x0D6E → w.toNat % 2 = 1 →
    ∃ t, exec (.softwareReset p w) s = .next t ∧ t.sys.inReset = true ∧ t.dram = []) ∧
  (∀ (p : HostPort) (w : Word) (s : State), s.portOpen p = true → w.toNat / 0x10000 ≠ 0x0D6E → w.toNat % 2 = 1 →
    ∃ t, exec (.softwareReset p w) s = .next t ∧ Settles (s.raise .SYS 0 3) t) ∧
  (∀ (ms : Nat) (s : State), 100 ≤ ms → s.sys.inReset = false →
    ∃ t, exec (.watchdogReset ms) s = .next t ∧ t.sys.inReset = true ∧ t.dram = []) ∧
  (∀ (ms : Nat) (s : State), ms < 100 ∨ s.sys.inReset = true →
    ∃ t, exec (.watchdogReset ms) s = .next t ∧ Settles s t)

/-- The base-rate instant (R26, R36, R151, R299): the counter stands at the next instant of the grid in force and the index counts on;
a re-anchoring that comes before it takes its index from the epoch; a commit accepted before it is
taken into force whole (R151); while the base rate does not run, nothing happens.
The model's choices in it: log 51. -/
def Obligations.BaseRateInstant : Prop :=
  (∀ (e : BaseEnv) (s : State), s.booted = true → s.tim.running = true → s.tim.reanchor = none →
    ∃ t, exec (.baseRateInstant e) s = .next t ∧ t.tim.k = s.tim.k + 1 ∧
      t.tim.counter = BitVec.ofNat 80 (max s.now (s.gridT (s.tim.k + 1)).toNat) ∧ t.tim.lostNow = false) ∧
  (∀ (e : BaseEnv) (r : Int) (s : State), s.booted = true → s.tim.running = true → s.tim.reanchor = some r →
    r ≤ s.gridT (s.tim.k + 1) →
    ∃ t, exec (.baseRateInstant e) s = .next t ∧
      t.tim.k = (r - (s.tim.epoch.toNat * Config.unitsPerNs : Nat)) / Config.baseUnits ∧
      t.tim.counter = BitVec.ofNat 80 (max s.now r.toNat)) ∧
  (∀ (e : BaseEnv) (r : Int) (s : State), s.booted = true → s.tim.running = true → s.tim.reanchor = some r →
    s.gridT (s.tim.k + 1) < r →
    ∃ t, exec (.baseRateInstant e) s = .next t ∧ t.tim.k = s.tim.k + 1) ∧
  (∀ (e : BaseEnv) (c : CommitState) (s : State), s.booted = true → s.tim.running = true → s.tim.reanchor = none →
    s.sys.straps.pair = false → s.enabledBeads = [] → s.accepted = [c] → (∀ b, b ∈ c.pages → b ∈ allPages) → c.pages.Nodup →
    ∃ t, exec (.baseRateInstant e) s = .next t ∧ t.accepted = [] ∧ t.told .EVT 0 0 = true ∧
      (∀ b, b ∈ c.pages → t.fld Reg.COMMON_SHADOW_STATE_COMMITS (b / 0x1000) =
          (s.fld Reg.COMMON_SHADOW_STATE_COMMITS (b / 0x1000) + 1) % 0x10000 ∧
        (b ∉ c.dirty → t.shadowFlag Reg.COMMON_SHADOW_STATE_PENDING b = false)) ∧
      (∀ a, (regRd t.regs a).toNat &&& rwsMask a = (regRd (takeSnap s.regs c.pages c.snap) a).toNat &&& rwsMask a)) ∧
  (∀ (e : BaseEnv) (s : State), s.booted = false ∨ s.tim.running = false →
    ∃ t, exec (.baseRateInstant e) s = .next t ∧ Settles s t)

/-- The frame of the host commands that act on one page (R142, R147): of the registers and shadows only those of that page, the
event log's, the OVERRATE flags of the streams that carry the log, and the TX counters change, and neither the DRAM, the boot
flash, the pins, the reset state nor the waiting commands do. -/
def Obligations.PageCommandsKeepTheRest : Prop :=
  ∀ (i : Instr) (p : HostPort) (k : PageKind) (n : Nat) (s t : State), pageCommand i = some (p, k, n) →
    s.pageOpen p = true → exec i s = .next t →
    (∀ a, ¬ ofPage k n a → ¬ txWord a → ¬ rateWord a → regRd t.regs a = regRd s.regs a) ∧
    (∀ a, ¬ ofPage k n a → regRd t.shadow a = regRd s.shadow a) ∧
    t.dram = s.dram ∧ t.flash = s.flash ∧ t.pins = s.pins ∧ t.sys = s.sys ∧ t.pending = s.pending

/-- The frame of PTP (R268 to R281): a message or a timer of PTP changes nothing but what the hub keeps of time, the registers
of TIM, NET and the event log, the streams that carry the log (R170) with their OVERRATE flags (R503), and what has been put
out. -/
def Obligations.PtpKeepsTheRest : Prop :=
  ∀ (i : Instr) (s t : State), isPtp i = true → exec i s = .next t →
    t = { s with regs := t.regs, tim := t.tim, evt := t.evt, cry := t.cry, net := t.net, outbox := t.outbox } ∧
    ∀ a, ¬ ofPage .TIM 0 a → (∀ p : NetPort, ¬ ofPage .NET p.ix a) → ¬ rateWord a → regRd t.regs a = regRd s.regs a

/-- What no command changes, of all 232: the commands that wait; the boot flash but for the ends of flash operations and of
journal stores, and a reset that cuts a store short (R173, R256, R259); the levels of DRIVE_MON and TESTEN but for a change of
them; the straps and the reset state but for what can reset the hub or release it (R70, R89, R91, R120). -/
def Obligations.WhatNoCommandChanges : Prop :=
  ∀ (i : Instr) (s t : State), exec i s = .next t →
    t.pending = s.pending ∧
    (writesFlash i = false → mayReset i = false ∨ s.cal.storing = none → t.flash = s.flash) ∧
    (movesPins i = false → t.pins = s.pins) ∧
    (mayReset i = false → t.sys.straps = s.sys.straps ∧ t.sys.inReset = s.sys.inReset)
end

