-- ==== Sys2Proof/Laws/Map.lean ====
section
/-!
SUPPORT. Laws of the sparse maps, the byte memories and the register file: read after write, what a write
leaves alone, and the canonical form that every operation keeps.
-/
namespace Sys2Proof.Machine

variable {α : Type}

/-! ### Sparse maps -/

@[simp] theorem SMap.look_nil (i : Nat) : SMap.look ([] : SMap α) i = none := rfl

theorem SMap.look_cons (k : Nat) (v : α) (t : SMap α) (i : Nat) :
    SMap.look ((k, v) :: t) i = if k = i then some v else SMap.look t i := rfl

/-- Filtering keys: a kept key looks up as before, a dropped one has no entry. -/
theorem SMap.look_filter (m : SMap α) (p : Nat → Bool) (j : Nat) :
    SMap.look (m.filter fun e => p e.1) j = if p j then SMap.look m j else none := by
  induction m with
  | nil => simp
  | cons e t ih =>
    obtain ⟨k, v⟩ := e
    by_cases hk : p k
    · simp only [List.filter, hk, SMap.look_cons, ih]
      by_cases hj : k = j
      · subst hj; simp [hk]
      · simp [hj]
    · simp only [List.filter, hk, SMap.look_cons, ih]
      by_cases hj : k = j
      · subst hj; simp [hk]
      · simp [hj]

theorem SMap.look_del (m : SMap α) (i j : Nat) :
    (m.del i).look j = if j = i then none else m.look j := by
  have h := SMap.look_filter m (fun k => decide (k ≠ i)) j
  simp only [SMap.del]
  rw [h]
  by_cases hj : j = i <;> simp [hj]

theorem SMap.look_ins (m : SMap α) (i : Nat) (v : α) (j : Nat) (h : m.look i = none) :
    (m.ins i v).look j = if i = j then some v else m.look j := by
  induction m with
  | nil => simp [SMap.ins, SMap.look_cons]
  | cons e t ih =>
    obtain ⟨k, w⟩ := e
    simp only [SMap.look_cons] at h
    split at h
    · exact absurd h (by simp)
    · rename_i hk
      simp only [SMap.ins]
      split
      · rfl
      · simp only [SMap.look_cons, ih h]
        by_cases h1 : k = j
        · subst h1; simp [Ne.symm hk]
        · simp [h1]

/-- Reading a key after setting one. -/
theorem SMap.look_put (m : SMap α) (i : Nat) (v : α) (j : Nat) :
    (m.put i v).look j = if j = i then some v else m.look j := by
  simp only [SMap.put]
  rw [SMap.look_ins _ _ _ _ (by simp [SMap.look_del])]
  by_cases h : j = i
  · simp [h]
  · simp [h, Ne.symm h, SMap.look_del]

@[simp] theorem SMap.lookD_put_same (m : SMap α) (i : Nat) (v d : α) : (m.put i v).lookD i d = v := by
  simp [SMap.lookD, SMap.look_put]

theorem SMap.lookD_put_ne (m : SMap α) {i j : Nat} (v d : α) (h : j ≠ i) :
    (m.put i v).lookD j d = m.lookD j d := by
  simp [SMap.lookD, SMap.look_put, h]

theorem SMap.lookD_put (m : SMap α) (i j : Nat) (v d : α) :
    (m.put i v).lookD j d = if j = i then v else m.lookD j d := by
  by_cases h : j = i
  · subst h; simp
  · simp [h, SMap.lookD_put_ne]

/-! Keys that rise strictly. -/

/-- The keys of a map rise strictly, as a relation on pairs. -/
def SMap.Rises (m : SMap α) : Prop := m.Pairwise fun a b => a.1 < b.1

theorem SMap.sorted_iff (m : SMap α) : m.sorted = true ↔ m.Rises := by
  induction m with
  | nil => simp [SMap.sorted, SMap.Rises]
  | cons e t ih =>
    cases t with
    | nil => simp [SMap.sorted, SMap.Rises]
    | cons f u =>
      have key : SMap.sorted (e :: f :: u) = (decide (e.1 < f.1) && SMap.sorted (f :: u)) := by
        obtain ⟨a, x⟩ := e; obtain ⟨b, y⟩ := f; rfl
      rw [key, Bool.and_eq_true, decide_eq_true_eq, ih]
      unfold SMap.Rises
      rw [List.pairwise_cons (a := e)]
      constructor
      · rintro ⟨h, hp⟩
        refine ⟨?_, hp⟩
        intro g hg
        rcases List.mem_cons.mp hg with rfl | hg
        · exact h
        · exact lt_trans h ((List.pairwise_cons.mp hp).1 g hg)
      · rintro ⟨h, hp⟩
        exact ⟨h f (by simp), hp⟩

theorem SMap.rises_filter (m : SMap α) (p : Nat × α → Bool) (h : m.Rises) : SMap.Rises (m.filter p) :=
  List.Pairwise.filter p h

theorem SMap.mem_ins {m : SMap α} {i : Nat} {v : α} {e : Nat × α} (h : e ∈ m.ins i v) : e = (i, v) ∨ e ∈ m := by
  induction m with
  | nil => simpa [SMap.ins] using h
  | cons f t ih =>
    obtain ⟨k, w⟩ := f
    simp only [SMap.ins] at h
    split at h
    · simpa using h
    · rcases List.mem_cons.mp h with rfl | h
      · simp
      · rcases ih h with h | h <;> simp [h]

theorem SMap.rises_ins (m : SMap α) (i : Nat) (v : α) (h : m.Rises) (hn : ∀ e ∈ m, e.1 ≠ i) :
    SMap.Rises (m.ins i v) := by
  induction m with
  | nil => simp [SMap.ins, SMap.Rises]
  | cons f t ih =>
    obtain ⟨k, w⟩ := f
    have h' := List.pairwise_cons.mp h
    have hk : k ≠ i := hn (k, w) (by simp)
    simp only [SMap.ins]
    split
    · rename_i hlt
      refine List.pairwise_cons.mpr ⟨?_, h⟩
      intro e he
      rcases List.mem_cons.mp he with rfl | he
      · exact hlt
      · exact lt_trans hlt (h'.1 e he)
    · rename_i hlt
      refine List.pairwise_cons.mpr ⟨?_, ih h'.2 fun e he => hn e (by simp [he])⟩
      intro e he
      rcases SMap.mem_ins he with rfl | he
      · simp only; omega
      · exact h'.1 e he

theorem SMap.rises_del (m : SMap α) (i : Nat) (h : m.Rises) : SMap.Rises (m.del i) := SMap.rises_filter m _ h

theorem SMap.rises_put (m : SMap α) (i : Nat) (v : α) (h : m.Rises) : SMap.Rises (m.put i v) :=
  SMap.rises_ins _ _ _ (SMap.rises_del m i h) fun e he => by
    have := (List.mem_filter.mp he).2
    simpa using this

theorem SMap.mem_put {m : SMap α} {i : Nat} {v : α} {e : Nat × α} (h : e ∈ m.put i v) : e = (i, v) ∨ e ∈ m := by
  rcases SMap.mem_ins h with h | h
  · exact .inl h
  · exact .inr (List.mem_filter.mp h).1

/-! ### Byte memories -/

/-- A byte reads as it was written. -/
@[simp] theorem memRd_memWr_same (b : Byte) (m : SMap Byte) (a : Nat) (v : Byte) : memRd b (memWr b m a v) a = v := by
  simp only [memRd, memWr]
  split
  · simp [SMap.lookD, SMap.look_del, *]
  · simp

/-- A write leaves every other byte alone. -/
theorem memRd_memWr_ne (b : Byte) (m : SMap Byte) {a x : Nat} (v : Byte) (h : x ≠ a) :
    memRd b (memWr b m a v) x = memRd b m x := by
  simp only [memRd, memWr]
  split
  · simp [SMap.lookD, SMap.look_del, h]
  · simp [SMap.lookD_put_ne, h]

/-- The entry of a key in two maps one after the other. -/
theorem SMap.look_append (m n : SMap α) (i : Nat) : SMap.look (m ++ n) i = (m.look i).or (n.look i) := by
  induction m with
  | nil => simp
  | cons e t ih =>
    rw [List.cons_append, SMap.look_cons, SMap.look_cons, ih]
    split <;> simp

/-- The entry of a byte in a run of consecutive bytes. -/
theorem look_memRun (b : Byte) (bs : List Byte) (a x : Nat) :
    SMap.look (memRun b a bs) x =
      if a ≤ x ∧ x < a + bs.length ∧ bs.getD (x - a) 0 ≠ b then some (bs.getD (x - a) 0) else none := by
  induction bs generalizing a with
  | nil => simp [memRun]; omega
  | cons v t ih =>
    have key : (SMap.look (memRun b a (v :: t)) x) =
        if x = a ∧ v ≠ b then some v else SMap.look (memRun b (a + 1) t) x := by
      by_cases hv : v = b
      · simp [memRun, hv]
      · simp only [memRun, hv, if_false, SMap.look_cons]
        by_cases hx : a = x
        · simp [hx, hv]
        · simp [hx, Ne.symm hx]
    rw [key, ih]
    by_cases hx : x = a
    · subst hx
      by_cases hv : v = b <;> simp [hv]
    · rw [if_neg (fun h => hx h.1)]
      by_cases h2 : a + 1 ≤ x
      · obtain ⟨d, rfl⟩ : ∃ d, x = a + 1 + d := ⟨x - (a + 1), by omega⟩
        have e1 : a + 1 + d - (a + 1) = d := by omega
        have e2 : a + 1 + d - a = d + 1 := by omega
        have e3 : (a + 1 + d < a + 1 + t.length) ↔ (a + 1 + d < a + (v :: t).length) := by simp; omega
        simp only [e1, e2, List.getD_cons_succ, e3]
        have e4 : a + 1 ≤ a + 1 + d := by omega
        have e5 : a ≤ a + 1 + d := by omega
        simp [e4, e5]
      · have e5 : ¬ a ≤ x := by omega
        simp [h2, e5]

/-- What any byte reads after consecutive bytes are written. -/
theorem memRd_memWrs (b : Byte) (bs : List Byte) (m : SMap Byte) (a x : Nat) :
    memRd b (memWrs b m a bs) x = if a ≤ x ∧ x < a + bs.length then bs.getD (x - a) 0 else memRd b m x := by
  simp only [memRd, SMap.lookD, memWrs, SMap.look_append, SMap.look_filter m (fun k => decide (k < a)),
    SMap.look_filter m (fun k => decide (a + bs.length ≤ k)), look_memRun]
  by_cases h1 : x < a
  · have h2 : ¬ a ≤ x := by omega
    have h3 : ¬ a + bs.length ≤ x := by omega
    simp [h1, h2, h3]
  · by_cases h2 : x < a + bs.length
    · have h3 : ¬ a + bs.length ≤ x := by omega
      have h4 : a ≤ x := by omega
      by_cases h5 : bs.getD (x - a) 0 = b
      · rw [h5]; simp [h1, h3]
      · have h6 : a ≤ x ∧ x < a + bs.length ∧ bs.getD (x - a) 0 ≠ b := ⟨h4, h2, h5⟩
        rw [if_pos h6, if_pos (show a ≤ x ∧ x < a + bs.length from ⟨h4, h2⟩)]; simp [h1]
    · have h3 : a + bs.length ≤ x := by omega
      simp [h1, h2, h3]

theorem memWf_iff (b : Byte) (m : SMap Byte) : memWf b m = true ↔ m.Rises ∧ ∀ e ∈ m, e.2 ≠ b := by
  simp [memWf, SMap.sorted_iff]

/-- Writing a byte keeps the canonical form. -/
theorem memWf_memWr (b : Byte) (m : SMap Byte) (a : Nat) (v : Byte) (h : memWf b m = true) :
    memWf b (memWr b m a v) = true := by
  rw [memWf_iff] at h ⊢
  simp only [memWr]
  split
  · exact ⟨SMap.rises_del m a h.1, fun e he => h.2 e (List.mem_filter.mp he).1⟩
  · refine ⟨SMap.rises_put m a v h.1, fun e he => ?_⟩
    rcases SMap.mem_put he with rfl | he
    · assumption
    · exact h.2 e he

/-- Where the entries of a run of consecutive bytes stand. -/
theorem mem_memRun {b : Byte} {bs : List Byte} {a : Nat} {e : Nat × Byte} (h : e ∈ memRun b a bs) :
    a ≤ e.1 ∧ e.1 < a + bs.length ∧ e.2 ≠ b := by
  induction bs generalizing a with
  | nil => simp [memRun] at h
  | cons v t ih =>
    simp only [List.length_cons]
    by_cases hv : v = b
    · rw [memRun, if_pos hv] at h
      have := ih h; exact ⟨by omega, by omega, this.2.2⟩
    · rw [memRun, if_neg hv] at h
      rcases List.mem_cons.mp h with rfl | h
      · exact ⟨by simp, by simp, hv⟩
      · have := ih h; exact ⟨by omega, by omega, this.2.2⟩

/-- The entries of a run of consecutive bytes rise. -/
theorem rises_memRun (b : Byte) (bs : List Byte) (a : Nat) : SMap.Rises (memRun b a bs) := by
  induction bs generalizing a with
  | nil => exact List.Pairwise.nil
  | cons v t ih =>
    by_cases hv : v = b
    · rw [memRun, if_pos hv]; exact ih _
    · rw [memRun, if_neg hv]
      refine List.Pairwise.cons (fun e he => ?_) (ih _)
      have := mem_memRun he; show a < e.1; omega

/-- Writing consecutive bytes keeps the canonical form. -/
theorem memWf_memWrs (b : Byte) (bs : List Byte) (m : SMap Byte) (a : Nat) (h : memWf b m = true) :
    memWf b (memWrs b m a bs) = true := by
  rw [memWf_iff] at h ⊢
  refine ⟨?_, ?_⟩
  · unfold memWrs
    refine List.pairwise_append.mpr ⟨List.pairwise_append.mpr ⟨SMap.rises_filter m _ h.1, rises_memRun b bs a, ?_⟩,
      SMap.rises_filter m _ h.1, ?_⟩
    · intro x hx y hy
      have h1 := (List.mem_filter.mp hx).2
      have h2 := mem_memRun hy
      simp only [decide_eq_true_eq] at h1
      omega
    · intro x hx y hy
      have h1 := (List.mem_filter.mp hy).2
      simp only [decide_eq_true_eq] at h1
      rcases List.mem_append.mp hx with hx | hx
      · have h2 := (List.mem_filter.mp hx).2
        simp only [decide_eq_true_eq] at h2
        omega
      · have h2 := mem_memRun hx
        omega
  · intro e he
    unfold memWrs at he
    rcases List.mem_append.mp he with he | he
    · rcases List.mem_append.mp he with he | he
      · exact h.2 e (List.mem_filter.mp he).1
      · exact (mem_memRun he).2.2
    · exact h.2 e (List.mem_filter.mp he).1

/-- Clearing a range of bytes keeps the canonical form. -/
theorem memWf_filter (b : Byte) (m : SMap Byte) (p : Nat × Byte → Bool) (h : memWf b m = true) :
    memWf b (m.filter p) = true := by
  rw [memWf_iff] at h ⊢
  exact ⟨SMap.rises_filter m p h.1, fun e he => h.2 e (List.mem_filter.mp he).1⟩

/-! ### The register file -/

/-- A word reads as it was written, and every other word as before. -/
theorem regRd_regWr (m : SMap Word) (a : Nat) (v : Word) (x : Nat) :
    regRd (regWr m a v) x = if x = a then v else regRd m x := by
  simp only [regRd, regWr]
  by_cases h : x = a
  · subst h
    split
    · simp [SMap.look_del, *]
    · simp [SMap.look_put]
  · split
    · simp [SMap.look_del, h]
    · simp [SMap.look_put, h]

@[simp] theorem regRd_regWr_same (m : SMap Word) (a : Nat) (v : Word) : regRd (regWr m a v) a = v := by
  simp [regRd_regWr]

theorem regRd_regWr_ne (m : SMap Word) {a x : Nat} (v : Word) (h : x ≠ a) : regRd (regWr m a v) x = regRd m x := by
  simp [regRd_regWr, h]

@[simp] theorem regRd_nil (a : Nat) : regRd [] a = resetWord a := rfl

theorem regWf_iff (m : SMap Word) : regWf m = true ↔ m.Rises ∧ ∀ e ∈ m, e.2 ≠ resetWord e.1 := by
  simp [regWf, SMap.sorted_iff]

/-- Writing a register keeps the canonical form of the register file. -/
theorem regWf_regWr (m : SMap Word) (a : Nat) (v : Word) (h : regWf m = true) : regWf (regWr m a v) = true := by
  rw [regWf_iff] at h ⊢
  simp only [regWr]
  split
  · exact ⟨SMap.rises_del m a h.1, fun e he => h.2 e (List.mem_filter.mp he).1⟩
  · refine ⟨SMap.rises_put m a v h.1, fun e he => ?_⟩
    rcases SMap.mem_put he with rfl | he
    · assumption
    · exact h.2 e he

/-! ### Fields -/

theorem Field.inWord_toNat (f : Field) (w : Word) (v : Nat) (hf : f.lsb + f.width ≤ 32) :
    (f.inWord w v).toNat = w.toNat - (f.ofWord w) * 2 ^ f.lsb + (v % 2 ^ f.width) * 2 ^ f.lsb := by
  have h32 : (2:Nat) ^ 32 = 2 ^ f.lsb * 2 ^ f.width * 2 ^ (32 - (f.lsb + f.width)) := by
    rw [← pow_add, ← pow_add]; congr 1; omega
  have hw := w.isLt
  simp only [Field.inWord, w32, BitVec.toNat_ofNat]
  apply Nat.mod_eq_of_lt
  rw [h32] at hw ⊢
  simp only [Field.ofWord]
  generalize w.toNat = n at *
  set L := 2 ^ f.lsb
  set W := 2 ^ f.width
  set R := 2 ^ (32 - (f.lsb + f.width))
  have hL : 0 < L := by positivity
  have hW : 0 < W := by positivity
  have hv : v % W < W := Nat.mod_lt _ hW
  generalize v % W = u at *
  have d1 : n = L * (n / L) + n % L := (Nat.div_add_mod n L).symm
  have d2 : n / L = W * (n / L / W) + n / L % W := (Nat.div_add_mod (n / L) W).symm
  have hr : n % L < L := Nat.mod_lt _ hL
  have hq : n / L / W < R := by
    rw [Nat.div_div_eq_div_mul]; exact Nat.div_lt_of_lt_mul hw
  generalize n / L / W = q at *
  generalize n / L % W = x at *
  generalize n / L = y at *
  generalize n % L = r at *
  subst d2
  have e : n - x * L = L * W * q + r := by rw [d1]; ring_nf; omega
  rw [e]
  have : L * W * q + r + u * L < L * W * q + L * W := by
    have : r + u * L < L * W := by nlinarith
    linarith
  calc L * W * q + r + u * L < L * W * q + L * W := this
    _ = L * W * (q + 1) := by ring
    _ ≤ L * W * R := Nat.mul_le_mul_left _ hq

/-- A field reads as it was written. -/
theorem Field.ofWord_inWord (f : Field) (w : Word) (v : Nat) (hf : f.lsb + f.width ≤ 32) :
    f.ofWord (f.inWord w v) = v % 2 ^ f.width := by
  have h := f.inWord_toNat w v hf
  simp only [Field.ofWord] at h ⊢
  rw [h]
  generalize w.toNat = n
  set L := 2 ^ f.lsb
  set W := 2 ^ f.width
  have hL : 0 < L := by positivity
  have hW : 0 < W := by positivity
  have hv : v % W < W := Nat.mod_lt _ hW
  generalize v % W = u at *
  have d1 : n = L * (n / L) + n % L := (Nat.div_add_mod n L).symm
  have d2 : n / L = W * (n / L / W) + n / L % W := (Nat.div_add_mod (n / L) W).symm
  have hr : n % L < L := Nat.mod_lt _ hL
  generalize n / L / W = q at *
  generalize n / L % W = x at *
  generalize n / L = y at *
  generalize n % L = r at *
  subst d2
  have e : n - x * L + u * L = r + L * (W * q + u) := by rw [d1]; ring_nf; omega
  rw [e, Nat.add_mul_div_left _ _ hL, Nat.div_eq_of_lt hr, Nat.zero_add, Nat.mul_add_mod, Nat.mod_eq_of_lt hv]

/-- Two fields of one word that share no bit. -/
def Field.disjoint (f g : Field) : Bool :=
  decide (f.lsb + f.width ≤ g.lsb) || decide (g.lsb + g.width ≤ f.lsb)

/-- A field that shares no bit with the one written reads as before. -/
theorem Field.ofWord_inWord_disjoint (f g : Field) (w : Word) (v : Nat) (hf : f.lsb + f.width ≤ 32)
    (h : f.disjoint g = true) : g.ofWord (f.inWord w v) = g.ofWord w := by
  have ht := f.inWord_toNat w v hf
  simp only [Field.ofWord] at ht ⊢
  rw [ht]
  generalize w.toNat = n
  simp only [Field.disjoint, Bool.or_eq_true, decide_eq_true_eq] at h
  have hW : 0 < 2 ^ f.width := by positivity
  have hv : v % 2 ^ f.width < 2 ^ f.width := Nat.mod_lt _ hW
  generalize v % 2 ^ f.width = u at *
  have hL : 0 < 2 ^ f.lsb := by positivity
  have d1 : n = 2 ^ f.lsb * (n / 2 ^ f.lsb) + n % 2 ^ f.lsb := (Nat.div_add_mod n _).symm
  have d2 : n / 2 ^ f.lsb = 2 ^ f.width * (n / 2 ^ f.lsb / 2 ^ f.width) + n / 2 ^ f.lsb % 2 ^ f.width :=
    (Nat.div_add_mod _ _).symm
  have hr : n % 2 ^ f.lsb < 2 ^ f.lsb := Nat.mod_lt _ hL
  have hx : n / 2 ^ f.lsb % 2 ^ f.width < 2 ^ f.width := Nat.mod_lt _ hW
  generalize n / 2 ^ f.lsb / 2 ^ f.width = q at *
  generalize n / 2 ^ f.lsb % 2 ^ f.width = x at *
  generalize n / 2 ^ f.lsb = y at *
  generalize n % 2 ^ f.lsb = r at *
  subst d2
  have e : n - x * 2 ^ f.lsb + u * 2 ^ f.lsb = 2 ^ f.lsb * (2 ^ f.width * q + u) + r := by rw [d1]; ring_nf; omega
  rw [e]
  subst d1
  rcases h with h | h
  · -- g lies above f
    obtain ⟨d, hd⟩ : ∃ d, g.lsb = f.lsb + f.width + d := ⟨g.lsb - (f.lsb + f.width), by omega⟩
    rw [hd, pow_add, pow_add]
    have a1 : ∀ z, z < 2 ^ f.width → (2 ^ f.lsb * (2 ^ f.width * q + z) + r) / (2 ^ f.lsb * 2 ^ f.width * 2 ^ d) = q / 2 ^ d := by
      intro z hz
      rw [← Nat.div_div_eq_div_mul, ← Nat.div_div_eq_div_mul, Nat.mul_add_div hL, Nat.div_eq_of_lt hr, Nat.add_zero,
        Nat.mul_add_div hW, Nat.div_eq_of_lt hz, Nat.add_zero]
    rw [a1 u hv, a1 x hx]
  · -- g lies below f
    obtain ⟨d, hd⟩ : ∃ d, f.lsb = g.lsb + g.width + d := ⟨f.lsb - (g.lsb + g.width), by omega⟩
    rw [hd] at hr ⊢
    have a1 : ∀ z, (2 ^ (g.lsb + g.width + d) * z + r) / 2 ^ g.lsb % 2 ^ g.width = r / 2 ^ g.lsb % 2 ^ g.width := by
      intro z
      have : 2 ^ (g.lsb + g.width + d) * z = 2 ^ g.lsb * (2 ^ g.width * (2 ^ d * z)) := by
        rw [pow_add, pow_add]; ring
      rw [this, Nat.mul_add_div (by positivity), Nat.mul_add_mod]
    rw [a1, a1]

theorem Field.ofWord_lt (f : Field) (w : Word) : f.ofWord w < 2 ^ f.width := Nat.mod_lt _ (by positivity)

/-- Read after write of one field. -/
theorem Field.rd_wr_same (f : Field) (m : SMap Word) (n i v : Nat) (hf : f.lsb + f.width ≤ 32) :
    f.rd (f.wr m n i v) n i = v % 2 ^ f.width := by
  simp [Field.rd, Field.wr, Field.ofWord_inWord f _ _ hf]

/-- A field at another address reads as before. -/
theorem Field.rd_wr_addr (f g : Field) (m : SMap Word) (n i v k j : Nat) (h : g.addr k j ≠ f.addr n i) :
    g.rd (f.wr m n i v) k j = g.rd m k j := by
  simp [Field.rd, Field.wr, regRd_regWr_ne _ _ h]

/-- A field that shares no bit with the one written reads as before, wherever it stands. -/
theorem Field.rd_wr_disjoint (f g : Field) (m : SMap Word) (n i v k j : Nat) (hf : f.lsb + f.width ≤ 32)
    (h : f.disjoint g = true) : g.rd (f.wr m n i v) k j = g.rd m k j := by
  simp only [Field.rd, Field.wr, regRd_regWr]
  split
  · rename_i ha; rw [Field.ofWord_inWord_disjoint f g _ _ hf h, ha]
  · rfl

/-- Writing a field keeps the canonical form. -/
theorem regWf_wr (f : Field) (m : SMap Word) (n i v : Nat) (h : regWf m = true) : regWf (f.wr m n i v) = true :=
  regWf_regWr _ _ _ h

end Sys2Proof.Machine
end

