-- ==== Sys2Proof/Laws/State.lean ====
section
/-!
SUPPORT. What each elementary update leaves alone, field by field, and what a field of the register file reads after
each update of it. Later proofs cite these and unfold no record update.
-/
namespace Sys2Proof.Machine

/-! What `setFld` leaves alone. -/

@[simp] theorem State.setFld_shadow (s : State) (f : Field) (n i v : Nat) : (s.setFld f n i v).shadow = s.shadow := by rfl
@[simp] theorem State.setFld_commit (s : State) (f : Field) (n i v : Nat) : (s.setFld f n i v).commit = s.commit := by rfl
@[simp] theorem State.setFld_accepted (s : State) (f : Field) (n i v : Nat) : (s.setFld f n i v).accepted = s.accepted := by rfl
@[simp] theorem State.setFld_sys (s : State) (f : Field) (n i v : Nat) : (s.setFld f n i v).sys = s.sys := by rfl
@[simp] theorem State.setFld_evt (s : State) (f : Field) (n i v : Nat) : (s.setFld f n i v).evt = s.evt := by rfl
@[simp] theorem State.setFld_hpA (s : State) (f : Field) (n i v : Nat) : (s.setFld f n i v).hpA = s.hpA := by rfl
@[simp] theorem State.setFld_hpB (s : State) (f : Field) (n i v : Nat) : (s.setFld f n i v).hpB = s.hpB := by rfl
@[simp] theorem State.setFld_pins (s : State) (f : Field) (n i v : Nat) : (s.setFld f n i v).pins = s.pins := by rfl
@[simp] theorem State.setFld_tim (s : State) (f : Field) (n i v : Nat) : (s.setFld f n i v).tim = s.tim := by rfl
@[simp] theorem State.setFld_abc (s : State) (f : Field) (n i v : Nat) : (s.setFld f n i v).abc = s.abc := by rfl
@[simp] theorem State.setFld_afe (s : State) (f : Field) (n i v : Nat) : (s.setFld f n i v).afe = s.afe := by rfl
@[simp] theorem State.setFld_cnv (s : State) (f : Field) (n i v : Nat) : (s.setFld f n i v).cnv = s.cnv := by rfl
@[simp] theorem State.setFld_cal (s : State) (f : Field) (n i v : Nat) : (s.setFld f n i v).cal = s.cal := by rfl
@[simp] theorem State.setFld_flt (s : State) (f : Field) (n i v : Nat) : (s.setFld f n i v).flt = s.flt := by rfl
@[simp] theorem State.setFld_tal (s : State) (f : Field) (n i v : Nat) : (s.setFld f n i v).tal = s.tal := by rfl
@[simp] theorem State.setFld_cap (s : State) (f : Field) (n i v : Nat) : (s.setFld f n i v).cap = s.cap := by rfl
@[simp] theorem State.setFld_cmp (s : State) (f : Field) (n i v : Nat) : (s.setFld f n i v).cmp = s.cmp := by rfl
@[simp] theorem State.setFld_cry (s : State) (f : Field) (n i v : Nat) : (s.setFld f n i v).cry = s.cry := by rfl
@[simp] theorem State.setFld_mem (s : State) (f : Field) (n i v : Nat) : (s.setFld f n i v).mem = s.mem := by rfl
@[simp] theorem State.setFld_net (s : State) (f : Field) (n i v : Nat) : (s.setFld f n i v).net = s.net := by rfl
@[simp] theorem State.setFld_twn (s : State) (f : Field) (n i v : Nat) : (s.setFld f n i v).twn = s.twn := by rfl
@[simp] theorem State.setFld_ctl (s : State) (f : Field) (n i v : Nat) : (s.setFld f n i v).ctl = s.ctl := by rfl
@[simp] theorem State.setFld_mrk (s : State) (f : Field) (n i v : Nat) : (s.setFld f n i v).mrk = s.mrk := by rfl
@[simp] theorem State.setFld_dbg (s : State) (f : Field) (n i v : Nat) : (s.setFld f n i v).dbg = s.dbg := by rfl
@[simp] theorem State.setFld_dram (s : State) (f : Field) (n i v : Nat) : (s.setFld f n i v).dram = s.dram := by rfl
@[simp] theorem State.setFld_flash (s : State) (f : Field) (n i v : Nat) : (s.setFld f n i v).flash = s.flash := by rfl
@[simp] theorem State.setFld_free (s : State) (f : Field) (n i v : Nat) : (s.setFld f n i v).free = s.free := by rfl
@[simp] theorem State.setFld_outbox (s : State) (f : Field) (n i v : Nat) : (s.setFld f n i v).outbox = s.outbox := by rfl
@[simp] theorem State.setFld_pending (s : State) (f : Field) (n i v : Nat) : (s.setFld f n i v).pending = s.pending := by rfl

/-! What `setFldS` leaves alone. -/

@[simp] theorem State.setFldS_shadow (s : State) (f : Field) (n i : Nat) (v : Int) : (s.setFldS f n i v).shadow = s.shadow := by rfl
@[simp] theorem State.setFldS_commit (s : State) (f : Field) (n i : Nat) (v : Int) : (s.setFldS f n i v).commit = s.commit := by rfl
@[simp] theorem State.setFldS_accepted (s : State) (f : Field) (n i : Nat) (v : Int) : (s.setFldS f n i v).accepted = s.accepted := by rfl
@[simp] theorem State.setFldS_sys (s : State) (f : Field) (n i : Nat) (v : Int) : (s.setFldS f n i v).sys = s.sys := by rfl
@[simp] theorem State.setFldS_evt (s : State) (f : Field) (n i : Nat) (v : Int) : (s.setFldS f n i v).evt = s.evt := by rfl
@[simp] theorem State.setFldS_hpA (s : State) (f : Field) (n i : Nat) (v : Int) : (s.setFldS f n i v).hpA = s.hpA := by rfl
@[simp] theorem State.setFldS_hpB (s : State) (f : Field) (n i : Nat) (v : Int) : (s.setFldS f n i v).hpB = s.hpB := by rfl
@[simp] theorem State.setFldS_pins (s : State) (f : Field) (n i : Nat) (v : Int) : (s.setFldS f n i v).pins = s.pins := by rfl
@[simp] theorem State.setFldS_tim (s : State) (f : Field) (n i : Nat) (v : Int) : (s.setFldS f n i v).tim = s.tim := by rfl
@[simp] theorem State.setFldS_abc (s : State) (f : Field) (n i : Nat) (v : Int) : (s.setFldS f n i v).abc = s.abc := by rfl
@[simp] theorem State.setFldS_afe (s : State) (f : Field) (n i : Nat) (v : Int) : (s.setFldS f n i v).afe = s.afe := by rfl
@[simp] theorem State.setFldS_cnv (s : State) (f : Field) (n i : Nat) (v : Int) : (s.setFldS f n i v).cnv = s.cnv := by rfl
@[simp] theorem State.setFldS_cal (s : State) (f : Field) (n i : Nat) (v : Int) : (s.setFldS f n i v).cal = s.cal := by rfl
@[simp] theorem State.setFldS_flt (s : State) (f : Field) (n i : Nat) (v : Int) : (s.setFldS f n i v).flt = s.flt := by rfl
@[simp] theorem State.setFldS_tal (s : State) (f : Field) (n i : Nat) (v : Int) : (s.setFldS f n i v).tal = s.tal := by rfl
@[simp] theorem State.setFldS_cap (s : State) (f : Field) (n i : Nat) (v : Int) : (s.setFldS f n i v).cap = s.cap := by rfl
@[simp] theorem State.setFldS_cmp (s : State) (f : Field) (n i : Nat) (v : Int) : (s.setFldS f n i v).cmp = s.cmp := by rfl
@[simp] theorem State.setFldS_cry (s : State) (f : Field) (n i : Nat) (v : Int) : (s.setFldS f n i v).cry = s.cry := by rfl
@[simp] theorem State.setFldS_mem (s : State) (f : Field) (n i : Nat) (v : Int) : (s.setFldS f n i v).mem = s.mem := by rfl
@[simp] theorem State.setFldS_net (s : State) (f : Field) (n i : Nat) (v : Int) : (s.setFldS f n i v).net = s.net := by rfl
@[simp] theorem State.setFldS_twn (s : State) (f : Field) (n i : Nat) (v : Int) : (s.setFldS f n i v).twn = s.twn := by rfl
@[simp] theorem State.setFldS_ctl (s : State) (f : Field) (n i : Nat) (v : Int) : (s.setFldS f n i v).ctl = s.ctl := by rfl
@[simp] theorem State.setFldS_mrk (s : State) (f : Field) (n i : Nat) (v : Int) : (s.setFldS f n i v).mrk = s.mrk := by rfl
@[simp] theorem State.setFldS_dbg (s : State) (f : Field) (n i : Nat) (v : Int) : (s.setFldS f n i v).dbg = s.dbg := by rfl
@[simp] theorem State.setFldS_dram (s : State) (f : Field) (n i : Nat) (v : Int) : (s.setFldS f n i v).dram = s.dram := by rfl
@[simp] theorem State.setFldS_flash (s : State) (f : Field) (n i : Nat) (v : Int) : (s.setFldS f n i v).flash = s.flash := by rfl
@[simp] theorem State.setFldS_free (s : State) (f : Field) (n i : Nat) (v : Int) : (s.setFldS f n i v).free = s.free := by rfl
@[simp] theorem State.setFldS_outbox (s : State) (f : Field) (n i : Nat) (v : Int) : (s.setFldS f n i v).outbox = s.outbox := by rfl
@[simp] theorem State.setFldS_pending (s : State) (f : Field) (n i : Nat) (v : Int) : (s.setFldS f n i v).pending = s.pending := by rfl

/-! What `setFlag` leaves alone. -/

@[simp] theorem State.setFlag_shadow (s : State) (f : Field) (n i : Nat) (v : Bool) : (s.setFlag f n i v).shadow = s.shadow := by rfl
@[simp] theorem State.setFlag_commit (s : State) (f : Field) (n i : Nat) (v : Bool) : (s.setFlag f n i v).commit = s.commit := by rfl
@[simp] theorem State.setFlag_accepted (s : State) (f : Field) (n i : Nat) (v : Bool) : (s.setFlag f n i v).accepted = s.accepted := by rfl
@[simp] theorem State.setFlag_sys (s : State) (f : Field) (n i : Nat) (v : Bool) : (s.setFlag f n i v).sys = s.sys := by rfl
@[simp] theorem State.setFlag_evt (s : State) (f : Field) (n i : Nat) (v : Bool) : (s.setFlag f n i v).evt = s.evt := by rfl
@[simp] theorem State.setFlag_hpA (s : State) (f : Field) (n i : Nat) (v : Bool) : (s.setFlag f n i v).hpA = s.hpA := by rfl
@[simp] theorem State.setFlag_hpB (s : State) (f : Field) (n i : Nat) (v : Bool) : (s.setFlag f n i v).hpB = s.hpB := by rfl
@[simp] theorem State.setFlag_pins (s : State) (f : Field) (n i : Nat) (v : Bool) : (s.setFlag f n i v).pins = s.pins := by rfl
@[simp] theorem State.setFlag_tim (s : State) (f : Field) (n i : Nat) (v : Bool) : (s.setFlag f n i v).tim = s.tim := by rfl
@[simp] theorem State.setFlag_abc (s : State) (f : Field) (n i : Nat) (v : Bool) : (s.setFlag f n i v).abc = s.abc := by rfl
@[simp] theorem State.setFlag_afe (s : State) (f : Field) (n i : Nat) (v : Bool) : (s.setFlag f n i v).afe = s.afe := by rfl
@[simp] theorem State.setFlag_cnv (s : State) (f : Field) (n i : Nat) (v : Bool) : (s.setFlag f n i v).cnv = s.cnv := by rfl
@[simp] theorem State.setFlag_cal (s : State) (f : Field) (n i : Nat) (v : Bool) : (s.setFlag f n i v).cal = s.cal := by rfl
@[simp] theorem State.setFlag_flt (s : State) (f : Field) (n i : Nat) (v : Bool) : (s.setFlag f n i v).flt = s.flt := by rfl
@[simp] theorem State.setFlag_tal (s : State) (f : Field) (n i : Nat) (v : Bool) : (s.setFlag f n i v).tal = s.tal := by rfl
@[simp] theorem State.setFlag_cap (s : State) (f : Field) (n i : Nat) (v : Bool) : (s.setFlag f n i v).cap = s.cap := by rfl
@[simp] theorem State.setFlag_cmp (s : State) (f : Field) (n i : Nat) (v : Bool) : (s.setFlag f n i v).cmp = s.cmp := by rfl
@[simp] theorem State.setFlag_cry (s : State) (f : Field) (n i : Nat) (v : Bool) : (s.setFlag f n i v).cry = s.cry := by rfl
@[simp] theorem State.setFlag_mem (s : State) (f : Field) (n i : Nat) (v : Bool) : (s.setFlag f n i v).mem = s.mem := by rfl
@[simp] theorem State.setFlag_net (s : State) (f : Field) (n i : Nat) (v : Bool) : (s.setFlag f n i v).net = s.net := by rfl
@[simp] theorem State.setFlag_twn (s : State) (f : Field) (n i : Nat) (v : Bool) : (s.setFlag f n i v).twn = s.twn := by rfl
@[simp] theorem State.setFlag_ctl (s : State) (f : Field) (n i : Nat) (v : Bool) : (s.setFlag f n i v).ctl = s.ctl := by rfl
@[simp] theorem State.setFlag_mrk (s : State) (f : Field) (n i : Nat) (v : Bool) : (s.setFlag f n i v).mrk = s.mrk := by rfl
@[simp] theorem State.setFlag_dbg (s : State) (f : Field) (n i : Nat) (v : Bool) : (s.setFlag f n i v).dbg = s.dbg := by rfl
@[simp] theorem State.setFlag_dram (s : State) (f : Field) (n i : Nat) (v : Bool) : (s.setFlag f n i v).dram = s.dram := by rfl
@[simp] theorem State.setFlag_flash (s : State) (f : Field) (n i : Nat) (v : Bool) : (s.setFlag f n i v).flash = s.flash := by rfl
@[simp] theorem State.setFlag_free (s : State) (f : Field) (n i : Nat) (v : Bool) : (s.setFlag f n i v).free = s.free := by rfl
@[simp] theorem State.setFlag_outbox (s : State) (f : Field) (n i : Nat) (v : Bool) : (s.setFlag f n i v).outbox = s.outbox := by rfl
@[simp] theorem State.setFlag_pending (s : State) (f : Field) (n i : Nat) (v : Bool) : (s.setFlag f n i v).pending = s.pending := by rfl

/-! What `bump` leaves alone. -/

@[simp] theorem State.bump_shadow (s : State) (f : Field) (n i k : Nat) : (s.bump f n i k).shadow = s.shadow := by rfl
@[simp] theorem State.bump_commit (s : State) (f : Field) (n i k : Nat) : (s.bump f n i k).commit = s.commit := by rfl
@[simp] theorem State.bump_accepted (s : State) (f : Field) (n i k : Nat) : (s.bump f n i k).accepted = s.accepted := by rfl
@[simp] theorem State.bump_sys (s : State) (f : Field) (n i k : Nat) : (s.bump f n i k).sys = s.sys := by rfl
@[simp] theorem State.bump_evt (s : State) (f : Field) (n i k : Nat) : (s.bump f n i k).evt = s.evt := by rfl
@[simp] theorem State.bump_hpA (s : State) (f : Field) (n i k : Nat) : (s.bump f n i k).hpA = s.hpA := by rfl
@[simp] theorem State.bump_hpB (s : State) (f : Field) (n i k : Nat) : (s.bump f n i k).hpB = s.hpB := by rfl
@[simp] theorem State.bump_pins (s : State) (f : Field) (n i k : Nat) : (s.bump f n i k).pins = s.pins := by rfl
@[simp] theorem State.bump_tim (s : State) (f : Field) (n i k : Nat) : (s.bump f n i k).tim = s.tim := by rfl
@[simp] theorem State.bump_abc (s : State) (f : Field) (n i k : Nat) : (s.bump f n i k).abc = s.abc := by rfl
@[simp] theorem State.bump_afe (s : State) (f : Field) (n i k : Nat) : (s.bump f n i k).afe = s.afe := by rfl
@[simp] theorem State.bump_cnv (s : State) (f : Field) (n i k : Nat) : (s.bump f n i k).cnv = s.cnv := by rfl
@[simp] theorem State.bump_cal (s : State) (f : Field) (n i k : Nat) : (s.bump f n i k).cal = s.cal := by rfl
@[simp] theorem State.bump_flt (s : State) (f : Field) (n i k : Nat) : (s.bump f n i k).flt = s.flt := by rfl
@[simp] theorem State.bump_tal (s : State) (f : Field) (n i k : Nat) : (s.bump f n i k).tal = s.tal := by rfl
@[simp] theorem State.bump_cap (s : State) (f : Field) (n i k : Nat) : (s.bump f n i k).cap = s.cap := by rfl
@[simp] theorem State.bump_cmp (s : State) (f : Field) (n i k : Nat) : (s.bump f n i k).cmp = s.cmp := by rfl
@[simp] theorem State.bump_cry (s : State) (f : Field) (n i k : Nat) : (s.bump f n i k).cry = s.cry := by rfl
@[simp] theorem State.bump_mem (s : State) (f : Field) (n i k : Nat) : (s.bump f n i k).mem = s.mem := by rfl
@[simp] theorem State.bump_net (s : State) (f : Field) (n i k : Nat) : (s.bump f n i k).net = s.net := by rfl
@[simp] theorem State.bump_twn (s : State) (f : Field) (n i k : Nat) : (s.bump f n i k).twn = s.twn := by rfl
@[simp] theorem State.bump_ctl (s : State) (f : Field) (n i k : Nat) : (s.bump f n i k).ctl = s.ctl := by rfl
@[simp] theorem State.bump_mrk (s : State) (f : Field) (n i k : Nat) : (s.bump f n i k).mrk = s.mrk := by rfl
@[simp] theorem State.bump_dbg (s : State) (f : Field) (n i k : Nat) : (s.bump f n i k).dbg = s.dbg := by rfl
@[simp] theorem State.bump_dram (s : State) (f : Field) (n i k : Nat) : (s.bump f n i k).dram = s.dram := by rfl
@[simp] theorem State.bump_flash (s : State) (f : Field) (n i k : Nat) : (s.bump f n i k).flash = s.flash := by rfl
@[simp] theorem State.bump_free (s : State) (f : Field) (n i k : Nat) : (s.bump f n i k).free = s.free := by rfl
@[simp] theorem State.bump_outbox (s : State) (f : Field) (n i k : Nat) : (s.bump f n i k).outbox = s.outbox := by rfl
@[simp] theorem State.bump_pending (s : State) (f : Field) (n i k : Nat) : (s.bump f n i k).pending = s.pending := by rfl

/-! What `bumpSat` leaves alone. -/

@[simp] theorem State.bumpSat_shadow (s : State) (f : Field) (n i k : Nat) : (s.bumpSat f n i k).shadow = s.shadow := by rfl
@[simp] theorem State.bumpSat_commit (s : State) (f : Field) (n i k : Nat) : (s.bumpSat f n i k).commit = s.commit := by rfl
@[simp] theorem State.bumpSat_accepted (s : State) (f : Field) (n i k : Nat) : (s.bumpSat f n i k).accepted = s.accepted := by rfl
@[simp] theorem State.bumpSat_sys (s : State) (f : Field) (n i k : Nat) : (s.bumpSat f n i k).sys = s.sys := by rfl
@[simp] theorem State.bumpSat_evt (s : State) (f : Field) (n i k : Nat) : (s.bumpSat f n i k).evt = s.evt := by rfl
@[simp] theorem State.bumpSat_hpA (s : State) (f : Field) (n i k : Nat) : (s.bumpSat f n i k).hpA = s.hpA := by rfl
@[simp] theorem State.bumpSat_hpB (s : State) (f : Field) (n i k : Nat) : (s.bumpSat f n i k).hpB = s.hpB := by rfl
@[simp] theorem State.bumpSat_pins (s : State) (f : Field) (n i k : Nat) : (s.bumpSat f n i k).pins = s.pins := by rfl
@[simp] theorem State.bumpSat_tim (s : State) (f : Field) (n i k : Nat) : (s.bumpSat f n i k).tim = s.tim := by rfl
@[simp] theorem State.bumpSat_abc (s : State) (f : Field) (n i k : Nat) : (s.bumpSat f n i k).abc = s.abc := by rfl
@[simp] theorem State.bumpSat_afe (s : State) (f : Field) (n i k : Nat) : (s.bumpSat f n i k).afe = s.afe := by rfl
@[simp] theorem State.bumpSat_cnv (s : State) (f : Field) (n i k : Nat) : (s.bumpSat f n i k).cnv = s.cnv := by rfl
@[simp] theorem State.bumpSat_cal (s : State) (f : Field) (n i k : Nat) : (s.bumpSat f n i k).cal = s.cal := by rfl
@[simp] theorem State.bumpSat_flt (s : State) (f : Field) (n i k : Nat) : (s.bumpSat f n i k).flt = s.flt := by rfl
@[simp] theorem State.bumpSat_tal (s : State) (f : Field) (n i k : Nat) : (s.bumpSat f n i k).tal = s.tal := by rfl
@[simp] theorem State.bumpSat_cap (s : State) (f : Field) (n i k : Nat) : (s.bumpSat f n i k).cap = s.cap := by rfl
@[simp] theorem State.bumpSat_cmp (s : State) (f : Field) (n i k : Nat) : (s.bumpSat f n i k).cmp = s.cmp := by rfl
@[simp] theorem State.bumpSat_cry (s : State) (f : Field) (n i k : Nat) : (s.bumpSat f n i k).cry = s.cry := by rfl
@[simp] theorem State.bumpSat_mem (s : State) (f : Field) (n i k : Nat) : (s.bumpSat f n i k).mem = s.mem := by rfl
@[simp] theorem State.bumpSat_net (s : State) (f : Field) (n i k : Nat) : (s.bumpSat f n i k).net = s.net := by rfl
@[simp] theorem State.bumpSat_twn (s : State) (f : Field) (n i k : Nat) : (s.bumpSat f n i k).twn = s.twn := by rfl
@[simp] theorem State.bumpSat_ctl (s : State) (f : Field) (n i k : Nat) : (s.bumpSat f n i k).ctl = s.ctl := by rfl
@[simp] theorem State.bumpSat_mrk (s : State) (f : Field) (n i k : Nat) : (s.bumpSat f n i k).mrk = s.mrk := by rfl
@[simp] theorem State.bumpSat_dbg (s : State) (f : Field) (n i k : Nat) : (s.bumpSat f n i k).dbg = s.dbg := by rfl
@[simp] theorem State.bumpSat_dram (s : State) (f : Field) (n i k : Nat) : (s.bumpSat f n i k).dram = s.dram := by rfl
@[simp] theorem State.bumpSat_flash (s : State) (f : Field) (n i k : Nat) : (s.bumpSat f n i k).flash = s.flash := by rfl
@[simp] theorem State.bumpSat_free (s : State) (f : Field) (n i k : Nat) : (s.bumpSat f n i k).free = s.free := by rfl
@[simp] theorem State.bumpSat_outbox (s : State) (f : Field) (n i k : Nat) : (s.bumpSat f n i k).outbox = s.outbox := by rfl
@[simp] theorem State.bumpSat_pending (s : State) (f : Field) (n i k : Nat) : (s.bumpSat f n i k).pending = s.pending := by rfl

/-! What `orFld` leaves alone. -/

@[simp] theorem State.orFld_shadow (s : State) (f : Field) (n i v : Nat) : (s.orFld f n i v).shadow = s.shadow := by rfl
@[simp] theorem State.orFld_commit (s : State) (f : Field) (n i v : Nat) : (s.orFld f n i v).commit = s.commit := by rfl
@[simp] theorem State.orFld_accepted (s : State) (f : Field) (n i v : Nat) : (s.orFld f n i v).accepted = s.accepted := by rfl
@[simp] theorem State.orFld_sys (s : State) (f : Field) (n i v : Nat) : (s.orFld f n i v).sys = s.sys := by rfl
@[simp] theorem State.orFld_evt (s : State) (f : Field) (n i v : Nat) : (s.orFld f n i v).evt = s.evt := by rfl
@[simp] theorem State.orFld_hpA (s : State) (f : Field) (n i v : Nat) : (s.orFld f n i v).hpA = s.hpA := by rfl
@[simp] theorem State.orFld_hpB (s : State) (f : Field) (n i v : Nat) : (s.orFld f n i v).hpB = s.hpB := by rfl
@[simp] theorem State.orFld_pins (s : State) (f : Field) (n i v : Nat) : (s.orFld f n i v).pins = s.pins := by rfl
@[simp] theorem State.orFld_tim (s : State) (f : Field) (n i v : Nat) : (s.orFld f n i v).tim = s.tim := by rfl
@[simp] theorem State.orFld_abc (s : State) (f : Field) (n i v : Nat) : (s.orFld f n i v).abc = s.abc := by rfl
@[simp] theorem State.orFld_afe (s : State) (f : Field) (n i v : Nat) : (s.orFld f n i v).afe = s.afe := by rfl
@[simp] theorem State.orFld_cnv (s : State) (f : Field) (n i v : Nat) : (s.orFld f n i v).cnv = s.cnv := by rfl
@[simp] theorem State.orFld_cal (s : State) (f : Field) (n i v : Nat) : (s.orFld f n i v).cal = s.cal := by rfl
@[simp] theorem State.orFld_flt (s : State) (f : Field) (n i v : Nat) : (s.orFld f n i v).flt = s.flt := by rfl
@[simp] theorem State.orFld_tal (s : State) (f : Field) (n i v : Nat) : (s.orFld f n i v).tal = s.tal := by rfl
@[simp] theorem State.orFld_cap (s : State) (f : Field) (n i v : Nat) : (s.orFld f n i v).cap = s.cap := by rfl
@[simp] theorem State.orFld_cmp (s : State) (f : Field) (n i v : Nat) : (s.orFld f n i v).cmp = s.cmp := by rfl
@[simp] theorem State.orFld_cry (s : State) (f : Field) (n i v : Nat) : (s.orFld f n i v).cry = s.cry := by rfl
@[simp] theorem State.orFld_mem (s : State) (f : Field) (n i v : Nat) : (s.orFld f n i v).mem = s.mem := by rfl
@[simp] theorem State.orFld_net (s : State) (f : Field) (n i v : Nat) : (s.orFld f n i v).net = s.net := by rfl
@[simp] theorem State.orFld_twn (s : State) (f : Field) (n i v : Nat) : (s.orFld f n i v).twn = s.twn := by rfl
@[simp] theorem State.orFld_ctl (s : State) (f : Field) (n i v : Nat) : (s.orFld f n i v).ctl = s.ctl := by rfl
@[simp] theorem State.orFld_mrk (s : State) (f : Field) (n i v : Nat) : (s.orFld f n i v).mrk = s.mrk := by rfl
@[simp] theorem State.orFld_dbg (s : State) (f : Field) (n i v : Nat) : (s.orFld f n i v).dbg = s.dbg := by rfl
@[simp] theorem State.orFld_dram (s : State) (f : Field) (n i v : Nat) : (s.orFld f n i v).dram = s.dram := by rfl
@[simp] theorem State.orFld_flash (s : State) (f : Field) (n i v : Nat) : (s.orFld f n i v).flash = s.flash := by rfl
@[simp] theorem State.orFld_free (s : State) (f : Field) (n i v : Nat) : (s.orFld f n i v).free = s.free := by rfl
@[simp] theorem State.orFld_outbox (s : State) (f : Field) (n i v : Nat) : (s.orFld f n i v).outbox = s.outbox := by rfl
@[simp] theorem State.orFld_pending (s : State) (f : Field) (n i v : Nat) : (s.orFld f n i v).pending = s.pending := by rfl

/-! What `setFld64` leaves alone. -/

@[simp] theorem State.setFld64_shadow (s : State) (lo hi : Field) (n i v : Nat) : (s.setFld64 lo hi n i v).shadow = s.shadow := by rfl
@[simp] theorem State.setFld64_commit (s : State) (lo hi : Field) (n i v : Nat) : (s.setFld64 lo hi n i v).commit = s.commit := by rfl
@[simp] theorem State.setFld64_accepted (s : State) (lo hi : Field) (n i v : Nat) : (s.setFld64 lo hi n i v).accepted = s.accepted := by rfl
@[simp] theorem State.setFld64_sys (s : State) (lo hi : Field) (n i v : Nat) : (s.setFld64 lo hi n i v).sys = s.sys := by rfl
@[simp] theorem State.setFld64_evt (s : State) (lo hi : Field) (n i v : Nat) : (s.setFld64 lo hi n i v).evt = s.evt := by rfl
@[simp] theorem State.setFld64_hpA (s : State) (lo hi : Field) (n i v : Nat) : (s.setFld64 lo hi n i v).hpA = s.hpA := by rfl
@[simp] theorem State.setFld64_hpB (s : State) (lo hi : Field) (n i v : Nat) : (s.setFld64 lo hi n i v).hpB = s.hpB := by rfl
@[simp] theorem State.setFld64_pins (s : State) (lo hi : Field) (n i v : Nat) : (s.setFld64 lo hi n i v).pins = s.pins := by rfl
@[simp] theorem State.setFld64_tim (s : State) (lo hi : Field) (n i v : Nat) : (s.setFld64 lo hi n i v).tim = s.tim := by rfl
@[simp] theorem State.setFld64_abc (s : State) (lo hi : Field) (n i v : Nat) : (s.setFld64 lo hi n i v).abc = s.abc := by rfl
@[simp] theorem State.setFld64_afe (s : State) (lo hi : Field) (n i v : Nat) : (s.setFld64 lo hi n i v).afe = s.afe := by rfl
@[simp] theorem State.setFld64_cnv (s : State) (lo hi : Field) (n i v : Nat) : (s.setFld64 lo hi n i v).cnv = s.cnv := by rfl
@[simp] theorem State.setFld64_cal (s : State) (lo hi : Field) (n i v : Nat) : (s.setFld64 lo hi n i v).cal = s.cal := by rfl
@[simp] theorem State.setFld64_flt (s : State) (lo hi : Field) (n i v : Nat) : (s.setFld64 lo hi n i v).flt = s.flt := by rfl
@[simp] theorem State.setFld64_tal (s : State) (lo hi : Field) (n i v : Nat) : (s.setFld64 lo hi n i v).tal = s.tal := by rfl
@[simp] theorem State.setFld64_cap (s : State) (lo hi : Field) (n i v : Nat) : (s.setFld64 lo hi n i v).cap = s.cap := by rfl
@[simp] theorem State.setFld64_cmp (s : State) (lo hi : Field) (n i v : Nat) : (s.setFld64 lo hi n i v).cmp = s.cmp := by rfl
@[simp] theorem State.setFld64_cry (s : State) (lo hi : Field) (n i v : Nat) : (s.setFld64 lo hi n i v).cry = s.cry := by rfl
@[simp] theorem State.setFld64_mem (s : State) (lo hi : Field) (n i v : Nat) : (s.setFld64 lo hi n i v).mem = s.mem := by rfl
@[simp] theorem State.setFld64_net (s : State) (lo hi : Field) (n i v : Nat) : (s.setFld64 lo hi n i v).net = s.net := by rfl
@[simp] theorem State.setFld64_twn (s : State) (lo hi : Field) (n i v : Nat) : (s.setFld64 lo hi n i v).twn = s.twn := by rfl
@[simp] theorem State.setFld64_ctl (s : State) (lo hi : Field) (n i v : Nat) : (s.setFld64 lo hi n i v).ctl = s.ctl := by rfl
@[simp] theorem State.setFld64_mrk (s : State) (lo hi : Field) (n i v : Nat) : (s.setFld64 lo hi n i v).mrk = s.mrk := by rfl
@[simp] theorem State.setFld64_dbg (s : State) (lo hi : Field) (n i v : Nat) : (s.setFld64 lo hi n i v).dbg = s.dbg := by rfl
@[simp] theorem State.setFld64_dram (s : State) (lo hi : Field) (n i v : Nat) : (s.setFld64 lo hi n i v).dram = s.dram := by rfl
@[simp] theorem State.setFld64_flash (s : State) (lo hi : Field) (n i v : Nat) : (s.setFld64 lo hi n i v).flash = s.flash := by rfl
@[simp] theorem State.setFld64_free (s : State) (lo hi : Field) (n i v : Nat) : (s.setFld64 lo hi n i v).free = s.free := by rfl
@[simp] theorem State.setFld64_outbox (s : State) (lo hi : Field) (n i v : Nat) : (s.setFld64 lo hi n i v).outbox = s.outbox := by rfl
@[simp] theorem State.setFld64_pending (s : State) (lo hi : Field) (n i v : Nat) : (s.setFld64 lo hi n i v).pending = s.pending := by rfl

/-! What `err` leaves alone. -/

@[simp] theorem State.err_shadow (s : State) (k : PageKind) (n c : Nat) : (s.err k n c).shadow = s.shadow := by rfl
@[simp] theorem State.err_commit (s : State) (k : PageKind) (n c : Nat) : (s.err k n c).commit = s.commit := by rfl
@[simp] theorem State.err_accepted (s : State) (k : PageKind) (n c : Nat) : (s.err k n c).accepted = s.accepted := by rfl
@[simp] theorem State.err_sys (s : State) (k : PageKind) (n c : Nat) : (s.err k n c).sys = s.sys := by rfl
@[simp] theorem State.err_evt (s : State) (k : PageKind) (n c : Nat) : (s.err k n c).evt = s.evt := by rfl
@[simp] theorem State.err_hpA (s : State) (k : PageKind) (n c : Nat) : (s.err k n c).hpA = s.hpA := by rfl
@[simp] theorem State.err_hpB (s : State) (k : PageKind) (n c : Nat) : (s.err k n c).hpB = s.hpB := by rfl
@[simp] theorem State.err_pins (s : State) (k : PageKind) (n c : Nat) : (s.err k n c).pins = s.pins := by rfl
@[simp] theorem State.err_tim (s : State) (k : PageKind) (n c : Nat) : (s.err k n c).tim = s.tim := by rfl
@[simp] theorem State.err_abc (s : State) (k : PageKind) (n c : Nat) : (s.err k n c).abc = s.abc := by rfl
@[simp] theorem State.err_afe (s : State) (k : PageKind) (n c : Nat) : (s.err k n c).afe = s.afe := by rfl
@[simp] theorem State.err_cnv (s : State) (k : PageKind) (n c : Nat) : (s.err k n c).cnv = s.cnv := by rfl
@[simp] theorem State.err_cal (s : State) (k : PageKind) (n c : Nat) : (s.err k n c).cal = s.cal := by rfl
@[simp] theorem State.err_flt (s : State) (k : PageKind) (n c : Nat) : (s.err k n c).flt = s.flt := by rfl
@[simp] theorem State.err_tal (s : State) (k : PageKind) (n c : Nat) : (s.err k n c).tal = s.tal := by rfl
@[simp] theorem State.err_cap (s : State) (k : PageKind) (n c : Nat) : (s.err k n c).cap = s.cap := by rfl
@[simp] theorem State.err_cmp (s : State) (k : PageKind) (n c : Nat) : (s.err k n c).cmp = s.cmp := by rfl
@[simp] theorem State.err_cry (s : State) (k : PageKind) (n c : Nat) : (s.err k n c).cry = s.cry := by rfl
@[simp] theorem State.err_mem (s : State) (k : PageKind) (n c : Nat) : (s.err k n c).mem = s.mem := by rfl
@[simp] theorem State.err_net (s : State) (k : PageKind) (n c : Nat) : (s.err k n c).net = s.net := by rfl
@[simp] theorem State.err_twn (s : State) (k : PageKind) (n c : Nat) : (s.err k n c).twn = s.twn := by rfl
@[simp] theorem State.err_ctl (s : State) (k : PageKind) (n c : Nat) : (s.err k n c).ctl = s.ctl := by rfl
@[simp] theorem State.err_mrk (s : State) (k : PageKind) (n c : Nat) : (s.err k n c).mrk = s.mrk := by rfl
@[simp] theorem State.err_dbg (s : State) (k : PageKind) (n c : Nat) : (s.err k n c).dbg = s.dbg := by rfl
@[simp] theorem State.err_dram (s : State) (k : PageKind) (n c : Nat) : (s.err k n c).dram = s.dram := by rfl
@[simp] theorem State.err_flash (s : State) (k : PageKind) (n c : Nat) : (s.err k n c).flash = s.flash := by rfl
@[simp] theorem State.err_free (s : State) (k : PageKind) (n c : Nat) : (s.err k n c).free = s.free := by rfl
@[simp] theorem State.err_outbox (s : State) (k : PageKind) (n c : Nat) : (s.err k n c).outbox = s.outbox := by rfl
@[simp] theorem State.err_pending (s : State) (k : PageKind) (n c : Nat) : (s.err k n c).pending = s.pending := by rfl

/-! What `errDep` leaves alone. -/

@[simp] theorem State.errDep_shadow (s : State) (k : PageKind) (n t : Nat) : (s.errDep k n t).shadow = s.shadow := by rfl
@[simp] theorem State.errDep_commit (s : State) (k : PageKind) (n t : Nat) : (s.errDep k n t).commit = s.commit := by rfl
@[simp] theorem State.errDep_accepted (s : State) (k : PageKind) (n t : Nat) : (s.errDep k n t).accepted = s.accepted := by rfl
@[simp] theorem State.errDep_sys (s : State) (k : PageKind) (n t : Nat) : (s.errDep k n t).sys = s.sys := by rfl
@[simp] theorem State.errDep_evt (s : State) (k : PageKind) (n t : Nat) : (s.errDep k n t).evt = s.evt := by rfl
@[simp] theorem State.errDep_hpA (s : State) (k : PageKind) (n t : Nat) : (s.errDep k n t).hpA = s.hpA := by rfl
@[simp] theorem State.errDep_hpB (s : State) (k : PageKind) (n t : Nat) : (s.errDep k n t).hpB = s.hpB := by rfl
@[simp] theorem State.errDep_pins (s : State) (k : PageKind) (n t : Nat) : (s.errDep k n t).pins = s.pins := by rfl
@[simp] theorem State.errDep_tim (s : State) (k : PageKind) (n t : Nat) : (s.errDep k n t).tim = s.tim := by rfl
@[simp] theorem State.errDep_abc (s : State) (k : PageKind) (n t : Nat) : (s.errDep k n t).abc = s.abc := by rfl
@[simp] theorem State.errDep_afe (s : State) (k : PageKind) (n t : Nat) : (s.errDep k n t).afe = s.afe := by rfl
@[simp] theorem State.errDep_cnv (s : State) (k : PageKind) (n t : Nat) : (s.errDep k n t).cnv = s.cnv := by rfl
@[simp] theorem State.errDep_cal (s : State) (k : PageKind) (n t : Nat) : (s.errDep k n t).cal = s.cal := by rfl
@[simp] theorem State.errDep_flt (s : State) (k : PageKind) (n t : Nat) : (s.errDep k n t).flt = s.flt := by rfl
@[simp] theorem State.errDep_tal (s : State) (k : PageKind) (n t : Nat) : (s.errDep k n t).tal = s.tal := by rfl
@[simp] theorem State.errDep_cap (s : State) (k : PageKind) (n t : Nat) : (s.errDep k n t).cap = s.cap := by rfl
@[simp] theorem State.errDep_cmp (s : State) (k : PageKind) (n t : Nat) : (s.errDep k n t).cmp = s.cmp := by rfl
@[simp] theorem State.errDep_cry (s : State) (k : PageKind) (n t : Nat) : (s.errDep k n t).cry = s.cry := by rfl
@[simp] theorem State.errDep_mem (s : State) (k : PageKind) (n t : Nat) : (s.errDep k n t).mem = s.mem := by rfl
@[simp] theorem State.errDep_net (s : State) (k : PageKind) (n t : Nat) : (s.errDep k n t).net = s.net := by rfl
@[simp] theorem State.errDep_twn (s : State) (k : PageKind) (n t : Nat) : (s.errDep k n t).twn = s.twn := by rfl
@[simp] theorem State.errDep_ctl (s : State) (k : PageKind) (n t : Nat) : (s.errDep k n t).ctl = s.ctl := by rfl
@[simp] theorem State.errDep_mrk (s : State) (k : PageKind) (n t : Nat) : (s.errDep k n t).mrk = s.mrk := by rfl
@[simp] theorem State.errDep_dbg (s : State) (k : PageKind) (n t : Nat) : (s.errDep k n t).dbg = s.dbg := by rfl
@[simp] theorem State.errDep_dram (s : State) (k : PageKind) (n t : Nat) : (s.errDep k n t).dram = s.dram := by rfl
@[simp] theorem State.errDep_flash (s : State) (k : PageKind) (n t : Nat) : (s.errDep k n t).flash = s.flash := by rfl
@[simp] theorem State.errDep_free (s : State) (k : PageKind) (n t : Nat) : (s.errDep k n t).free = s.free := by rfl
@[simp] theorem State.errDep_outbox (s : State) (k : PageKind) (n t : Nat) : (s.errDep k n t).outbox = s.outbox := by rfl
@[simp] theorem State.errDep_pending (s : State) (k : PageKind) (n t : Nat) : (s.errDep k n t).pending = s.pending := by rfl

/-! What `setBoth` leaves alone. -/

@[simp] theorem State.setBoth_commit (s : State) (f : Field) (n i v : Nat) : (s.setBoth f n i v).commit = s.commit := by rfl
@[simp] theorem State.setBoth_accepted (s : State) (f : Field) (n i v : Nat) : (s.setBoth f n i v).accepted = s.accepted := by rfl
@[simp] theorem State.setBoth_sys (s : State) (f : Field) (n i v : Nat) : (s.setBoth f n i v).sys = s.sys := by rfl
@[simp] theorem State.setBoth_evt (s : State) (f : Field) (n i v : Nat) : (s.setBoth f n i v).evt = s.evt := by rfl
@[simp] theorem State.setBoth_hpA (s : State) (f : Field) (n i v : Nat) : (s.setBoth f n i v).hpA = s.hpA := by rfl
@[simp] theorem State.setBoth_hpB (s : State) (f : Field) (n i v : Nat) : (s.setBoth f n i v).hpB = s.hpB := by rfl
@[simp] theorem State.setBoth_pins (s : State) (f : Field) (n i v : Nat) : (s.setBoth f n i v).pins = s.pins := by rfl
@[simp] theorem State.setBoth_tim (s : State) (f : Field) (n i v : Nat) : (s.setBoth f n i v).tim = s.tim := by rfl
@[simp] theorem State.setBoth_abc (s : State) (f : Field) (n i v : Nat) : (s.setBoth f n i v).abc = s.abc := by rfl
@[simp] theorem State.setBoth_afe (s : State) (f : Field) (n i v : Nat) : (s.setBoth f n i v).afe = s.afe := by rfl
@[simp] theorem State.setBoth_cnv (s : State) (f : Field) (n i v : Nat) : (s.setBoth f n i v).cnv = s.cnv := by rfl
@[simp] theorem State.setBoth_cal (s : State) (f : Field) (n i v : Nat) : (s.setBoth f n i v).cal = s.cal := by rfl
@[simp] theorem State.setBoth_flt (s : State) (f : Field) (n i v : Nat) : (s.setBoth f n i v).flt = s.flt := by rfl
@[simp] theorem State.setBoth_tal (s : State) (f : Field) (n i v : Nat) : (s.setBoth f n i v).tal = s.tal := by rfl
@[simp] theorem State.setBoth_cap (s : State) (f : Field) (n i v : Nat) : (s.setBoth f n i v).cap = s.cap := by rfl
@[simp] theorem State.setBoth_cmp (s : State) (f : Field) (n i v : Nat) : (s.setBoth f n i v).cmp = s.cmp := by rfl
@[simp] theorem State.setBoth_cry (s : State) (f : Field) (n i v : Nat) : (s.setBoth f n i v).cry = s.cry := by rfl
@[simp] theorem State.setBoth_mem (s : State) (f : Field) (n i v : Nat) : (s.setBoth f n i v).mem = s.mem := by rfl
@[simp] theorem State.setBoth_net (s : State) (f : Field) (n i v : Nat) : (s.setBoth f n i v).net = s.net := by rfl
@[simp] theorem State.setBoth_twn (s : State) (f : Field) (n i v : Nat) : (s.setBoth f n i v).twn = s.twn := by rfl
@[simp] theorem State.setBoth_ctl (s : State) (f : Field) (n i v : Nat) : (s.setBoth f n i v).ctl = s.ctl := by rfl
@[simp] theorem State.setBoth_mrk (s : State) (f : Field) (n i v : Nat) : (s.setBoth f n i v).mrk = s.mrk := by rfl
@[simp] theorem State.setBoth_dbg (s : State) (f : Field) (n i v : Nat) : (s.setBoth f n i v).dbg = s.dbg := by rfl
@[simp] theorem State.setBoth_dram (s : State) (f : Field) (n i v : Nat) : (s.setBoth f n i v).dram = s.dram := by rfl
@[simp] theorem State.setBoth_flash (s : State) (f : Field) (n i v : Nat) : (s.setBoth f n i v).flash = s.flash := by rfl
@[simp] theorem State.setBoth_free (s : State) (f : Field) (n i v : Nat) : (s.setBoth f n i v).free = s.free := by rfl
@[simp] theorem State.setBoth_outbox (s : State) (f : Field) (n i v : Nat) : (s.setBoth f n i v).outbox = s.outbox := by rfl
@[simp] theorem State.setBoth_pending (s : State) (f : Field) (n i v : Nat) : (s.setBoth f n i v).pending = s.pending := by rfl

/-! What `drawn` leaves alone. -/

@[simp] theorem State.drawn_regs (s : State)  : (s.drawn).regs = s.regs := by rfl
@[simp] theorem State.drawn_shadow (s : State)  : (s.drawn).shadow = s.shadow := by rfl
@[simp] theorem State.drawn_commit (s : State)  : (s.drawn).commit = s.commit := by rfl
@[simp] theorem State.drawn_accepted (s : State)  : (s.drawn).accepted = s.accepted := by rfl
@[simp] theorem State.drawn_sys (s : State)  : (s.drawn).sys = s.sys := by rfl
@[simp] theorem State.drawn_evt (s : State)  : (s.drawn).evt = s.evt := by rfl
@[simp] theorem State.drawn_hpA (s : State)  : (s.drawn).hpA = s.hpA := by rfl
@[simp] theorem State.drawn_hpB (s : State)  : (s.drawn).hpB = s.hpB := by rfl
@[simp] theorem State.drawn_pins (s : State)  : (s.drawn).pins = s.pins := by rfl
@[simp] theorem State.drawn_tim (s : State)  : (s.drawn).tim = s.tim := by rfl
@[simp] theorem State.drawn_abc (s : State)  : (s.drawn).abc = s.abc := by rfl
@[simp] theorem State.drawn_afe (s : State)  : (s.drawn).afe = s.afe := by rfl
@[simp] theorem State.drawn_cnv (s : State)  : (s.drawn).cnv = s.cnv := by rfl
@[simp] theorem State.drawn_cal (s : State)  : (s.drawn).cal = s.cal := by rfl
@[simp] theorem State.drawn_flt (s : State)  : (s.drawn).flt = s.flt := by rfl
@[simp] theorem State.drawn_tal (s : State)  : (s.drawn).tal = s.tal := by rfl
@[simp] theorem State.drawn_cap (s : State)  : (s.drawn).cap = s.cap := by rfl
@[simp] theorem State.drawn_cmp (s : State)  : (s.drawn).cmp = s.cmp := by rfl
@[simp] theorem State.drawn_cry (s : State)  : (s.drawn).cry = s.cry := by rfl
@[simp] theorem State.drawn_mem (s : State)  : (s.drawn).mem = s.mem := by rfl
@[simp] theorem State.drawn_net (s : State)  : (s.drawn).net = s.net := by rfl
@[simp] theorem State.drawn_twn (s : State)  : (s.drawn).twn = s.twn := by rfl
@[simp] theorem State.drawn_ctl (s : State)  : (s.drawn).ctl = s.ctl := by rfl
@[simp] theorem State.drawn_mrk (s : State)  : (s.drawn).mrk = s.mrk := by rfl
@[simp] theorem State.drawn_dbg (s : State)  : (s.drawn).dbg = s.dbg := by rfl
@[simp] theorem State.drawn_dram (s : State)  : (s.drawn).dram = s.dram := by rfl
@[simp] theorem State.drawn_flash (s : State)  : (s.drawn).flash = s.flash := by rfl
@[simp] theorem State.drawn_outbox (s : State)  : (s.drawn).outbox = s.outbox := by rfl
@[simp] theorem State.drawn_pending (s : State)  : (s.drawn).pending = s.pending := by rfl

/-! What `put` leaves alone. -/

@[simp] theorem State.put_regs (s : State) (o : Out) : (s.put o).regs = s.regs := by rfl
@[simp] theorem State.put_shadow (s : State) (o : Out) : (s.put o).shadow = s.shadow := by rfl
@[simp] theorem State.put_commit (s : State) (o : Out) : (s.put o).commit = s.commit := by rfl
@[simp] theorem State.put_accepted (s : State) (o : Out) : (s.put o).accepted = s.accepted := by rfl
@[simp] theorem State.put_sys (s : State) (o : Out) : (s.put o).sys = s.sys := by rfl
@[simp] theorem State.put_evt (s : State) (o : Out) : (s.put o).evt = s.evt := by rfl
@[simp] theorem State.put_hpA (s : State) (o : Out) : (s.put o).hpA = s.hpA := by rfl
@[simp] theorem State.put_hpB (s : State) (o : Out) : (s.put o).hpB = s.hpB := by rfl
@[simp] theorem State.put_pins (s : State) (o : Out) : (s.put o).pins = s.pins := by rfl
@[simp] theorem State.put_tim (s : State) (o : Out) : (s.put o).tim = s.tim := by rfl
@[simp] theorem State.put_abc (s : State) (o : Out) : (s.put o).abc = s.abc := by rfl
@[simp] theorem State.put_afe (s : State) (o : Out) : (s.put o).afe = s.afe := by rfl
@[simp] theorem State.put_cnv (s : State) (o : Out) : (s.put o).cnv = s.cnv := by rfl
@[simp] theorem State.put_cal (s : State) (o : Out) : (s.put o).cal = s.cal := by rfl
@[simp] theorem State.put_flt (s : State) (o : Out) : (s.put o).flt = s.flt := by rfl
@[simp] theorem State.put_tal (s : State) (o : Out) : (s.put o).tal = s.tal := by rfl
@[simp] theorem State.put_cap (s : State) (o : Out) : (s.put o).cap = s.cap := by rfl
@[simp] theorem State.put_cmp (s : State) (o : Out) : (s.put o).cmp = s.cmp := by rfl
@[simp] theorem State.put_cry (s : State) (o : Out) : (s.put o).cry = s.cry := by rfl
@[simp] theorem State.put_mem (s : State) (o : Out) : (s.put o).mem = s.mem := by rfl
@[simp] theorem State.put_net (s : State) (o : Out) : (s.put o).net = s.net := by rfl
@[simp] theorem State.put_twn (s : State) (o : Out) : (s.put o).twn = s.twn := by rfl
@[simp] theorem State.put_ctl (s : State) (o : Out) : (s.put o).ctl = s.ctl := by rfl
@[simp] theorem State.put_mrk (s : State) (o : Out) : (s.put o).mrk = s.mrk := by rfl
@[simp] theorem State.put_dbg (s : State) (o : Out) : (s.put o).dbg = s.dbg := by rfl
@[simp] theorem State.put_dram (s : State) (o : Out) : (s.put o).dram = s.dram := by rfl
@[simp] theorem State.put_flash (s : State) (o : Out) : (s.put o).flash = s.flash := by rfl
@[simp] theorem State.put_free (s : State) (o : Out) : (s.put o).free = s.free := by rfl
@[simp] theorem State.put_pending (s : State) (o : Out) : (s.put o).pending = s.pending := by rfl

/-! What `setStream` leaves alone. -/

@[simp] theorem State.setStream_regs (s : State) (i : Nat) (v : StreamState) : (s.setStream i v).regs = s.regs := by rfl
@[simp] theorem State.setStream_shadow (s : State) (i : Nat) (v : StreamState) : (s.setStream i v).shadow = s.shadow := by rfl
@[simp] theorem State.setStream_commit (s : State) (i : Nat) (v : StreamState) : (s.setStream i v).commit = s.commit := by rfl
@[simp] theorem State.setStream_accepted (s : State) (i : Nat) (v : StreamState) : (s.setStream i v).accepted = s.accepted := by rfl
@[simp] theorem State.setStream_sys (s : State) (i : Nat) (v : StreamState) : (s.setStream i v).sys = s.sys := by rfl
@[simp] theorem State.setStream_evt (s : State) (i : Nat) (v : StreamState) : (s.setStream i v).evt = s.evt := by rfl
@[simp] theorem State.setStream_hpA (s : State) (i : Nat) (v : StreamState) : (s.setStream i v).hpA = s.hpA := by rfl
@[simp] theorem State.setStream_hpB (s : State) (i : Nat) (v : StreamState) : (s.setStream i v).hpB = s.hpB := by rfl
@[simp] theorem State.setStream_pins (s : State) (i : Nat) (v : StreamState) : (s.setStream i v).pins = s.pins := by rfl
@[simp] theorem State.setStream_tim (s : State) (i : Nat) (v : StreamState) : (s.setStream i v).tim = s.tim := by rfl
@[simp] theorem State.setStream_abc (s : State) (i : Nat) (v : StreamState) : (s.setStream i v).abc = s.abc := by rfl
@[simp] theorem State.setStream_afe (s : State) (i : Nat) (v : StreamState) : (s.setStream i v).afe = s.afe := by rfl
@[simp] theorem State.setStream_cnv (s : State) (i : Nat) (v : StreamState) : (s.setStream i v).cnv = s.cnv := by rfl
@[simp] theorem State.setStream_cal (s : State) (i : Nat) (v : StreamState) : (s.setStream i v).cal = s.cal := by rfl
@[simp] theorem State.setStream_flt (s : State) (i : Nat) (v : StreamState) : (s.setStream i v).flt = s.flt := by rfl
@[simp] theorem State.setStream_tal (s : State) (i : Nat) (v : StreamState) : (s.setStream i v).tal = s.tal := by rfl
@[simp] theorem State.setStream_cap (s : State) (i : Nat) (v : StreamState) : (s.setStream i v).cap = s.cap := by rfl
@[simp] theorem State.setStream_cmp (s : State) (i : Nat) (v : StreamState) : (s.setStream i v).cmp = s.cmp := by rfl
@[simp] theorem State.setStream_mem (s : State) (i : Nat) (v : StreamState) : (s.setStream i v).mem = s.mem := by rfl
@[simp] theorem State.setStream_net (s : State) (i : Nat) (v : StreamState) : (s.setStream i v).net = s.net := by rfl
@[simp] theorem State.setStream_twn (s : State) (i : Nat) (v : StreamState) : (s.setStream i v).twn = s.twn := by rfl
@[simp] theorem State.setStream_ctl (s : State) (i : Nat) (v : StreamState) : (s.setStream i v).ctl = s.ctl := by rfl
@[simp] theorem State.setStream_mrk (s : State) (i : Nat) (v : StreamState) : (s.setStream i v).mrk = s.mrk := by rfl
@[simp] theorem State.setStream_dbg (s : State) (i : Nat) (v : StreamState) : (s.setStream i v).dbg = s.dbg := by rfl
@[simp] theorem State.setStream_dram (s : State) (i : Nat) (v : StreamState) : (s.setStream i v).dram = s.dram := by rfl
@[simp] theorem State.setStream_flash (s : State) (i : Nat) (v : StreamState) : (s.setStream i v).flash = s.flash := by rfl
@[simp] theorem State.setStream_free (s : State) (i : Nat) (v : StreamState) : (s.setStream i v).free = s.free := by rfl
@[simp] theorem State.setStream_outbox (s : State) (i : Nat) (v : StreamState) : (s.setStream i v).outbox = s.outbox := by rfl
@[simp] theorem State.setStream_pending (s : State) (i : Nat) (v : StreamState) : (s.setStream i v).pending = s.pending := by rfl

/-! ### Fields of the register file after an update -/

/-- A fold of updates that each keep `g` keeps `g`. -/
theorem State.foldl_keep {α β : Type} (g : State → α) (f : State → β → State) (h : ∀ s b, g (f s b) = g s)
    (l : List β) (s : State) : g (l.foldl f s) = g s := by
  induction l generalizing s with
  | nil => rfl
  | cons b t ih => rw [List.foldl_cons, ih, h]

/-- States with the same registers read every field alike. -/
theorem State.fld_congr {s t : State} (h : s.regs = t.regs) (f : Field) (n i : Nat) : s.fld f n i = t.fld f n i := by
  simp [State.fld, h]

theorem State.fld_lt (s : State) (f : Field) (n i : Nat) : s.fld f n i < 2 ^ f.width := Field.ofWord_lt _ _

/-- Read after write of a field. -/
theorem State.fld_setFld_same (s : State) (f : Field) (n i v : Nat) (hf : f.lsb + f.width ≤ 32) :
    (s.setFld f n i v).fld f n i = v % 2 ^ f.width := Field.rd_wr_same f s.regs n i v hf

theorem State.fld_setFld_addr (s : State) (f g : Field) (n i v k j : Nat) (h : g.addr k j ≠ f.addr n i) :
    (s.setFld f n i v).fld g k j = s.fld g k j := Field.rd_wr_addr f g s.regs n i v k j h

theorem State.fld_setFld_disjoint (s : State) (f g : Field) (n i v k j : Nat) (hf : f.lsb + f.width ≤ 32)
    (h : f.disjoint g = true) : (s.setFld f n i v).fld g k j = s.fld g k j :=
  Field.rd_wr_disjoint f g s.regs n i v k j hf h

theorem State.flag_setFlag_same (s : State) (f : Field) (n i : Nat) (v : Bool) (hf : f.lsb + f.width ≤ 32)
    (hw : 0 < f.width) : (s.setFlag f n i v).flag f n i = v := by
  have h : 1 < 2 ^ f.width := Nat.one_lt_two_pow (by omega)
  simp only [State.flag, State.setFlag, State.fld_setFld_same _ _ _ _ _ hf]
  cases v <;> simp [b2n, Nat.mod_eq_of_lt, h]

/-- A word outside the one that a field update writes reads as before. -/
theorem State.regRd_setFld_ne (s : State) (f : Field) (n i v : Nat) {x : Nat} (h : x ≠ f.addr n i) :
    regRd (s.setFld f n i v).regs x = regRd s.regs x := regRd_regWr_ne _ _ h

theorem State.regRd_err_ne (s : State) (k : PageKind) (n c : Nat) {x : Nat} (h : x ≠ pageBase k n + 0x18) :
    regRd (s.err k n c).regs x = regRd s.regs x := regRd_regWr_ne _ _ h

/-- ERRCODE as `err` leaves it (R144): the cause, the page's own block code, and the count one higher up to 255. -/
theorem State.regRd_err_same (s : State) (k : PageKind) (n c : Nat) :
    regRd (s.err k n c).regs (pageBase k n + 0x18) =
      w32 (c + 0x100 * k.type + 0x10000 *
        min (Reg.COMMON_ERRCODE_COUNT.ofWord (regRd s.regs (pageBase k n + 0x18)) + 1) 0xFF) :=
  regRd_regWr_same _ _ _

@[simp] theorem State.stream_setStream_same (s : State) (i : Nat) (v : StreamState) : (s.setStream i v).stream i = v :=
  SMap.lookD_put_same _ _ _ _

theorem State.stream_setStream_ne (s : State) {i j : Nat} (v : StreamState) (h : j ≠ i) :
    (s.setStream i v).stream j = s.stream j := SMap.lookD_put_ne _ _ _ h

@[simp] theorem State.put_outbox (s : State) (o : Out) : (s.put o).outbox = s.outbox ++ [o] := by rfl

@[simp] theorem State.drawn_free (s : State) : s.drawn.free = s.free + 1 := by rfl

end Sys2Proof.Machine
end

