-- ==== Sys2Proof/Laws/Ops.lean ====
section
/-!
SUPPORT. One lemma for each shared operation, saying all that it can do: sending frames, delivering vectors (`finish`,
the last act of every command), and raising events.
-/
namespace Sys2Proof.Machine

/-! ### Sending -/

/-- All that sending frames can change: the TX counters, what NET keeps, and the outbox. -/
structure Sends (s t : State) : Prop where
  only : t = { s with regs := t.regs, net := { s.net with seqs := t.net.seqs }, outbox := t.outbox }
  regs : ∀ a, ¬ txWord a → regRd t.regs a = regRd s.regs a
  sent : s.outbox <+: t.outbox

theorem Sends.refl (s : State) : Sends s s := ⟨rfl, fun _ _ => rfl, List.prefix_refl _⟩

theorem Sends.trans {s t u : State} (h : Sends s t) (k : Sends t u) : Sends s u :=
  ⟨by rw [k.only, h.only], fun a ha => (k.regs a ha).trans (h.regs a ha), h.sent.trans k.sent⟩

/-- A state that differs from another in outputs and SEQ numbers only. -/
theorem Sends.of_eq {s t : State} (h : t = { s with net := { s.net with seqs := t.net.seqs }, outbox := t.outbox })
    (ho : s.outbox <+: t.outbox) : Sends s t :=
  ⟨by rw [h], fun a _ => by rw [h], ho⟩

theorem Sends.ite {c : Prop} [Decidable c] {s t u : State} (h : Sends s t) (k : Sends s u) :
    Sends s (if c then t else u) := by
  split
  · exact h
  · exact k

theorem State.transmit_sends (s : State) (p : NetPort) (f : Frame) : Sends s (s.transmit p f) := by
  unfold State.transmit
  split
  · refine ⟨rfl, fun a ha => ?_, List.prefix_append _ _⟩
    exact regRd_regWr_ne _ _ fun h => ha ⟨p, h⟩
  · exact Sends.refl s

theorem State.nextSeq_sends (s : State) (ty : Nat) : Sends s (s.nextSeq ty) := Sends.of_eq rfl (List.prefix_refl _)

theorem State.transmitRing_sends (s : State) (p : NetPort) (f : Frame) : Sends s (s.transmitRing p f) := by
  unfold State.transmitRing
  repeat' split
  all_goals first | exact State.transmit_sends _ _ _ | exact Sends.refl s

theorem State.sendOn_sends (s : State) (p : NetPort) (ty pcp : Nat) (d : Option Nat) (b : Bool) (body : List Byte)
    (l : Bool) : Sends s (s.sendOn p ty pcp d b body l) := by
  unfold State.sendOn
  refine Sends.trans ?_ (State.nextSeq_sends _ _)
  split
  · exact State.transmitRing_sends _ _ _
  · exact State.transmit_sends _ _ _

theorem State.sendRing_sends (s : State) (ty pcp : Nat) (body : List Byte) : Sends s (s.sendRing ty pcp body) := by
  unfold State.sendRing
  refine Sends.trans ?_ (State.nextSeq_sends _ _)
  dsimp only
  exact Sends.trans (Sends.ite (State.transmit_sends _ _ _) (Sends.refl s))
    (Sends.ite (State.transmit_sends _ _ _) (Sends.refl _))

theorem State.sendDown_sends (s : State) (ty pcp : Nat) (body : List Byte) : Sends s (s.sendDown ty pcp body) := by
  unfold State.sendDown
  refine Sends.trans ?_ (State.sendRing_sends _ _ _ _)
  split
  · exact State.transmit_sends _ _ _
  · exact Sends.refl s

theorem State.toManager_sends (s : State) (ty pcp : Nat) (body : List Byte) : Sends s (s.toManager ty pcp body) := by
  unfold State.toManager
  dsimp only
  repeat' split
  all_goals first | exact State.sendOn_sends _ _ _ _ _ _ _ _ | exact Sends.refl s

theorem State.toMember_sends (s : State) (a ty pcp : Nat) (body : List Byte) : Sends s (s.toMember a ty pcp body) := by
  unfold State.toMember
  split
  · exact State.sendOn_sends _ _ _ _ _ _ _ _
  · exact Sends.refl s

theorem State.sendTwEvents_sends (s : State) (k : Int) (es : List TwEntry) : Sends s (s.sendTwEvents k es) := by
  unfold State.sendTwEvents
  split
  · exact Sends.trans (State.transmit_sends _ _ _) (State.nextSeq_sends _ _)
  · exact Sends.refl s

theorem State.announceLive_sends (s : State) (p : HostPort) : Sends s (s.announceLive p) := by
  unfold State.announceLive
  dsimp only
  repeat' split
  · exact Sends.refl s
  · exact State.toManager_sends _ _ _ _
  · exact Sends.refl s
  · rename_i h1 h2 h3
    clear h1 h2 h3
    generalize List.filter _ _ = l
    induction l generalizing s with
    | nil => exact Sends.refl s
    | cons v t ih => exact Sends.trans (Sends.of_eq (s := s) (t := s.put (.msix p v)) rfl (List.prefix_append _ _)) (ih _)

/-! ### Log entries -/

/-- The words that a log entry may change: EVT.LOG_HEAD, and the STATE words of the streams that it enters (R168, R503). -/
def logWord (a : Nat) : Prop := a = Reg.EVT_LOG_HEAD_HEAD.addr 0 0 ∨ ∃ i, i < 64 ∧ a = Reg.CRY_S_STATE_OVERRATE.addr 0 i

/-- All that handing words to streams and writing log entries can change. -/
structure Logs (s t : State) : Prop where
  only : t = { s with
    regs := t.regs
    evt := { s.evt with log := t.evt.log, toTwin := t.evt.toTwin }
    cry := { s.cry with streams := t.cry.streams } }
  regs : ∀ a, ¬ logWord a → regRd t.regs a = regRd s.regs a

theorem Logs.refl (s : State) : Logs s s := ⟨rfl, fun _ _ => rfl⟩

theorem Logs.trans {s t u : State} (h : Logs s t) (k : Logs t u) : Logs s u :=
  ⟨by rw [k.only, h.only], fun a ha => (k.regs a ha).trans (h.regs a ha)⟩

theorem Logs.ite {c : Prop} [Decidable c] {s t u : State} (h : Logs s t) (k : Logs s u) : Logs s (if c then t else u) := by
  split
  · exact h
  · exact k

theorem Logs.fold {β : Type} (f : State → β → State) (l : List β) (h : ∀ s, ∀ b ∈ l, Logs s (f s b)) (s : State) :
    Logs s (l.foldl f s) := by
  induction l generalizing s with
  | nil => exact Logs.refl s
  | cons b t ih => exact (h s b (by simp)).trans (ih (fun s c hc => h s c (by simp [hc])) _)

theorem State.setStream_logs (s : State) (i : Nat) (v : StreamState) : Logs s (s.setStream i v) :=
  ⟨rfl, fun _ _ => rfl⟩

theorem State.feedStream_logs (s : State) (i : Nat) (ws : List Word) (bad : List Nat) (hi : i < 64) :
    Logs s (s.feedStream i ws bad) := by
  unfold State.feedStream
  dsimp only
  exact Logs.trans (State.setStream_logs s i _)
    (Logs.ite ⟨rfl, fun a ha => regRd_regWr_ne _ _ fun h => ha (.inr ⟨i, hi, h⟩)⟩ (Logs.refl _))

theorem State.feedAll_logs (s : State) (src : Nat) (ws : List Word) (bad : List Nat) : Logs s (s.feedAll src ws bad) :=
  Logs.fold _ _ (fun s i hi => State.feedStream_logs s i ws bad
    (by simpa using (List.mem_filter.mp (show i ∈ _ from hi)).1)) s

theorem State.writeLog_logs (s : State) (r : Raised) : Logs s (s.writeLog r) := by
  unfold State.writeLog
  dsimp only
  refine Logs.trans ⟨rfl, fun a ha => regRd_regWr_ne _ _ fun h => ha (.inl h)⟩ (Logs.ite (State.feedAll_logs _ _ _ _) (Logs.refl _))

/-- All that writing the log entries that wait can do (R168): none waits then, and the ring, the streams of the log and what
the twin is to be told have them. -/
theorem State.logged_spec (s : State) : Logs { s with evt := { s.evt with raised := [] } } s.logged :=
  Logs.fold _ _ (fun s r _ => State.writeLog_logs s r) _

theorem State.logged_regRd (s : State) {a : Nat} (h : ¬ logWord a) : regRd s.logged.regs a = regRd s.regs a :=
  s.logged_spec.regs a h

theorem State.logged_outbox (s : State) : s.logged.outbox = s.outbox := by rw [s.logged_spec.only]

theorem State.logged_net (s : State) : s.logged.net = s.net := by rw [s.logged_spec.only]

theorem State.logged_raised (s : State) : s.logged.evt.raised = [] := by rw [s.logged_spec.only]

/-- Where no event has occurred there is nothing to write. -/
theorem State.logged_eq {s : State} (h : s.evt.raised = []) : s.logged = s := by
  rw [State.logged, h, List.foldl_nil, ← h]

/-! ### The last act of a command -/

/-- What is live depends on the registers and the MSI-X enables alone. -/
theorem State.live_congr {s t : State} (hr : s.regs = t.regs) (ha : s.hpA = t.hpA) (hb : s.hpB = t.hpB) (p : HostPort) :
    s.live p = t.live p := by
  have f : ∀ (g : Field) n i, s.fld g n i = t.fld g n i := fun g n i => State.fld_congr hr g n i
  have e : s.activeEvents = t.activeEvents := by simp only [State.activeEvents, hr]
  have h : ∀ q, s.hp q = t.hp q := by intro q; cases q <;> simp [State.hp, ha, hb]
  have v : s.vectorOf p = t.vectorOf p := by
    funext ev; cases p <;> simp [State.vectorOf, State.flag, f]
  have u : s.unmasked p = t.unmasked p := by
    funext w
    simp only [State.unmasked, State.bound, State.serialMode, State.flag, State.msixHeld, h, f, hr]
    cases p <;> simp [State.vecMask, f]
  simp only [State.live, State.pend, e, v, u]

/-- All that `finish` can do: the log entries that wait are written, frames and messages go out, and the live vectors are
remembered; nothing else changes. -/
theorem State.finish_spec (s : State) : Settles s s.finish := by
  have h1 : Sends { s.logged with evt := { s.logged.evt with toTwin := [] } } s.logged.logToTwin :=
    State.sendTwEvents_sends _ _ _
  have h2 := (h1.trans (State.announceLive_sends _ .A)).trans (State.announceLive_sends _ .B)
  have hn := s.logged_net
  have hx := s.logged_outbox
  have hr := s.logged_raised
  unfold State.finish
  dsimp only
  generalize (s.logged.logToTwin.announceLive .A).announceLive .B = u at h2 ⊢
  have ho := h2.only
  refine ⟨?_, fun a ha => h2.regs a ha, ?_, ?_, ?_, ?_, ?_⟩
  · simp only [State.setLive]
    rw [ho, ← hn]
  · rw [← hx]; exact h2.sent
  · simp only [State.setLive]
    exact congrArg w32 (State.live_congr rfl rfl rfl .A)
  · simp only [State.setLive]
    exact congrArg w32 (State.live_congr rfl rfl rfl .B)
  · simp only [State.setLive]
    rw [ho, hr]
  · simp only [State.setLive]
    rw [ho]

theorem txWord_iff (a : Nat) : txWord a ↔ a = 0x90108 ∨ a = 0x91108 ∨ a = 0x92108 ∨ a = 0x93108 := by
  constructor
  · rintro ⟨p, rfl⟩; cases p <;> decide
  · rintro (rfl | rfl | rfl | rfl)
    · exact ⟨.N, by decide⟩
    · exact ⟨.S, by decide⟩
    · exact ⟨.T, by decide⟩
    · exact ⟨.M, by decide⟩

theorem Sends.fld {s t : State} (h : Sends s t) (f : Field) (n i : Nat) (hf : ¬ txWord (f.addr n i)) :
    t.fld f n i = s.fld f n i := by
  simp only [State.fld, Field.rd, h.regs _ hf]

/-- A register of a stream is no TX counter. -/
theorem stream_not_tx {f : Field} {i : Nat} (hp : f.page = .CRY) (hs : f.stride = 64) (ho : f.off % 64 ≠ 8) :
    ¬ txWord (f.addr 0 i) := by
  rw [txWord_iff]
  simp only [Field.addr, hp, hs, PageKind.base]
  omega

/-- Frames that go out commute with a register written outside the TX counters. -/
theorem Sends.setFld {s t : State} (h : Sends s t) (f : Field) (n i v : Nat) (hf : ¬ txWord (f.addr n i)) :
    Sends (s.setFld f n i v) (t.setFld f n i v) := by
  refine ⟨?_, fun a ha => ?_, h.sent⟩
  · unfold State.setFld
    rw [h.only]
  · simp only [State.setFld, Field.wr, regRd_regWr, h.regs _ ha, h.regs _ hf]

/-- Frames that go out commute with words handed to a stream. -/
theorem Sends.feedStream {s t : State} (h : Sends s t) (i : Nat) (ws : List Word) (bad : List Nat) :
    Sends (s.feedStream i ws bad) (t.feedStream i ws bad) := by
  have hs : t.stream i = s.stream i := by rw [h.only]; rfl
  have hl : t.life = s.life := by rw [h.only]; rfl
  have hset : ∀ v, Sends (s.setStream i v) (t.setStream i v) := fun v =>
    ⟨by unfold State.setStream; rw [h.only], h.regs, h.sent⟩
  unfold State.feedStream
  dsimp only
  rw [hs, hl]
  rw [(hset _).fld Reg.CRY_S_RATE_BPS 0 i (stream_not_tx rfl rfl (by decide))]
  split
  · exact (hset _).setFld _ _ _ _ (stream_not_tx rfl rfl (by decide))
  · exact hset _

theorem Sends.fold {β : Type} (f : State → β → State) (l : List β) (hf : ∀ s t, ∀ b ∈ l, Sends s t → Sends (f s b) (f t b))
    {s t : State} (h : Sends s t) : Sends (l.foldl f s) (l.foldl f t) := by
  induction l generalizing s t with
  | nil => exact h
  | cons b l ih => exact ih (fun s t c hc => hf s t c (by simp [hc])) (hf s t b (by simp) h)

theorem Sends.feedAll {s t : State} (h : Sends s t) (src : Nat) (ws : List Word) (bad : List Nat) :
    Sends (s.feedAll src ws bad) (t.feedAll src ws bad) := by
  have e : t.streamsOf src = s.streamsOf src := by
    unfold State.streamsOf
    congr 1
    funext i
    simp only [State.flag, h.fld Reg.CRY_S_CFG_EN 0 i (stream_not_tx rfl rfl (by decide)),
      h.fld Reg.CRY_S_CFG_SRC 0 i (stream_not_tx rfl rfl (by decide))]
  unfold State.feedAll
  rw [e]
  exact Sends.fold (fun s i => s.feedStream i ws bad) _ (fun _ _ b _ h => h.feedStream b ws bad) h

theorem Sends.setEvt {s t : State} (h : Sends s t) (v : EvtState) : Sends { s with evt := v } { t with evt := v } :=
  ⟨by rw [h.only], h.regs, h.sent⟩

theorem Sends.evt {s t : State} (h : Sends s t) : t.evt = s.evt := by rw [h.only]

/-- What writing one entry makes of the ring and of what the twin is told (R168). -/
def State.logKept (s : State) (r : Raised) (n : Nat) : EvtState :=
  { s.evt with
    log := s.evt.log.put (n % 1024) { r.entry with seq := n }
    toTwin := if r.told then s.evt.toTwin ++ [State.logWords { r.entry with seq := n }] else s.evt.toTwin }

theorem State.writeLog_eq (s : State) (r : Raised) : s.writeLog r =
    if r.fed then State.feedAll (State.setFld { s with evt := s.logKept r (s.fld Reg.EVT_LOG_HEAD_HEAD) }
      Reg.EVT_LOG_HEAD_HEAD 0 0 (s.fld Reg.EVT_LOG_HEAD_HEAD + 1)) 4
        (State.logWords { r.entry with seq := s.fld Reg.EVT_LOG_HEAD_HEAD })
    else State.setFld { s with evt := s.logKept r (s.fld Reg.EVT_LOG_HEAD_HEAD) }
      Reg.EVT_LOG_HEAD_HEAD 0 0 (s.fld Reg.EVT_LOG_HEAD_HEAD + 1) := rfl

theorem Sends.writeLog {s t : State} (h : Sends s t) (r : Raised) : Sends (s.writeLog r) (t.writeLog r) := by
  have hh : ¬ txWord (Reg.EVT_LOG_HEAD_HEAD.addr 0 0) := by rw [txWord_iff]; decide
  have hk : ∀ n, t.logKept r n = s.logKept r n := fun n => by unfold State.logKept; rw [h.evt]
  rw [State.writeLog_eq, State.writeLog_eq, h.fld _ 0 0 hh, hk]
  generalize State.logKept s r _ = v
  generalize s.fld _ = n
  split
  · exact ((h.setEvt v).setFld _ _ _ _ hh).feedAll _ _ _
  · exact (h.setEvt v).setFld _ _ _ _ hh

/-- Frames that go out commute with the log entries that are written. -/
theorem Sends.logged {s t : State} (h : Sends s t) : Sends s.logged t.logged := by
  unfold State.logged
  rw [h.evt]
  exact Sends.fold State.writeLog s.evt.raised (fun _ _ b _ h => h.writeLog b) (h.setEvt _)

/-- A command whose last work only sends frames ends as one that ends before it. -/
theorem Settles.of_sends {s t u : State} (h : Sends s t) (k : Settles t u) : Settles s u := by
  have hl := h.logged
  have hn := h.only
  refine ⟨?_, fun a ha => (k.regs a ha).trans (hl.regs a ha), h.sent.trans k.sent, k.delivered⟩
  rw [k.only, hl.only, hn]

/-- A field outside NET's TX counters and the log's reach reads the same on both sides. -/
theorem Settles.fld {s t : State} (h : Settles s t) (f : Field) (n i : Nat) (hf : ¬ txWord (f.addr n i))
    (hl : ¬ logWord (f.addr n i)) : t.fld f n i = s.fld f n i := by
  simp only [State.fld, Field.rd, h.regs _ hf, s.logged_regRd hl]

/-- A field outside NET's TX counters and the log's reach reads after `finish` as before it. -/
theorem State.finish_fld (s : State) (f : Field) (n i : Nat) (h : ¬ txWord (f.addr n i)) (hl : ¬ logWord (f.addr n i)) :
    s.finish.fld f n i = s.fld f n i := (State.finish_spec s).fld f n i h hl

/-! ### Raising events -/

/-- All that an occurrence does at once (R164, R168): its EVENT bit is set, and a log entry may wait to be written. -/
theorem State.occur_spec (s : State) (k : PageKind) (n b : Nat) (forced always : Bool) (lo hi : Word) :
    s.occur k n b forced always lo hi = { s with
      regs := regWr s.regs (pageBase k n + 0xC) (regRd s.regs (pageBase k n + 0xC) ||| w32 (2 ^ b))
      evt := { s.evt with raised := (s.occur k n b forced always lo hi).evt.raised } } := by
  unfold State.occur
  dsimp only
  split <;> rfl

theorem State.raise_spec (s : State) (k : PageKind) (n b lo hi : Nat) :
    s.raise k n b lo hi = { s with
      regs := regWr s.regs (pageBase k n + 0xC) (regRd s.regs (pageBase k n + 0xC) ||| w32 (2 ^ b))
      evt := { s.evt with raised := (s.raise k n b lo hi).evt.raised } } := State.occur_spec _ _ _ _ _ _ _ _

/-- A word that is not the page's EVENT reads as before an event is raised. -/
theorem State.raise_regRd (s : State) (k : PageKind) (n b lo hi a : Nat) (h : a ≠ pageBase k n + 0xC) :
    regRd (s.raise k n b lo hi).regs a = regRd s.regs a := by
  rw [State.raise_spec]
  exact regRd_regWr_ne _ _ h

theorem State.raise_fld (s : State) (k : PageKind) (n b lo hi : Nat) (f : Field) (m i : Nat)
    (h : f.addr m i ≠ pageBase k n + 0xC) : (s.raise k n b lo hi).fld f m i = s.fld f m i := by
  simp only [State.fld, Field.rd, State.raise_regRd s k n b lo hi _ h]

/-! ### Memory -/

theorem memWf_eraseSlot (m : SMap Byte) (i : Nat) (h : memWf Config.flashBlank m = true) :
    memWf Config.flashBlank (eraseSlot m i) = true := memWf_filter _ _ _ h

theorem memWf_programSlot (m : SMap Byte) (i : Nat) (body : List Byte) (h : memWf Config.flashBlank m = true) :
    memWf Config.flashBlank (programSlot m i body) = true := memWf_memWrs _ _ _ _ (memWf_eraseSlot m i h)

theorem memWf_spoilSlot (m : SMap Byte) (i : Nat) (body : List Byte) (n : Nat) (h : memWf Config.flashBlank m = true) :
    memWf Config.flashBlank (spoilSlot m i body n) = true := memWf_memWrs _ _ _ _ (memWf_eraseSlot m i h)

/-- A byte outside an erased slot reads as before. -/
theorem memRd_eraseSlot_outside (m : SMap Byte) (i a : Nat) (h : a < slotBase i ∨ slotBase i + 0x40000 ≤ a) :
    memRd Config.flashBlank (eraseSlot m i) a = memRd Config.flashBlank m a := by
  unfold eraseSlot memRd SMap.lookD
  rw [SMap.look_filter m (fun x => decide (x < slotBase i ∨ slotBase i + 0x40000 ≤ x)) a]
  simp [h]

/-- The words of a log entry's reach stand on two pages. -/
theorem not_logWord {a : Nat} (h : a ≠ 0x2100) (h2 : ∀ i, i < 64 → a ≠ 0x71028 + 0x40 * i) : ¬ logWord a := by
  rintro (rfl | ⟨i, hi, rfl⟩)
  · exact h (by decide)
  · exact h2 i hi rfl

end Sys2Proof.Machine
end

