-- ==== Sys2Proof/Laws/Access.lean ====
section
/-!
SUPPORT. A word that a host port writes at its own interface: from the command to the work of the page.
-/
namespace Sys2Proof.Machine

/-- A LOAD that waits is looked at in two phases only (R103). -/
theorem State.settleLoad_eq (s : State) (h : s.sys.loadPending = false ∨ (s.sys.phase ≠ .waitHost ∧ s.sys.phase ≠ .backoff)) :
    s.settleLoad = s := by
  unfold State.settleLoad
  rw [if_neg]
  rintro ⟨a, b⟩
  rcases h with h | h
  · simp [h] at a
  · rcases b with b | b
    · exact h.1 b
    · exact h.2 b

theorem State.booted_phase {s : State} (h : s.booted = true) : s.sys.phase = .booted := by
  simp only [State.booted, Bool.and_eq_true, decide_eq_true_eq] at h
  exact h.1

theorem State.booted_settles {s t : State} (h : s.booted = true) (ht : t.sys = s.sys) : t.settleLoad = t :=
  State.settleLoad_eq t (.inr (by rw [ht, State.booted_phase h]; decide))

theorem State.portOpen_iff (s : State) (p : HostPort) : s.portOpen p = true ↔ s.booted = true ∧ s.bound p = false := by
  simp [State.portOpen]

theorem State.pageOpen_iff (s : State) (p : HostPort) :
    s.pageOpen p = true ↔ s.portOpen p = true ∧ s.standsBy = false := by
  simp [State.pageOpen]

theorem State.tellTwin_sends (s b : State) (x : Writer) (k : PageKind) (n a : Nat) (w : Word)
    (be : BitVec 4) : Sends s (s.tellTwin b x k n a w be) := by
  unfold State.tellTwin
  dsimp only
  repeat' split
  all_goals first | exact Sends.refl s | exact State.sendTwEvents_sends _ _ _

/-- A host port's write of a word reaches the page's own work; the active tells its twin of it. -/
theorem State.poke_sends (s : State) (p : HostPort) (k : PageKind) (n a w : Nat) (ho : s.portOpen p = true)
    (hl : State.lockstepKind k = false ∨ s.standsBy = false) (ha : pageHas k n a = true)
    (hs : (s.wordWrite (.here p) k n a (w32 w)).sys = s.sys) :
    Sends (s.wordWrite (.here p) k n a (w32 w)) (s.poke p a w) := by
  simp only [pageHas, Bool.and_eq_true, Bool.not_eq_true', decide_eq_true_eq] at ha
  obtain ⟨⟨⟨⟨h1, h2⟩, h3⟩, h4⟩, h5⟩ := ha
  obtain ⟨hb, hn⟩ := (State.portOpen_iff s p).mp ho
  have hr : s.sys.inReset = false := by
    simp only [State.booted, Bool.and_eq_true, Bool.not_eq_true'] at hb
    exact hb.2
  have e : (BitVec.ofNat 24 a).toNat / 4 * 4 = a := by
    rw [BitVec.toNat_ofNat, Nat.mod_eq_of_lt h4]; omega
  have hw : s.hostWrite (.here p) (BitVec.ofNat 24 a) (w32 w) 0xF =
      (s.wordWrite (.here p) k n a (w32 w)).tellTwin s (.here p) k n a (w32 w) 0xF := by
    have hst : s.standbyBars (.here p) k = false := by
      rcases hl with h | h <;> simp [State.standbyBars, h]
    have hm : s.mayWrite (.here p) a = true := by simp [State.mayWrite, State.bootOpen, hr, hb, hn]
    unfold State.hostWrite
    dsimp only
    rw [e, hm, h1, hn]
    simp only [Bool.not_true, Bool.false_eq_true, if_false]
    unfold State.pageWrite
    dsimp only
    rw [h3, h2, hst]
    simp
  have hsend := State.tellTwin_sends (s.wordWrite (.here p) k n a (w32 w)) s (.here p) k n a (w32 w) 0xF
  unfold State.poke State.access
  rw [hw, State.booted_settles hb (by rw [hsend.only]; exact hs)]
  exact hsend

/-- The command that writes a word ends, and settles what the page's work has made. -/
theorem State.poke_settles (s : State) (p : HostPort) (k : PageKind) (n a w : Nat) (ho : s.portOpen p = true)
    (hl : State.lockstepKind k = false ∨ s.standsBy = false) (ha : pageHas k n a = true)
    (hs : (s.wordWrite (.here p) k n a (w32 w)).sys = s.sys) :
    Settles (s.wordWrite (.here p) k n a (w32 w)) (s.poke p a w).finish :=
  Settles.of_sends (State.poke_sends s p k n a w ho hl ha hs) (State.finish_spec _)

/-- Where CTRL of a page stands, as an access finds it. -/
def ctrlHas (k : PageKind) (n : Nat) : Bool :=
  pageHas k n (pageBase k n + 4) && !msixOffset k 4 && !rodZeroWord k 4 && !pbaOffset k 4 &&
    decide (pageBase k n + 4 < 0x100000) && !decide (0x18000 ≤ pageBase k n + 4 ∧ pageBase k n + 4 < 0x1C000) &&
    !decide (0xC8000 ≤ pageBase k n + 4 ∧ pageBase k n + 4 < 0xCA000)

/-- No bit of CTRL has a range, but for DEF_BANK of FLT (R380). -/
def ctrlAny (k : PageKind) (n : Nat) : Bool :=
  (fieldsAt (pageBase k n + 4)).all fun f => decide (f.range = .any) || decide (k = .FLT)

theorem ctrlHas_all : (pageKinds.all fun k => (List.range k.count).all fun n => ctrlHas k n) = true := by decide +kernel

theorem ctrlAny_all : (pageKinds.all fun k => (List.range k.count).all fun n => ctrlAny k n) = true := by decide +kernel

theorem mem_pageKinds (k : PageKind) (h : k ≠ .COMMON) : k ∈ pageKinds := by
  cases k <;> simp_all [pageKinds]

/-- Every page has a CTRL. -/
theorem ctrlHas_of {k : PageKind} {n : Nat} (hn : n < k.count) : ctrlHas k n = true := by
  have hk : k ≠ .COMMON := by rintro rfl; simp [PageKind.count] at hn
  exact List.all_eq_true.mp (List.all_eq_true.mp ctrlHas_all k (mem_pageKinds k hk)) n (List.mem_range.mpr hn)

/-- No value of CTRL is out of range, but for DEF_BANK of FLT. -/
theorem ctrl_inside {k : PageKind} {n : Nat} (hn : n < k.count) (hk : k ≠ .FLT) (w : Word) :
    ((fieldsAt (pageBase k n + 4)).any fun f => f.outside w) = false := by
  have hc : k ≠ .COMMON := by rintro rfl; simp [PageKind.count] at hn
  have h := List.all_eq_true.mp (List.all_eq_true.mp ctrlAny_all k (mem_pageKinds k hc)) n (List.mem_range.mpr hn)
  rw [List.any_eq_false]
  intro f hf
  have := List.all_eq_true.mp h f hf
  simp only [hk, decide_false, Bool.or_false, decide_eq_true_eq] at this
  simp [Field.outside, this, FieldRange.holds]

/-- A word written to CTRL does what `ctrlWrite` says. -/
theorem State.wordWrite_ctrl (s : State) (x : Writer) {k : PageKind} {n : Nat} (hn : n < k.count) (w : Word)
    (hw : ((fieldsAt (pageBase k n + 4)).any fun f => f.outside w) = false) :
    s.wordWrite x k n (pageBase k n + 4) w = s.ctrlWrite k n w := by
  have h := ctrlHas_of hn
  simp only [ctrlHas, Bool.and_eq_true, Bool.not_eq_true', decide_eq_true_eq, decide_eq_false_iff_not] at h
  obtain ⟨⟨⟨⟨⟨⟨h1, h2⟩, h3⟩, h4⟩, h5⟩, h6⟩, h7⟩ := h
  have hwo : wordOutside k 4 w = false := by cases k <;> simp [wordOutside]
  unfold State.wordWrite
  dsimp only
  rw [Nat.add_sub_cancel_left, h2, h3, h4, hw, hwo, if_neg (by omega), if_neg h6, if_neg h7]
  simp [State.specialWrite]

/-- A word of CTRL with neither COMMIT nor DISCARD is the block's own. -/
theorem State.ctrlWrite_block (s : State) (k : PageKind) (n : Nat) (w : Word) (h : w.toNat % 4 = 0) :
    s.ctrlWrite k n w = s.blockCtrl k n w := by
  have h0 : bit w.toNat 0 = false := by simp [bit, Nat.testBit]; omega
  have h1 : bit w.toNat 1 = false := by
    simp [bit, Nat.testBit, Nat.shiftRight_eq_div_pow]; omega
  simp [State.ctrlWrite, h0, h1]

/-- A command that writes only its block's own bits of CTRL of a page ends, and settles what the block makes of it. -/
theorem State.poke_ctrl (s : State) (p : HostPort) {k : PageKind} {n : Nat} (hn : n < k.count) (a w : Nat)
    (ha : a = pageBase k n + 4) (ho : s.portOpen p = true)
    (hl : State.lockstepKind k = false ∨ s.standsBy = false) (h4 : w % 4 = 0)
    (hw : k = .FLT → ((fieldsAt (pageBase k n + 4)).any fun f => f.outside (w32 w)) = false)
    (hs : (s.blockCtrl k n (w32 w)).sys = s.sys) :
    Settles (s.blockCtrl k n (w32 w)) (s.poke p a w).finish := by
  subst ha
  have hw' : ((fieldsAt (pageBase k n + 4)).any fun f => f.outside (w32 w)) = false := by
    by_cases h : k = .FLT
    · exact hw h
    · exact ctrl_inside hn h _
  have e : s.wordWrite (.here p) k n (pageBase k n + 4) (w32 w) = s.blockCtrl k n (w32 w) := by
    rw [State.wordWrite_ctrl s _ hn _ hw', State.ctrlWrite_block]
    simp only [w32, BitVec.toNat_ofNat]
    omega
  have hh : pageHas k n (pageBase k n + 4) = true := by
    have h := ctrlHas_of hn
    simp only [ctrlHas, Bool.and_eq_true] at h
    exact h.1.1.1.1.1.1
  have := State.poke_settles s p k n (pageBase k n + 4) w ho hl hh (by rw [e]; exact hs)
  rwa [e] at this

end Sys2Proof.Machine
end

