-- ==== Sys2Proof/WellFormed.lean ====
section
/-!
DEFINITION. When the lists that a command brings have the lengths and the range that the spec gives them. An index in an
operand of its own is a `Fin`, so that only lists are left to check.
-/
namespace Sys2Proof

/-- A base-rate instant names each converter, channel and bank at most once, brings 96 decisions for a converter (R225,
R226), and names converters below 272 (R224), channels below 256 and banks below 16. -/
def BaseEnv.wf (e : BaseEnv) : Bool :=
  e.dec.all (fun x => decide (x.1 < 272 ∧ x.2.length = 96)) && e.cm.all (fun x => decide (x.1 < 256)) &&
    e.exc.all (fun x => decide (x.1 < 16)) && e.pins.all (fun x => decide (x.1 < 256 ∧ x.2.length ≤ 96)) &&
    decide ((e.dec.map (·.1)).Nodup ∧ (e.cm.map (·.1)).Nodup ∧ (e.exc.map (·.1)).Nodup ∧ (e.pins.map (·.1)).Nodup)

/-- The wire-break detectors of a bank are told of positions below 16, each at most once, and of no more decisions than an
instant brings (R193, R196). -/
def pinsWf (pins : List (Nat × List PinDec)) : Bool :=
  pins.all (fun x => decide (x.1 < 16 ∧ x.2.length ≤ 96)) && decide (pins.map (·.1)).Nodup

/-- A BLOCK fragment lies within its block, and carries at least one byte (R555, R560). -/
def BlockMsg.wf (m : BlockMsg) : Bool := decide (m.bytes ≠ [] ∧ m.offset.toNat + m.bytes.length ≤ m.total.toNat)

/-- TW_SAMPLE names channels below 256 and banks below 16, each at most once, and its values fit 32 bits (R590). -/
def TwSampleMsg.wf (m : TwSampleMsg) : Bool :=
  m.vals.all (fun x => decide (x.1 < 256 ∧ -0x80000000 ≤ x.2.1 ∧ x.2.1 ≤ 0x7FFFFFFF)) &&
    m.exc.all (fun x => decide (x.1 < 16 ∧ x.2.1 < 0x10000)) &&
    decide ((m.vals.map (·.1)).Nodup ∧ (m.exc.map (·.1)).Nodup)

/-- The command is well formed. -/
def Instr.wf : Instr → Bool
  | .serialWrite _ _ ws => decide (ws ≠ [])
  | .apertureRead _ _ n errs => decide (0 < n) && errs.all (fun e => decide (e.2 ≠ 0))
  | .apertureWrite _ _ bs errs => decide (bs ≠ []) && errs.all (fun e => decide (e.2 ≠ 0))
  | .baseRateInstant e => e.wf
  | .presenceMeasurement _ uv => decide (uv.length = 16)
  | .breakDeclared _ pins => pinsWf pins
  | .wholeDeclared _ pins => pinsWf pins
  | .tedsScanDone _ ids crcs => decide (ids.length = crcs.length)
  | .tedsReadDone _ ws _ => decide (ws.length = 8)
  | .bankTemperatureRead ts => decide (ts.length = 16)
  | .block _ _ m => m.wf
  | .scrubRead errs => errs.all (fun e => decide (e.2 ≠ 0))
  | .regReq _ _ m => decide (m.data.length = if m.write then m.count.val + 1 else 0)
  | .twSample m => m.wf
  | .twCopy _ _ bs => decide (bs.length ≤ 1280)
  | .latch bs => bs.all (fun b => decide (b.echo.length = 16) && decide ((bs.filter (fun c => decide (c.board = b.board))).length = 1))
  | .powerOnReset .. | .vddioModeChoice .. | .pinReset .. | .refclkLoss .. | .thermalReset .. | .thermWarn ..
  | .softwareReset .. | .watchdogReset .. | .resetRelease .. | .dramTraining .. | .imageTry .. | .backoffWaitEnd
  | .claim .. | .claimRelease .. | .load .. | .sysAddrWrite .. | .announceTimer | .grant .. | .registerWrite ..
  | .pageCommit .. | .globalCommit .. | .commitChecksEnd | .discard .. | .eventForce .. | .eventClear ..
  | .eventNoticeRepeat .. | .semClaim .. | .semRelease .. | .semTagWrite .. | .semForce .. | .netbind ..
  | .portReset .. | .pcieLinkTrained .. | .serialRead .. | .serialBadCommand .. | .serialCsRise ..
  | .flashRead .. | .flashProgram .. | .flashErase4k .. | .flashErase64k .. | .flashOperationDone ..
  | .flashTimeout .. | .presenceLoss .. | .presenceRegain ..
  | .excLimitStart .. | .excFaultLimit .. | .excFaultSat .. | .excClrFault .. | .excRampEnd .. | .excBbmEnd ..
  | .tedsScan .. | .tedsScanPeriod .. | .tedsShort .. | .tedsRead .. | .calibrationPoint ..
  | .roundBlendStart .. | .roundBlendEnd .. | .unpark .. | .store .. | .journalPeriodExpiry
  | .journalStoreEnd .. | .journalSemWait | .ptWrite .. | .ptRead .. | .snap .. | .ptpSync .. | .ptpFollowUp ..
  | .ptpDelayReq .. | .ptpDelayResp .. | .ptpAnnounce .. | .syncIntervalTimer .. | .timeEvaluation ..
  | .acceptN .. | .acceptS .. | .acceptM .. | .inputEdge .. | .inputStuck .. | .mainsCrossing .. | .rodUpdate ..
  | .rodBroadcastTimer | .rodFreshnessChange .. | .rodLoad .. | .beadEnable .. | .beadDisable ..
  | .beadWordWrite .. | .syncNow .. | .syncEdge .. | .xfCancel .. | .loadDefault .. | .coefRamWrite ..
  | .bankShapeWrite .. | .fadeEnd .. | .windowRecord .. | .rfSnap .. | .rfClear .. | .pmSnap .. | .pmClear ..
  | .ringResume .. | .arm .. | .disarm .. | .trig .. | .release .. | .start .. | .stop .. | .rewind ..
  | .markHere .. | .markWrite .. | .rdDataRead .. | .trigger .. | .go .. | .cancel .. | .flush .. | .jobStart ..
  | .jobEnd .. | .heldJobRetry .. | .blockClose .. | .blockAgeExpiry .. | .closeAll .. | .outageOver ..
  | .blockSend .. | .ack .. | .ackTimeout .. | .hostAck .. | .hostReplay .. | .queuePush .. | .qpop ..
  | .queuePopStall .. | .scrubNow .. | .mr4Poll .. | .dqsTracking | .linkDown .. | .probeLoss ..
  | .ringTurnStart .. | .linkUp .. | .restoreExpiry .. | .announce .. | .heartbeat .. | .hbReply ..
  | .heartbeatTimer | .probeTimer | .probe .. | .probeReply .. | .beaconTimer | .beacon .. | .ringState ..
  | .memberDeparted .. | .managerDeparted | .raGo .. | .raTimeout | .regResp .. | .eventNotice .. | .jtWrite ..
  | .jtRead .. | .clr .. | .twEvent .. | .twCheck .. | .twVerdict .. | .twRole .. | .verdictMissing
  | .xchkWindowEnd .. | .selfcheckDone .. | .selfcheckResultTimeout | .twhbToggle | .twhbSilent ..
  | .driveMonChange .. | .yield .. | .rejoinTwin .. | .selfcheck .. | .mgrCmdGrant .. | .mgrCmdConfirm ..
  | .mgrCmdYield .. | .becomeActiveAtStart | .netyieldExpiry | .handoverInstant | .handoverBlendEnd
  | .twSampleLoss .. | .uncomparedBlockRelease .. | .resyncPhaseEnd .. | .loopPeriodStart .. | .loopDeadline ..
  | .auto .. | .manual .. | .ctlClrFault .. | .spWrite .. | .manOutWrite .. | .refreshStart | .flip ..
  | .mksyncEdge .. | .diagNow .. | .diagPeriodExpiry | .diagDeferred | .markerFadeEnd | .frameMemoryWrite ..
  | .boostCycle .. | .boostTrip .. | .mrkClrFault .. | .testenChange .. | .testLogicReset | .idcode
  | .samplePreload .. | .extest .. | .clamp | .highz | .bypass .. | .bistQueueSram .. | .bistCoefficientRam ..
  | .bistBeadTable .. | .bistFrameMemory .. | .bistConverterReferences .. | .bistEnd .. | .resetSourceEnd ..
  | .perstRelease .. | .hopCountExpiry .. | .twRoleTimer | .ptpAnnounceTimer .. | .unadmittedFrame .. => true

end Sys2Proof
end

