-- ==== Sys2Proof/Tests/Slice0.lean ====
section
/-!
SUPPORT. Tests. The first part takes its expected values from the worked examples of the spec and from single rules; the second
shows that the checks of WellFormed.lean refuse an ill-formed command each; the third gives, for every obligation, states and
operands that meet the hypotheses of each of its clauses.
-/
namespace Sys2Proof.Machine

-- Each proof is short: elaborating them one after the other keeps the number of threads, and with it the memory, small.
set_option Elab.async false

/-! ### Worked examples of the spec -/

/-- The frame of R461's worked example (12, Table 5): 4 slots of 2 channels, tag bytes 0x80. -/
def exampleFrame : List Word :=
  [100, 90, 104, 95, 109, 99, 113, 104].map fun v => w32 (v * 256 + 0x80)

/-- Its segment, byte for byte as the spec prints it. -/
def exampleSegment : List Byte :=
  [0x01, 0x01, 0x02, 0x00, 0x01, 0x00, 0x02, 0x00, 0x20, 0x00, 0x00, 0x00, 0x2C, 0x00, 0x00, 0x00] ++
  [0x00, 0x01, 0x00, 0x00, 0x0C, 0x00, 0x00, 0x02, 0x20, 0x00, 0x00, 0x00, 0x80, 0x00, 0x00, 0x00] ++
  [0x02, 0x06, 0x12, 0x03, 0xE2, 0x33, 0x04, 0x08, 0x08, 0x60, 0x28, 0x00]

/-- Coding the example frame gives the printed segment (R452 to R461). -/
theorem test_codeSegment_example :
    (codeSegment ⟨1, true, true, 4, 64, 256, [0, 1]⟩ 2 false (fun _ => false) false exampleFrame).1 = exampleSegment := by
  decide +kernel

/-- Decoding the printed segment gives the frame back (R464). -/
theorem test_readSegment_example : readSegment exampleSegment 0x100000 = .ok exampleFrame := by decide +kernel

/-- R237: the set between the points at 19.0 °C and at 24.5 °C, at 22.0 °C (06, the example of channel 37). -/
theorem test_between_example :
    setAt 176 [⟨101888, 1072805000, -22600, 152⟩, ⟨105536, 1072797782, -22457, 196⟩] =
      ⟨103878, 1072801063, -22522, 176⟩ := by decide +kernel

/-- R229: the raw reading 516,255.37 LSB corrects to the value 515,396 with that set. -/
theorem test_correct_example :
    rdiv (correct ⟨103878, 1072801063, -22522, 176⟩ (rdiv (51625537 * 256) 100)) 256 = 515396 := by decide +kernel

/-- R232: the point that the example's readings of P, N, Z and E fit, with M = 100 readings each. -/
theorem test_fitPoints_example :
    (fitPoints ⟨100 * 105536, 25600 * 629772847 / 100, -(25600 * 629650815 / 100), 25600 * 429925128 / 100⟩ 100
      (some (10000, 128)) 196).set.offset = 105536 := by decide +kernel

/-- R397: the cycles of the rainflow example (10, Table 1) and the residue that it leaves. -/
theorem test_rfCount_example :
    rfCount 9 [47, 38, 44, 36, 47, 32] [] = ([47, 32], [(6, 41), (11, 41)]) := by decide +kernel

/-- R254: the example's point stands at 0x0084_77F8 in slot 1 of the journal. -/
theorem test_slotBase_example : slotBase 1 + 64 + 12 * (64 * 39 + 8 * 7 + 2) = 0x8477F8 := by decide +kernel

/-- R657: forty boards take 19 PWM periods (18, the example of the marker drive). -/
theorem test_refreshPeriods_example : refreshPeriods 40 = 19 := by decide +kernel

/-- R278: the asymmetry of the example's link is 2.34 ns (07). -/
theorem test_asym_example :
    (let s := State.reset.setFld Reg.TIM_LINK_DELAY_D 0 0 0x264180
     (s.setFld Reg.TIM_LINK_ASYM_ALPHA 0 0 0x3A3A4).asym .N * 100 / 65536) = 233 := by decide +kernel

/-- R353: word 1 of HB_COEF reads 0x1361_4000 and word 0 reads 0x2000_0000 (09). -/
theorem test_hbCoef_example :
    State.reset.viewRead .FLT 0 0x184 = some 0x13614000 ∧ State.reset.viewRead .FLT 0 0x180 = some 0x20000000 := by
  decide +kernel

/-- The stream of R502's worked example (13): 16 channels at 1 kS/s, 250 slots a block, 1,800 s of outage. -/
def exampleStream : SMap Word :=
  let s := (State.reset.setFld Reg.FLT_CHAIN_D 2 0 256).setFld Reg.CRY_S_CFG_SRC 0 5 1
  let s := (s.setFld Reg.CRY_S_SEL_CHAN 0 5 0xFFFF).setFld Reg.CRY_S_SEL_GROUP 0 5 2
  ((s.setFld Reg.CRY_S_BLOCK_SIZE 0 5 250).setFld Reg.CRY_S_OUTAGE_MS 0 5 1800000).regs

/-- R502: its reserve is 115,692,928 bytes. -/
theorem test_reserve_example : reserveBytes exampleStream 5 = 115692928 := by decide +kernel

/-- The loop of the damper example (17): its law in the two periods of Table 3. -/
def exampleLoop : State :=
  let s := (State.reset.setFld Reg.CTL_KP 0 0 0xFFFE0000).setFld Reg.CTL_KI 0 0 0xFFFFE000
  let s := (s.setFld Reg.CTL_KD 0 0 0x40000).setFld Reg.CTL_CFG_DF 0 0 2
  let s := (s.setFld Reg.CTL_LIMITS_OUT_MIN 0 0 0).setFld Reg.CTL_LIMITS_OUT_MAX 0 0 60000
  s.setDac 0 20000 false

/-- R635: the preset of period j holds the code 20,000, with the integrator at 18,800. -/
theorem test_loop_preset_example :
    let r := exampleLoop.lawStep 0 default 153600 0 true
    r.2.1 = 20000 ∧ r.1.i = 18800 * 65536 := by decide +kernel

/-- R631: period j + 1 computes 20,030. -/
theorem test_loop_law_example :
    (exampleLoop.lawStep 0 (exampleLoop.lawStep 0 default 153600 0 true).1 143360 0 false).2.1 = 20030 := by
  decide +kernel

/-! ### Ill-formed commands -/

/-- A serial write of no word. -/
theorem test_illFormed_serialWrite : Instr.wf (.serialWrite .A 0 []) = false := by decide

/-- An aperture read of no byte, and one with an empty error. -/
theorem test_illFormed_apertureRead :
    Instr.wf (.apertureRead .A 0 0 []) = false ∧ Instr.wf (.apertureRead .A 0 4 [(0, 0)]) = false := by decide

/-- An aperture write of no byte. -/
theorem test_illFormed_apertureWrite :
    Instr.wf (.apertureWrite .A 0 [] []) = false ∧ Instr.wf (.apertureWrite .A 0 [1] [(0, 0)]) = false := by decide

/-- A base-rate instant that brings 95 decisions, or names a converter twice or one that does not exist. -/
theorem test_illFormed_baseRateInstant :
    BaseEnv.wf { (default : BaseEnv) with dec := [(0, List.replicate 95 default)] } = false ∧
    BaseEnv.wf { (default : BaseEnv) with dec := [(0, List.replicate 96 default), (0, List.replicate 96 default)] } = false ∧
    BaseEnv.wf { (default : BaseEnv) with dec := [(272, List.replicate 96 default)] } = false := by decide +kernel

/-- Presence measurements of 15 channels. -/
theorem test_illFormed_presence : Instr.wf (.presenceMeasurement 0 (List.replicate 15 0)) = false := by decide

/-- A TEDS image of seven words. -/
theorem test_illFormed_teds (c : Word) : Instr.wf (.tedsReadDone 0 (List.replicate 7 0) c) = false := rfl

/-- Two identities with one CRC byte, and detectors told of position 16 or of 97 decisions. -/
theorem test_illFormed_scanAndBreaks :
    Instr.wf (.tedsScanDone 0 [1, 2] [3]) = false ∧ Instr.wf (.breakDeclared 0 [(16, [default])]) = false ∧
    Instr.wf (.wholeDeclared 0 [(3, List.replicate 97 default)]) = false ∧
    BaseEnv.wf { (default : BaseEnv) with pins := [(3, []), (3, [])] } = false := by decide +kernel

/-- Temperatures of 17 banks. -/
theorem test_illFormed_temperatures : Instr.wf (.bankTemperatureRead (List.replicate 17 0)) = false := by decide

/-- A block fragment that reaches past its block, and an empty one. -/
theorem test_illFormed_block :
    BlockMsg.wf { (default : BlockMsg) with offset := 1, total := 2, bytes := [1, 2] } = false ∧
    BlockMsg.wf { (default : BlockMsg) with total := 2, bytes := [] } = false := by decide

/-- A scrub that finds an error of no bit. -/
theorem test_illFormed_scrub : Instr.wf (.scrubRead [(0, 0)]) = false := by decide

/-- A register request that writes two words and brings one. -/
theorem test_illFormed_regReq :
    Instr.wf (.regReq .N default ⟨0, false, true, 1, 0, [0]⟩) = false := by decide

/-- Samples of channel 256, and a channel named twice. -/
theorem test_illFormed_twSample :
    TwSampleMsg.wf { (default : TwSampleMsg) with vals := [(256, 0, 0)] } = false ∧
    TwSampleMsg.wf { (default : TwSampleMsg) with vals := [(3, 0, 0), (3, 1, 0)] } = false := by decide

/-- Copy data of 1,281 bytes. -/
theorem test_illFormed_twCopy : Instr.wf (.twCopy 1 0 (List.replicate 1281 0)) = false := by decide +kernel

/-- A latch that returns the same board twice. -/
theorem test_illFormed_latch :
    Instr.wf (.latch [⟨3, 0xA0000000, List.replicate 16 0⟩, ⟨3, 0xA0000000, List.replicate 16 0⟩]) = false := by decide

/-! ### The hypotheses of the obligations -/

/-- A hub that has booted, 20 s after its counter began to run, with a source MAC of its own. -/
def up : State :=
  let s : State := { State.reset with regs := [(0x90208, 5), (0x9020C, 6)] }
  let s : State := { s with sys := { s.sys with inReset := false, phase := .booted } }
  { s with tim := { s.tim with counter := BitVec.ofNat 80 (20000000000 * 65536), running := true } }

/-- The same hub in a Sorrel pair. -/
def wPair (s : State) : State := { s with sys := { s.sys with straps := { s.sys.straps with pair := true } } }

/-- The same hub with the link of a port up. -/
def wLinked (s : State) (p : NetPort) : State :=
  (s.setFlag Reg.NET_STATUS_EN p.ix 0 true).setFlag Reg.NET_STATUS_LINK p.ix 0 true

/-- The same hub with a port usable. -/
def wUsable (s : State) (p : NetPort) : State := (wLinked s p).setFlag Reg.NET_STATUS_USABLE p.ix 0 true

/-- The header of a broadcast of another hub. -/
def bh : Hdr :=
  { smac := 0x123456789ABC, dstv := false, dst := 0, srcv := false, src := 0, bcast := true, turned := false, hops := 1, seq := 7 }

/-- A segment of one raw frame of six words. -/
def segBytes : List Byte :=
  (codeSegment ⟨2, true, false, 256, 64, 256, []⟩ 1 true (fun _ => false) false [1, 2, 2, 2, 2, 9]).1

/-- A queue with a command in front meets the hypothesis of `Obligations.StepRunsTheFrontCommand`. -/
theorem test_StepRunsTheFrontCommand_meets :
    ∃ (c : Instr) (rest : List Instr) (s : State), s.pending = c :: rest :=
  ⟨.refreshStart, [.idcode], { up with pending := [.refreshStart, .idcode] }, rfl⟩

/-- A state that meets the hypotheses of `Obligations.EveryStepDelivers`. -/
theorem test_EveryStepDelivers_meets : ∃ s t : State, s.Delivered ∧ step s = .next t :=
  ⟨State.reset, State.reset.tick, ⟨by decide, by decide, rfl, rfl⟩, rfl⟩

/-- Every reset source, at the boundary from which it resets, for `Obligations.ResetCauses` and
`Obligations.WholeHubReset`. -/
theorem test_resetBit_meets :
    resetBit (.powerOnReset .firstPower) up = some 0 ∧ resetBit (.powerOnReset (.railLow .DVDD 679)) up = some 0 ∧
    resetBit (.pinReset 1000) up = some 1 ∧ resetBit (.refclkLoss 400) up = some 2 ∧
    resetBit (.thermalReset 960) up = some 3 ∧ resetBit (.softwareReset .B 0x0D6E0001) up = some 4 ∧
    resetBit (.watchdogReset 100) up = some 5 := by decide +kernel

/-- And below that boundary it does not. -/
theorem test_resetBit_below :
    resetBit (.powerOnReset (.railLow .DVDD 680)) up = none ∧ resetBit (.pinReset 999) up = none ∧
    resetBit (.refclkLoss 399) up = none ∧ resetBit (.thermalReset 959) up = none ∧
    resetBit (.softwareReset .B 0x0D6E0000) up = none ∧ resetBit (.watchdogReset 99) up = none := by decide +kernel

/-- A command and a state that meet the hypotheses of `Obligations.PageCommandsKeepTheRest`. -/
theorem test_PageCommandsKeepTheRest_meets :
    ∃ (i : Instr) (p : HostPort) (k : PageKind) (n : Nat) (s t : State), pageCommand i = some (p, k, n) ∧
      s.pageOpen p = true ∧ exec i s = .next t :=
  ⟨.start .A 15, .A, .CAP, 15, up, _, rfl, by decide +kernel, rfl⟩

/-- A message and a state that meet the hypotheses of `Obligations.PtpKeepsTheRest`. -/
theorem test_PtpKeepsTheRest_meets : ∃ (i : Instr) (s t : State), isPtp i = true ∧ exec i s = .next t :=
  ⟨.ptpAnnounceTimer .N, wUsable up .N, _, rfl, rfl⟩


/-- A command and a state that meet the hypothesis of `Obligations.WhatNoCommandChanges`, none of its exceptions among them. -/
theorem test_WhatNoCommandChanges_meets :
    ∃ (i : Instr) (s t : State), exec i s = .next t ∧ writesFlash i = false ∧ movesPins i = false ∧ mayReset i = false :=
  ⟨.ptpAnnounceTimer .N, wUsable up .N, _, rfl, rfl, rfl, rfl⟩
/-- States and operands that meet the hypotheses of `Obligations.IdleStepMovesTheCounter`, clause by clause. -/
theorem test_IdleStepMovesTheCounter_meets :
    ∃ (s : State), s.pending = [] := by
  exact ⟨up, by decide +kernel⟩

/-- States and operands that meet the hypotheses of `Obligations.SupplyAndTemperature`, clause by clause. -/
theorem test_SupplyAndTemperature_meets :
    (∃ (bank : Fin 4) (mv : Nat) (s : State), s.sys.vddio.look bank.val = none ∧
      s.sys.sources.contains (.rail (.VDDIO bank)) = false ∧ mv ≤ 2500) ∧
    (∃ (bank : Fin 4) (mv : Nat) (s : State), s.sys.vddio.look bank.val = none ∧
      s.sys.sources.contains (.rail (.VDDIO bank)) = false ∧ 2500 < mv) ∧
    (∃ (t8 : Int) (s : State), s.sys.inReset = false ∧ 840 ≤ t8 ∧ s.sys.warned = false) ∧
    (∃ (t8 : Int) (s : State), 840 ≤ t8 ∧ s.sys.warned = true) ∧
    (∃ (t8 : Int), t8 < 800) ∧
    (∃ (src : ResetSource), (∀ t8, src ≠ .thermal t8)) ∧
    (∃ (t8 : Int), t8 ≤ 800) := by
  refine ⟨?_, ?_, ?_, ?_, ?_, ?_, ?_⟩
  · let s : State := State.reset
    let s : State := { s with sys := { s.sys with sources := [] } }
    exact ⟨3, 2500, s, by decide +kernel +zetaReduce⟩
  · let s : State := State.reset
    let s : State := { s with sys := { s.sys with sources := [] } }
    exact ⟨3, 2501, s, by decide +kernel +zetaReduce⟩
  · let s : State := up
    let s : State := { s with sys := { s.sys with inReset := false } }
    let s : State := { s with sys := { s.sys with warned := false } }
    exact ⟨840, s, by decide +kernel +zetaReduce⟩
  · let s : State := up
    let s : State := { s with sys := { s.sys with warned := true } }
    exact ⟨840, s, by decide +kernel +zetaReduce⟩
  · exact ⟨1, by decide +kernel⟩
  · exact ⟨.pin, fun _ h => by cases h⟩
  · exact ⟨1, by decide +kernel⟩

/-- States and operands that meet the hypotheses of `Obligations.BootSequence`, clause by clause. -/
theorem test_BootSequence_meets :
    (∃ (s : State), s.sys.inReset = true ∧ s.sys.sources = [] ∧ s.sys.vddio.length = 4) ∧
    (∃ (rate density : Fin 4) (s : State), s.sys.inReset = false ∧ s.sys.phase = .training ∧ rate.val ≠ 0 ∧
      density.val ≠ 0 ∧ s.sys.loadPending = false) ∧
    (∃ (s : State), s.sys.inReset = false ∧ s.sys.phase = .training ∧ (s.sys.straps.boot = 1 ∨
      s.sys.straps.boot = 2) ∧ s.sys.loadPending = false) ∧
    (∃ (s : State), s.sys.inReset = false ∧ s.sys.phase = .training ∧ (s.sys.straps.boot = 0 ∨
      s.sys.straps.boot = 3) ∧ s.sys.loadPending = false) ∧
    (∃ (s : State), s.sys.phase = .backoff) ∧
    (∃ (jedec : BitVec 24) (readOk : Bool) (s : State), s.sys.inReset = false ∧ s.sys.phase = .tryA ∧
      s.tryCode .imageA jedec.toNat readOk ≠ 0) ∧
    (∃ (jedec : BitVec 24) (readOk : Bool) (s : State), s.sys.inReset = false ∧ s.sys.phase = .tryB ∧
      s.sys.loadPending = false ∧ s.tryCode .imageB jedec.toNat readOk ≠ 0) ∧
    (∃ (img : ImageSel) (jedec : BitVec 24) (readOk : Bool) (s : State), s.sys.inReset = false ∧
      s.sys.phase = (match img with | .imageA => .tryA | .imageB => .tryB) ∧ s.tryCode img jedec.toNat readOk = 0 ∧
      imageConfigured (fun i => s.flashByte (imageBase img + i)) = false) := by
  refine ⟨?_, ?_, ?_, ?_, ?_, ?_, ?_, ?_⟩
  · let s : State := State.reset
    let s : State := { s with sys := { s.sys with vddio := [(0,true),(1,true),(2,false),(3,false)] } }
    let s : State := { s with sys := { s.sys with sources := [] } }
    exact ⟨s, by decide +kernel +zetaReduce⟩
  · let s : State := up
    let s : State := { s with sys := { s.sys with inReset := false } }
    let s : State := { s with sys := { s.sys with phase := .training } }
    let s : State := { s with sys := { s.sys with loadPending := false } }
    exact ⟨1, 1, s, by decide +kernel +zetaReduce⟩
  · let s : State := up
    let s : State := { s with sys := { s.sys with inReset := false } }
    let s : State := { s with sys := { s.sys with phase := .training } }
    let s : State := { s with sys := { s.sys with straps := { s.sys.straps with boot := 1 } } }
    let s : State := { s with sys := { s.sys with loadPending := false } }
    exact ⟨s, by decide +kernel +zetaReduce⟩
  · let s : State := up
    let s : State := { s with sys := { s.sys with inReset := false } }
    let s : State := { s with sys := { s.sys with phase := .training } }
    let s : State := { s with sys := { s.sys with straps := { s.sys.straps with boot := 0 } } }
    let s : State := { s with sys := { s.sys with loadPending := false } }
    exact ⟨s, by decide +kernel +zetaReduce⟩
  · let s : State := up
    let s : State := { s with sys := { s.sys with phase := .backoff, delay := 4 } }
    exact ⟨s, by decide +kernel +zetaReduce⟩
  · let s : State := up
    let s : State := { s with sys := { s.sys with inReset := false } }
    let s : State := { s with sys := { s.sys with phase := .tryA } }
    exact ⟨1, true, s, by decide +kernel +zetaReduce⟩
  · let s : State := up
    let s : State := { s with sys := { s.sys with inReset := false } }
    let s : State := { s with sys := { s.sys with phase := .tryB } }
    let s : State := { s with sys := { s.sys with loadPending := false } }
    exact ⟨1, true, s, by decide +kernel +zetaReduce⟩
  · let s : State := up
    let s : State := { s with sys := { s.sys with phase := .tryB } }
    let s : State :=
      { s with flash := memWrs Config.flashBlank s.flash 0x400000 (wordsBytes [0x4B444D49, 0x1, 0x40, 0xFFFFFFFF, 0x6256, 0xFFFFFFFF, 0xFFFFFFFF, 0xFFFFFFFF, 0xFFFFFFFF, 0xFFFFFFFF, 0xFFFFFFFF, 0xFFFFFFFF, 0xFFFFFFFF, 0xFFFFFFFF, 0x2FCD4E66, 0xA8FC0FF7]) }
    exact ⟨.imageB, 0xEF4019, true, s, by decide +kernel +zetaReduce⟩

/-- States and operands that meet the hypotheses of `Obligations.BootClaim`, clause by clause. -/
theorem test_BootClaim_meets :
    (∃ (p : HostPort) (s : State), s.sys.inReset = false ∧ s.bound p = false ∧ s.sys.phase ≠ .booted ∧
      s.sys.loadPending = false ∧ s.mayClaim p.code = true ∧ s.fld Reg.SYS_BOOT_STATUS_OWNER = 0) ∧
    (∃ (p : HostPort) (s : State), s.sys.inReset = false ∧ s.bound p = false ∧ s.sys.phase ≠ .booted ∧
      s.mayClaim p.code = true ∧ s.fld Reg.SYS_BOOT_STATUS_OWNER = p.code) ∧
    (∃ (p : HostPort) (s : State), s.sys.inReset = false ∧ s.bound p = false ∧ (s.sys.phase = .tryA ∨
      s.sys.phase = .tryB) ∧ s.mayClaim p.code = true ∧ s.fld Reg.SYS_BOOT_STATUS_OWNER = p.code) := by
  refine ⟨?_, ?_, ?_⟩
  · let s : State := up
    let s : State := { s with sys := { s.sys with phase := .waitHost } }
    let s : State := { s with sys := { s.sys with straps := { s.sys.straps with boot := 1 } } }
    exact ⟨.A, s, by decide +kernel +zetaReduce⟩
  · let s : State := up
    let s : State := { s with sys := { s.sys with phase := .waitHost } }
    let s : State := { s with sys := { s.sys with straps := { s.sys.straps with boot := 1 } } }
    let s : State := s.setFld Reg.SYS_BOOT_STATUS_OWNER 0 0 1
    exact ⟨.A, s, by decide +kernel +zetaReduce⟩
  · let s : State := up
    let s : State := { s with sys := { s.sys with phase := .tryA } }
    let s : State := { s with sys := { s.sys with straps := { s.sys.straps with boot := 3 } } }
    let s : State := s.setFld Reg.SYS_BOOT_STATUS_OWNER 0 0 1
    exact ⟨.A, s, by decide +kernel +zetaReduce⟩

/-- States and operands that meet the hypotheses of `Obligations.RegisterWrite`, clause by clause. -/
theorem test_RegisterWrite_meets :
    (∃ (p : HostPort) (a : BitVec 24) (w : Word) (k : PageKind) (n : Nat) (s : State), s.pageOpen p = true ∧
      pageHas k n a.toNat = true ∧ s.plainAt p k n a.toNat w = true ∧ (k = .DBG → ¬ (0xF0100 ≤ a.toNat ∧
      a.toNat < 0xF0110)) ∧ rwsMask a.toNat = 0) ∧
    (∃ (p : HostPort) (a : BitVec 24) (w : Word) (k : PageKind) (n : Nat) (s : State), s.pageOpen p = true ∧
      pageHas k n a.toNat = true ∧ s.plainAt p k n a.toNat w = true ∧ k ≠ .DBG ∧ rwsMask a.toNat ≠ 0 ∧
      s.pageLocked (pageBase k n) = false) ∧
    (∃ (p : HostPort) (a : BitVec 24) (be : BitVec 4) (k : PageKind) (n : Nat) (s : State), s.portOpen p = true ∧
      a.toNat % 4 = 0 ∧ pageOf a.toNat = some (k, n) ∧ be ≠ 0xF) ∧
    (∃ (p : HostPort) (a : BitVec 24) (s : State), s.portOpen p = true ∧ a.toNat % 4 = 0 ∧
      pageOf a.toNat = none) := by
  refine ⟨?_, ?_, ?_, ?_⟩
  · exact ⟨.A, 0x2104, 0x3FF, .EVT, 0, up, by decide +kernel⟩
  · exact ⟨.A, 0x42108, 0xFFFF, .FLT, 2, up, by decide +kernel⟩
  · exact ⟨.A, 0x42108, 7, .FLT, 2, up, by decide +kernel⟩
  · exact ⟨.A, 0x0FF000, up, by decide +kernel⟩

/-- States and operands that meet the hypotheses of `Obligations.CommitRequests`, clause by clause. -/
theorem test_CommitRequests_meets :
    (∃ (p : HostPort) (page : BitVec 12) (k : PageKind) (n : Nat) (s : State), s.pageOpen p = true ∧
      page.toNat * 0x1000 = pageBase k n ∧ n < k.count ∧ k ≠ .SYS ∧ k ≠ .HP ∧ s.commit = none ∧
      s.pageLocked (pageBase k n) = false) ∧
    (∃ (p : HostPort) (page : BitVec 12) (k : PageKind) (n : Nat) (s : State), s.pageOpen p = true ∧
      page.toNat * 0x1000 = pageBase k n ∧ n < k.count ∧ k ≠ .HP ∧ s.commit ≠ none) ∧
    (∃ (p : HostPort) (s : State), s.pageOpen p = true ∧ s.commit = none) ∧
    (∃ (p : HostPort) (page : BitVec 12) (k : PageKind) (n : Nat) (s : State), s.pageOpen p = true ∧
      page.toNat * 0x1000 = pageBase k n ∧ n < k.count ∧ k ≠ .HP ∧ s.pageLocked (pageBase k n) = false) := by
  refine ⟨?_, ?_, ?_, ?_⟩
  · exact ⟨.A, 0x42, .FLT, 2, up, by decide +kernel⟩
  · let s : State := up
    let s : State := { s with commit := some ⟨false, [0x42000], [], []⟩ }
    exact ⟨.A, 0x42, .FLT, 2, s, by decide +kernel +zetaReduce⟩
  · exact ⟨.A, up, by decide +kernel⟩
  · exact ⟨.A, 0x42, .FLT, 2, up, by decide +kernel⟩

/-- States and operands that meet the hypotheses of `Obligations.CommitChecked`, clause by clause. -/
theorem test_CommitChecked_meets :
    (∃ (c : CommitState) (s : State), s.commit = some c ∧ s.failures s.soon (takeSnap s.soon c.pages c.snap) = []) ∧
    (∃ (c : CommitState) (f : PageKind × Nat × Nat) (fs : List (PageKind × Nat × Nat)) (s : State), s.commit = some c
      ∧ (∀ b, b ∈ c.pages → b ∈ allPages) ∧ s.failures s.soon (takeSnap s.soon c.pages c.snap) = f :: fs) := by
  refine ⟨?_, ?_⟩
  · let c : CommitState := ⟨false, [0x42000], [], []⟩
    let s : State := up
    let s : State := { s with commit := some c }
    let s : State := s.setFld Reg.MEM_USABLE_MIB 0 0 8192
    let s : State := s.setFld Reg.MEM_SPILL_MIB_MIB 0 0 16
    exact ⟨c, s, by decide +kernel +zetaReduce⟩
  · let c : CommitState := ⟨false, [0x42000, 0x43000], [(0x42100,0x6),(0x42108,0x3)], []⟩
    let s : State := up
    let s : State := { s with commit := some c }
    exact ⟨c, (.FLT, 2, 16), [(.CRY, 0, 16), (.MEM, 0, 16)], s, by decide +kernel +zetaReduce⟩

/-- States and operands that meet the hypotheses of `Obligations.EventCommands`, clause by clause. -/
theorem test_EventCommands_meets :
    (∃ (p : HostPort) (page : BitVec 12) (k : PageKind) (n : Nat) (s : State), s.pageOpen p = true ∧
      page.toNat * 0x1000 = pageBase k n ∧ n < k.count) ∧
    (∃ (p : HostPort) (page : BitVec 12) (k : PageKind) (n : Nat) (s : State), s.pageOpen p = true ∧
      page.toNat * 0x1000 = pageBase k n ∧ n < k.count) ∧
    (∃ (p : HostPort) (s : State), s.booted = true ∧ s.bound p = true ∧ s.live p ≠ 0) := by
  refine ⟨?_, ?_, ?_⟩
  · exact ⟨.A, 0x4, .HP, 1, up, by decide +kernel⟩
  · exact ⟨.A, 0x4, .HP, 1, up, by decide +kernel⟩
  · let s : State := up
    let s : State := s.setFld Reg.HP_CTRL_NETBIND 0 0 1
    let s : State := s.setFld Reg.EVT_PEND_A_PEND 0 0 0
    let s : State := s.setFld Reg.EVT_MASK_A_MASK 0 0 0
    let s : State := s.setFld Reg.EVT_ROUTE_EN_A 0 2 1
    let s : State := s.setFld Reg.EVT_ROUTE_VEC_A 0 2 31
    let s : State := { s with regs := regWr s.regs 0x10 4 }
    let s : State := s.raise .SYS 0 2
    exact ⟨.A, s, by decide +kernel +zetaReduce⟩

/-- States and operands that meet the hypotheses of `Obligations.SemaphoreClaim`, clause by clause. -/
theorem test_SemaphoreClaim_meets :
    (∃ (p : HostPort) (n : Fin 64) (s : State), s.portOpen p = true ∧ s.semOwner n.val = 0) ∧
    (∃ (p : HostPort) (n : Fin 64) (s : State), s.portOpen p = true ∧ s.semOwner n.val ≠ 0) ∧
    (∃ (p : HostPort) (n : Fin 64) (w : Word) (s : State), s.portOpen p = true ∧ w.toNat.testBit 2 = true ∧
      w.toNat.testBit 3 = false ∧ s.semOwner n.val = 0) ∧
    (∃ (p : HostPort) (n : Fin 64) (w : Word) (s : State), s.portOpen p = true ∧ w.toNat.testBit 2 = true ∧
      w.toNat.testBit 3 = false ∧ s.semOwner n.val ≠ 0) := by
  refine ⟨?_, ?_, ?_, ?_⟩
  · exact ⟨.A, 63, up, by decide +kernel⟩
  · let n : Fin 64 := 63
    let s : State := up
    let s : State := s.setFld Reg.SEM_LOCK_OWNER 0 n.val 1
    exact ⟨.A, n, s, by decide +kernel +zetaReduce⟩
  · exact ⟨.A, 63, 0xFFFFFFF7, up, by decide +kernel⟩
  · let n : Fin 64 := 63
    let s : State := up
    let s : State := s.setFld Reg.SEM_LOCK_OWNER 0 n.val 3
    exact ⟨.A, n, 4, s, by decide +kernel +zetaReduce⟩

/-- States and operands that meet the hypotheses of `Obligations.SemaphoreRelease`, clause by clause. -/
theorem test_SemaphoreRelease_meets :
    (∃ (p : HostPort) (n : Fin 64) (s : State), s.portOpen p = true ∧ s.semOwner n.val = p.code) ∧
    (∃ (p : HostPort) (n : Fin 64) (w : Word) (s : State), s.portOpen p = true ∧ w.toNat.testBit 2 = false ∧
      w.toNat.testBit 3 = true ∧ s.semOwner n.val = p.code) ∧
    (∃ (p : HostPort) (n : Fin 64) (s : State), s.portOpen p = true ∧ s.semOwner n.val ≠ p.code) ∧
    (∃ (p : HostPort) (n : Fin 64) (s : State), s.portOpen p = true ∧ s.semOwner n.val = p.code) ∧
    (∃ (p : HostPort) (n : Fin 64) (s : State), s.portOpen p = true ∧ s.semOwner n.val ≠ p.code) ∧
    (∃ (p : HostPort) (n : Fin 64) (w : Word) (s : State), s.portOpen p = true ∧ w.toNat.testBit 2 = false ∧
      w.toNat.testBit 3 = false ∧ s.semOwner n.val = p.code) ∧
    (∃ (p : HostPort) (n : Fin 64) (w : Word) (s : State), s.portOpen p = true ∧ w.toNat.testBit 2 = false ∧
      s.semOwner n.val ≠ p.code) ∧
    (∃ (p : HostPort) (w : Word) (s : State), s.portOpen p = true ∧ w.toNat.testBit 2 = true ∧
      w.toNat.testBit 3 = true) := by
  refine ⟨?_, ?_, ?_, ?_, ?_, ?_, ?_, ?_⟩
  · let n : Fin 64 := 63
    let s : State := up
    let s : State := s.setFld Reg.SEM_LOCK_OWNER 0 n.val 1
    exact ⟨.A, n, s, by decide +kernel +zetaReduce⟩
  · let n : Fin 64 := 63
    let s : State := up
    let s : State := s.setFld Reg.SEM_LOCK_OWNER 0 n.val 1
    exact ⟨.A, n, 0xFF08, s, by decide +kernel +zetaReduce⟩
  · let n : Fin 64 := 63
    let s : State := up
    let s : State := s.setFld Reg.SEM_LOCK_OWNER 0 n.val 2
    exact ⟨.A, n, s, by decide +kernel +zetaReduce⟩
  · let n : Fin 64 := 63
    let s : State := up
    let s : State := s.setFld Reg.SEM_LOCK_OWNER 0 n.val 1
    exact ⟨.A, n, s, by decide +kernel +zetaReduce⟩
  · let n : Fin 64 := 63
    let s : State := up
    let s : State := s.setFld Reg.SEM_LOCK_OWNER 0 n.val 3
    exact ⟨.A, n, s, by decide +kernel +zetaReduce⟩
  · let n : Fin 64 := 63
    let s : State := up
    let s : State := s.setFld Reg.SEM_LOCK_OWNER 0 n.val 1
    exact ⟨.A, n, 0xAB00, s, by decide +kernel +zetaReduce⟩
  · exact ⟨.A, 63, 0xFF08, up, by decide +kernel⟩
  · exact ⟨.A, 0xC, up, by decide +kernel⟩

/-- States and operands that meet the hypotheses of `Obligations.SemaphoreForce`, clause by clause. -/
theorem test_SemaphoreForce_meets :
    (∃ (p : HostPort) (w : Word) (s : State), s.portOpen p = true ∧ w.toNat / 0x10000 = 0x5E3A ∧
      w.toNat.testBit 6 = false ∧ (s.semOwner (w.toNat % 0x40) = 1 ∨ s.semOwner (w.toNat % 0x40) = 2)) ∧
    (∃ (p : HostPort) (w : Word) (s : State), s.portOpen p = true ∧ w.toNat / 0x10000 ≠ 0x5E3A) := by
  refine ⟨?_, ?_⟩
  · let s : State := up
    let s : State := s.setFld Reg.SEM_LOCK_OWNER 0 63 2
    exact ⟨.A, 0x5E3A003F, s, by decide +kernel +zetaReduce⟩
  · exact ⟨.A, 0x123, up, by decide +kernel⟩

/-- States and operands that meet the hypotheses of `Obligations.HostPortCommands`, clause by clause. -/
theorem test_HostPortCommands_meets :
    (∃ (p : HostPort) (bind : Bool) (s : State), s.booted = true ∧ s.bound p = !bind) ∧
    (∃ (p : HostPort) (bind : Bool) (s : State), s.booted = true ∧ s.bound p = bind) ∧
    (∃ (p : HostPort) (s : State), s.sys.inReset = false ∧ (s.hp p).perstLow = false) ∧
    (∃ (p : HostPort) (s : State), (s.hp p).perstLow = true) ∧
    (∃ (s : State), s.sys.inReset = false) ∧
    (∃ (p : HostPort) (speed : Fin 4) (width : Fin 3) (s : State), s.sys.inReset = false ∧ s.serialMode p = false ∧
      (s.hp p).perstLow = false ∧ speed.val ≠ 0 ∧ width.val ≠ 0) := by
  refine ⟨?_, ?_, ?_, ?_, ?_, ?_⟩
  · exact ⟨.A, true, up, by decide +kernel⟩
  · exact ⟨.A, false, up, by decide +kernel⟩
  · let p : HostPort := .A
    let s : State := up
    let s : State := { s with sys := { s.sys with inReset := false } }
    let s : State := s.setHp p { s.hp p with perstLow := false }
    exact ⟨p, s, by decide +kernel +zetaReduce⟩
  · let p : HostPort := .A
    let s : State := up
    let s : State := s.setHp p { s.hp p with perstLow := true }
    exact ⟨p, s, by decide +kernel +zetaReduce⟩
  · let s : State := up
    let s : State := { s with sys := { s.sys with inReset := false } }
    exact ⟨s, by decide +kernel +zetaReduce⟩
  · let p : HostPort := .A
    let s : State := up
    let s : State := { s with sys := { s.sys with inReset := false } }
    let s : State := s.setHp p { s.hp p with perstLow := false }
    exact ⟨p, 1, 1, s, by decide +kernel +zetaReduce⟩

/-- States and operands that meet the hypotheses of `Obligations.SerialTransactions`, clause by clause. -/
theorem test_SerialTransactions_meets :
    (∃ (p : HostPort) (a : BitVec 24) (n : Nat) (s : State), s.serialOpen p = true ∧ s.portOpen p = true ∧
      s.Delivered ∧ (s.hp p).serial ≠ .ignored ∧ 0 < n ∧ (∀ i, i < n → s.plainRegister (a.toNat + 4 * i) = true)) ∧
    (∃ (p : HostPort) (a : BitVec 24) (s : State), s.serialOpen p = true ∧ (s.hp p).serial ≠ .ignored ∧
      (s.booted = true ∨ (s.sys.loadPending = false ∧ a.toNat / 4 * 4 ≠ Reg.SYS_BOOT_CTRL_CLAIM.addr 0 0))) ∧
    (∃ (p : HostPort) (s : State), s.serialOpen p = true ∧ (s.hp p).serial = .ignored) ∧
    (∃ (p : HostPort) (cmd : Byte) (s : State), s.serialOpen p = true ∧ cmd ≠ 0x0B ∧ cmd ≠ 0x02) ∧
    (∃ (p : HostPort) (ph : SerialPhase) (s : State), s.serialOpen p = true ∧ (ph = .idle ∨ ph = .partialWord)) ∧
    (∃ (p : HostPort) (a : Nat) (s : State), s.serialOpen p = true ∧ (s.hp p).serial = .read a) ∧
    (∃ (p : HostPort) (a : BitVec 24) (k : PageKind) (n : Nat) (s : State), s.serialOpen p = true ∧
      s.portOpen p = true ∧ (s.hp p).serial = .read a.toNat ∧ pageHas k n a.toNat = true ∧
      s.effectRead k n (a.toNat - pageBase k n) = none) := by
  refine ⟨?_, ?_, ?_, ?_, ?_, ?_, ?_⟩
  · let s : State := up
    let s : State := s.setFld Reg.HP_STATUS_MODE 0 0 1
    exact ⟨.A, 0x42108, 2, s, ⟨by decide +kernel +zetaReduce, by decide +kernel +zetaReduce, ⟨by decide +kernel +zetaReduce, by decide +kernel +zetaReduce, rfl, rfl⟩, by decide +kernel +zetaReduce, by decide +kernel +zetaReduce, by decide +kernel +zetaReduce⟩⟩
  · let s : State := up
    let s : State := s.setFld Reg.HP_STATUS_MODE 0 0 1
    exact ⟨.A, 0x42108, s, by decide +kernel +zetaReduce⟩
  · let p : HostPort := .A
    let s : State := up
    let s : State := s.setHp p { s.hp p with serial := .ignored }
    let s : State := s.setFld Reg.HP_STATUS_MODE 0 0 1
    exact ⟨p, s, by decide +kernel +zetaReduce⟩
  · let s : State := up
    let s : State := s.setFld Reg.HP_STATUS_MODE 0 0 1
    exact ⟨.A, 0x55, s, by decide +kernel +zetaReduce⟩
  · let s : State := up
    let s : State := s.setFld Reg.HP_STATUS_MODE 0 0 1
    exact ⟨.A, .idle, s, by decide +kernel +zetaReduce⟩
  · let p : HostPort := .A
    let a : Nat := 0x100
    let s : State := up
    let s : State := s.setHp p { s.hp p with serial := .read a }
    let s : State := s.setFld Reg.HP_STATUS_MODE 0 0 1
    let s : State := s.setHp p { s.hp p with serial := .read a }
    exact ⟨p, a, s, by decide +kernel +zetaReduce⟩
  · let p : HostPort := .A
    let a : BitVec 24 := 0x42108
    let s : State := up
    let s : State := s.setHp p { s.hp p with serial := .read a.toNat }
    let s : State := s.setFld Reg.HP_STATUS_MODE 0 0 1
    let s : State := s.setHp p { s.hp p with serial := .read a.toNat }
    exact ⟨p, a, .FLT, 2, s, by decide +kernel +zetaReduce⟩

/-- States and operands that meet the hypotheses of `Obligations.ApertureAccess`, clause by clause. -/
theorem test_ApertureAccess_meets :
    (∃ (p : HostPort) (a : BitVec 34) (n : Nat) (s : State), s.hostRegion p a.toNat n = true) ∧
    (∃ (p : HostPort) (a : BitVec 34) (bs : List Byte) (s : State), s.hostRegion p a.toNat bs.length = true) ∧
    (∃ (p : HostPort) (a : BitVec 34) (bs : List Byte) (s : State), s.portOpen p = true ∧ s.serialMode p = false ∧
      (s.hp p).inL0 = true ∧ s.stagingOpen = false ∧ bs ≠ [] ∧ a.toNat + bs.length ≤ s.regionBase 5 ∧
      s.regionBase 5 ≤ s.usableBytes) ∧
    (∃ (p : HostPort) (s : State), s.sys.inReset = false ∧ s.serialMode p = false ∧ (s.hp p).inL0 = true ∧
      s.bound p = true) := by
  refine ⟨?_, ?_, ?_, ?_⟩
  · let p : HostPort := .A
    let s : State := up
    let s : State := s.setHp p { s.hp p with inL0 := true }
    let s : State := s.setFld Reg.MEM_USABLE_MIB 0 0 8192
    exact ⟨p, 0x10000003, 5, s, by decide +kernel +zetaReduce⟩
  · let p : HostPort := .A
    let s : State := up
    let s : State := s.setHp p { s.hp p with inL0 := true }
    let s : State := s.setFld Reg.MEM_USABLE_MIB 0 0 8192
    exact ⟨p, 0x3, [1,2], s, by decide +kernel +zetaReduce⟩
  · let p : HostPort := .A
    let s : State := up
    let s : State := s.setHp p { s.hp p with inL0 := true }
    let s : State := s.setFld Reg.MEM_USABLE_MIB 0 0 8192
    let s : State := s.setFld Reg.MEM_REGION_BASE_MIB 0 5 1
    let s : State := s.setFld Reg.MEM_REGION_BASE_MIB 0 1 1
    exact ⟨p, 0x10, [1,2], s, by decide +kernel +zetaReduce⟩
  · let p : HostPort := .A
    let s : State := up
    let s : State := s.setFld Reg.HP_CTRL_NETBIND 0 0 1
    let s : State := s.setHp p { s.hp p with inL0 := true }
    exact ⟨p, s, by decide +kernel +zetaReduce⟩

/-- States and operands that meet the hypotheses of `Obligations.FlashOperations`, clause by clause. -/
theorem test_FlashOperations_meets :
    (∃ (p : HostPort) (s : State), s.flashFree p = true ∧ s.semOwner 63 = p.code) ∧
    (∃ (p : HostPort) (s : State), s.flashFree p = true ∧ s.semOwner 63 = p.code ∧ s.flashAt p % 0x100 = 0 ∧
      (s.flashAt p + 0x100 ≤ 0x800000 ∨ 0x880000 ≤ s.flashAt p)) ∧
    (∃ (p : HostPort) (s : State), s.flashFree p = true ∧ s.semOwner 63 = p.code ∧ s.flashAt p % 0x1000 = 0 ∧
      (s.flashAt p + 0x1000 ≤ 0x800000 ∨ 0x880000 ≤ s.flashAt p)) ∧
    (∃ (p : HostPort) (s : State), s.flashFree p = true ∧ s.semOwner 63 = p.code ∧ s.flashAt p % 0x10000 = 0 ∧
      (s.flashAt p + 0x10000 ≤ 0x800000 ∨ 0x880000 ≤ s.flashAt p)) ∧
    (∃ (p : HostPort) (i : Instr) (s : State), s.flashFree p = true ∧ s.semOwner 63 ≠ p.code ∧
      i ∈ [Instr.flashRead p, .flashProgram p, .flashErase4k p, .flashErase64k p]) ∧
    (∃ (p : HostPort) (c : (HostPort → Instr) × Nat × Nat) (s : State), s.flashFree p = true ∧
      s.semOwner 63 = p.code ∧ c ∈ flashChange ∧ s.flashAt p % c.2.2 ≠ 0) ∧
    (∃ (p : HostPort) (c : (HostPort → Instr) × Nat × Nat) (s : State), s.flashFree p = true ∧
      s.semOwner 63 = p.code ∧ c ∈ flashChange ∧ s.flashAt p % c.2.2 = 0 ∧ 0x800000 < s.flashAt p + c.2.2 ∧
      s.flashAt p < 0x880000) ∧
    (∃ (p : HostPort) (s : State), s.flag Reg.HP_FLASH_STATUS_BUSY p.ix = true ∧ (s.hp p).flashOp = 1 ∧
      (s.hp p).flashAddr + 0x100 ≤ Config.flashBytes) ∧
    (∃ (p : HostPort) (s : State), s.flag Reg.HP_FLASH_STATUS_BUSY p.ix = true ∧ (s.hp p).flashOp = 2 ∧
      (s.hp p).flashBuf.length = 64) ∧
    (∃ (p : HostPort) (c : (HostPort → Instr) × Nat × Nat) (s : State), s.flag Reg.HP_FLASH_STATUS_BUSY p.ix = true ∧
      c ∈ flashChange ∧ c.2.1 ≠ 2 ∧ (s.hp p).flashOp = c.2.1) ∧
    (∃ (p : HostPort) (s : State), s.flag Reg.HP_FLASH_STATUS_BUSY p.ix = true) ∧
    (∃ (p : HostPort) (s : State), s.flag Reg.HP_FLASH_STATUS_BUSY p.ix = true) := by
  refine ⟨?_, ?_, ?_, ?_, ?_, ?_, ?_, ?_, ?_, ?_, ?_, ?_⟩
  · let s : State := up
    let s : State := s.setFld Reg.SEM_LOCK_OWNER 0 63 1
    exact ⟨.A, s, by decide +kernel +zetaReduce⟩
  · let s : State := up
    let s : State := s.setFld Reg.SEM_LOCK_OWNER 0 63 1
    let s : State := s.setFld Reg.HP_FLASH_ADDR_ADDR 0 0 0x7FFF00
    exact ⟨.A, s, by decide +kernel +zetaReduce⟩
  · let s : State := up
    let s : State := s.setFld Reg.SEM_LOCK_OWNER 0 63 1
    let s : State := s.setFld Reg.HP_FLASH_ADDR_ADDR 0 0 0x880000
    exact ⟨.A, s, by decide +kernel +zetaReduce⟩
  · let s : State := up
    let s : State := s.setFld Reg.SEM_LOCK_OWNER 0 63 1
    let s : State := s.setFld Reg.HP_FLASH_ADDR_ADDR 0 0 0x7F0000
    exact ⟨.A, s, by decide +kernel +zetaReduce⟩
  · let s : State := up
    let s : State := s.setFld Reg.SEM_LOCK_OWNER 0 63 2
    exact ⟨.A, (.flashErase4k .A), s, by decide +kernel +zetaReduce⟩
  · let s : State := up
    let s : State := s.setFld Reg.SEM_LOCK_OWNER 0 63 1
    let s : State := s.setFld Reg.HP_FLASH_ADDR_ADDR 0 0 0x700100
    exact ⟨.A, (.flashErase4k, 3, 0x1000), s, ⟨by decide +kernel +zetaReduce, by decide +kernel +zetaReduce, .tail _ (.head _), by decide +kernel +zetaReduce⟩⟩
  · let s : State := up
    let s : State := s.setFld Reg.SEM_LOCK_OWNER 0 63 1
    let s : State := s.setFld Reg.HP_FLASH_ADDR_ADDR 0 0 0x870000
    exact ⟨.A, (.flashErase64k, 4, 0x10000), s, ⟨by decide +kernel +zetaReduce, by decide +kernel +zetaReduce, .tail _ (.tail _ (.head _)), by decide +kernel +zetaReduce, by decide +kernel +zetaReduce, by decide +kernel +zetaReduce⟩⟩
  · let p : HostPort := .A
    let s : State := up
    let s : State := s.setFlag Reg.HP_FLASH_STATUS_BUSY 0 0 true
    let s : State := s.setHp p { s.hp p with flashOp := 1, flashAddr := 0xFFFF00 }
    let s : State := { s with flash := memWrs Config.flashBlank s.flash 0xFFFF00 [1,2,3,4,5] }
    exact ⟨p, s, by decide +kernel +zetaReduce⟩
  · let p : HostPort := .A
    let s : State := up
    let s : State := s.setFlag Reg.HP_FLASH_STATUS_BUSY 0 0 true
    let s : State :=
      s.setHp p { s.hp p with flashOp := 2, flashAddr := 0x7FFF00, flashBuf := (List.range 64).map fun i => w32 (i * 0x01010101 + 7) }
    exact ⟨p, s, by decide +kernel +zetaReduce⟩
  · let p : HostPort := .A
    let s : State := up
    let s : State := s.setFlag Reg.HP_FLASH_STATUS_BUSY 0 0 true
    let s : State := s.setHp p { s.hp p with flashOp := 3, flashAddr := 0x880000 }
    let s : State := { s with flash := memWrs Config.flashBlank s.flash 0x880FFE [1,2,3,4,5] }
    exact ⟨p, (.flashErase4k, 3, 0x1000), s, ⟨by decide +kernel +zetaReduce, .tail _ (.head _), by decide +kernel +zetaReduce, by decide +kernel +zetaReduce⟩⟩
  · let p : HostPort := .A
    let s : State := up
    let s : State := s.setFlag Reg.HP_FLASH_STATUS_BUSY 0 0 true
    let s : State := s.setHp p { s.hp p with flashOp := 2, flashAddr := 0x7FFF00 }
    exact ⟨p, s, by decide +kernel +zetaReduce⟩
  · let p : HostPort := .A
    let s : State := up
    let s : State := s.setFlag Reg.HP_FLASH_STATUS_BUSY 0 0 true
    let s : State := s.setHp p { s.hp p with flashOp := 4, flashAddr := 0x7F0000 }
    exact ⟨p, s, by decide +kernel +zetaReduce⟩

/-- States and operands that meet the hypotheses of `Obligations.TopManager`, clause by clause. -/
theorem test_TopManager_meets :
    (∃ (p : HostPort) (w : Word) (s : State), s.portOpen p = true ∧ s.isManager = true ∧ s.hasAddr = false ∧
      w.toNat % 0x10000 = 0) ∧
    (∃ (p : HostPort) (w : Word) (s : State), s.portOpen p = true ∧ w.toNat % 0x10000 ≠ 0) ∧
    (∃ (p : HostPort) (w : Word) (s : State), s.portOpen p = true ∧ (s.isManager = false ∨ s.hasAddr = true) ∧
      w.toNat % 0x10000 = 0) := by
  refine ⟨?_, ?_, ?_⟩
  · let s : State := up
    let s : State := { s with sys := { s.sys with straps := { s.sys.straps with role := true } } }
    exact ⟨.A, 0xFFFF0000, s, by decide +kernel +zetaReduce⟩
  · exact ⟨.A, 0x123, up, by decide +kernel⟩
  · let s : State := up
    let s : State := { s with sys := { s.sys with straps := { s.sys.straps with role := false } } }
    exact ⟨.A, 0x50000, s, by decide +kernel +zetaReduce⟩

/-- States and operands that meet the hypotheses of `Obligations.DiscoveryAndJoin`, clause by clause. -/
theorem test_DiscoveryAndJoin_meets :
    (∃ (p : NetPort) (s : State), s.booted = true ∧ s.sys.announceMs ≠ 0 ∧
      s.flag Reg.SYS_JOIN_STATUS_JOINED = false ∧ p ∈ s.seeking ∧ s.linked p = true) ∧
    (∃ (p : NetPort) (h : Hdr) (m : AnnounceMsg) (e : Nat) (j : JtEntry) (s : State), s.takes p 1 h = true ∧
      s.isManager = true ∧ s.usable p = true ∧ s.entryFor p m.uid = some (e, j) ∧
      s.flag Reg.TIM_STATUS_EPOCH_VALID = true ∧ (s.flag Reg.SYS_ADDR_TOP = true ∨
      (s.flag Reg.SYS_JOIN_STATUS_JOINED = true ∧ p ≠ .M))) ∧
    (∃ (p : NetPort) (h : Hdr) (m : AnnounceMsg) (s : State), s.takes p 1 h = true ∧ s.isManager = true ∧
      p.ring = true ∧ (∀ e, e ∈ s.net.jt → ¬ (e.2.valid = true ∧ e.2.uid = m.uid)) ∧ (∀ e, e ∈ s.net.unknown →
      e.1 ≠ m.uid)) ∧
    (∃ (p : NetPort) (h : Hdr) (g : GrantMsg) (s : State), s.booted = true ∧ s.linked p = true ∧
      State.admits p 2 = true ∧ s.isOwn h = false ∧ s.taken h 2 = false ∧ p ∈ s.seeking ∧ s.hasAddr = false ∧
      g.uid = Config.uid) ∧
    (∃ (p : NetPort) (h : Hdr) (g : GrantMsg) (s : State), s.booted = true ∧ s.linked p = true ∧
      State.admits p 2 = true ∧ s.isOwn h = false ∧ s.taken h 2 = false ∧ s.hasAddr = true ∧ g.uid = Config.uid ∧
      g.addr.toNat ≠ s.addr) := by
  refine ⟨?_, ?_, ?_, ?_, ?_⟩
  · let p : NetPort := .S
    let s : State := up
    let s : State := { s with sys := { s.sys with announceMs := 1000 } }
    let s : State := wLinked s p
    exact ⟨p, s, by decide +kernel +zetaReduce⟩
  · let p : NetPort := .N
    let j : JtEntry := ⟨9, 5, true⟩
    let s : State := up
    let s : State := { s with sys := { s.sys with straps := { s.sys.straps with role := true } } }
    let s : State := wUsable s p
    let s : State := s.setFlag Reg.TIM_STATUS_EPOCH_VALID 0 0 true
    let s : State := s.setFlag Reg.SYS_ADDR_TOP 0 0 true
    let s : State := { s with net := { s.net with jt := [(255, j)] } }
    exact ⟨p, bh, ⟨9, 3, 4⟩, 255, j, s, by decide +kernel +zetaReduce⟩
  · let p : NetPort := .N
    let s : State := up
    let s : State := wUsable s p
    let s : State := { s with sys := { s.sys with straps := { s.sys.straps with role := true } } }
    exact ⟨p, bh, default, s, by decide +kernel +zetaReduce⟩
  · let p : NetPort := .N
    let s : State := up
    let s : State := wLinked s p
    exact ⟨p, bh, ({ (default : GrantMsg) with uid := Config.uid, addr := 0x105 } : GrantMsg), s, ⟨by decide +kernel +zetaReduce, by decide +kernel +zetaReduce, by decide +kernel +zetaReduce, by decide +kernel +zetaReduce, by decide +kernel +zetaReduce, by decide +kernel +zetaReduce, by decide +kernel +zetaReduce, rfl⟩⟩
  · let p : NetPort := .N
    let s : State := up
    let s : State := wLinked s p
    let s : State := s.setFlag Reg.SYS_ADDR_VALID 0 0 true
    exact ⟨p, bh, ({ (default : GrantMsg) with uid := Config.uid, addr := 0x105 } : GrantMsg), s, ⟨by decide +kernel +zetaReduce, by decide +kernel +zetaReduce, by decide +kernel +zetaReduce, by decide +kernel +zetaReduce, by decide +kernel +zetaReduce, by decide +kernel +zetaReduce, rfl, by decide +kernel +zetaReduce⟩⟩

/-- States and operands that meet the hypotheses of `Obligations.HeartbeatAndDeparture`, clause by clause. -/
theorem test_HeartbeatAndDeparture_meets :
    (∃ (p : NetPort) (h : Hdr) (m : HeartbeatMsg) (j : JtEntry) (s : State), s.takes p 3 h = true ∧
      s.isManager = true ∧ h.srcv = true ∧ h.turned = false ∧ s.net.jt.look (s.entryOf h.src.toNat) = some j ∧
      j.valid = true ∧ j.uid = m.uid ∧ (p = .M ↔ 256 < s.entryOf h.src.toNat)) ∧
    (∃ (p : NetPort) (h : Hdr) (m : HbReplyMsg) (s : State), s.takes p 4 h = true ∧
      s.flag Reg.SYS_JOIN_STATUS_JOINED = true ∧
      m.mgrUid.toNat = s.fld64 Reg.NET_MGR_UID_LO_UID Reg.NET_MGR_UID_HI_UID) ∧
    (∃ (p : NetPort) (s : State), s.booted = true ∧ s.flag Reg.SYS_JOIN_STATUS_JOINED = true ∧ s.isManager = false ∧
      s.flag Reg.NET_MGR_VALID = true ∧ s.primary = some p) ∧
    (∃ (e : Fin 512) (m : Member) (s : State), s.booted = true ∧ s.net.members.look e.val = some m ∧
      s.past m.lastHb 30 = true) ∧
    (∃ (e : Fin 512) (m : Member) (s : State), s.net.members.look e.val = some m ∧ s.past m.lastHb 30 = false) ∧
    (∃ (t0 : Tm) (s : State), s.booted = true ∧ s.flag Reg.SYS_JOIN_STATUS_JOINED = true ∧
      s.net.lastReply = some t0 ∧ s.past t0 30 = true) := by
  refine ⟨?_, ?_, ?_, ?_, ?_, ?_⟩
  · let p : NetPort := .N
    let j : JtEntry := ⟨7, 3, true⟩
    let s : State := up
    let s : State := { s with sys := { s.sys with straps := { s.sys.straps with role := true } } }
    let s : State := wUsable s p
    let s : State := s.setFlag Reg.SYS_ADDR_TOP 0 0 true
    let s : State := { s with net := { s.net with jt := [(7, j)] } }
    exact ⟨p, ({ bh with srcv := true, src := 7 } : Hdr), ⟨7, 0, true, false, 1, 2, 3, 4, 5⟩, j, s, by decide +kernel +zetaReduce⟩
  · let p : NetPort := .N
    let s : State := up
    let s : State := wUsable s p
    let s : State := s.setFlag Reg.SYS_JOIN_STATUS_JOINED 0 0 (true)
    exact ⟨p, bh, default, s, by decide +kernel +zetaReduce⟩
  · let p : NetPort := .N
    let s : State := up
    let s : State := s.setFlag Reg.SYS_JOIN_STATUS_JOINED 0 0 true
    let s : State := s.setFlag Reg.NET_MGR_VALID 0 0 true
    let s : State := s.setFld Reg.NET_MGR_ADDR 0 0 0x0100
    let s : State := wUsable s p
    let s : State := s.setPort .N { s.port .N with beacon := some (s.life, 2) }
    exact ⟨p, s, by decide +kernel +zetaReduce⟩
  · let e : Fin 512 := 1
    let m : Member := default
    let s : State := up
    let s : State := { s with net := { s.net with members := s.net.members.put e.val m } }
    exact ⟨e, m, s, by decide +kernel +zetaReduce⟩
  · let e : Fin 512 := 1
    let m : Member := ⟨7, 1310720000000000, true, false, .N, .N, 5⟩
    let s : State := up
    let s : State := { s with net := { s.net with members := s.net.members.put e.val m } }
    let s : State := { s with net := { s.net with members := [(e.val, m)] } }
    exact ⟨e, m, s, by decide +kernel +zetaReduce⟩
  · let t0 : Tm := 12345678901234
    let s : State := up
    let s : State := s.setFlag Reg.SYS_JOIN_STATUS_JOINED 0 0 (true)
    let s : State := { s with net := { s.net with lastReply := some t0 } }
    exact ⟨t0, s, by decide +kernel +zetaReduce⟩

/-- States and operands that meet the hypotheses of `Obligations.RingUpkeep`, clause by clause. -/
theorem test_RingUpkeep_meets :
    (∃ (p : NetPort) (s : State), s.booted = true ∧ p ≠ .M ∧ s.linked p = true) ∧
    (∃ (p : NetPort) (s : State), s.booted = true ∧ p ≠ .M ∧ s.linked p = true) ∧
    (∃ (p : NetPort) (s : State), s.booted = true ∧ p ≠ .M ∧ s.linked p = true ∧ (s.port p).probeOut.isSome = true) ∧
    (∃ (p : NetPort) (s : State), s.booted = true ∧ s.isManager = true ∧ s.hasAddr = true ∧ p.ring = true ∧
      s.usable p = true) ∧
    (∃ (p : NetPort) (h : Hdr) (s : State), s.takes p 7 h = true ∧ s.isManager = false ∧ p.ring = true ∧
      h.turned = false) ∧
    (∃ (p : NetPort) (b : Tm × Nat) (s : State), (s.port p).beacon = some b ∧
      b.1 + 30000000 * Config.unitsPerNs < s.life) ∧
    (∃ (p : NetPort) (h : Hdr) (s : State), s.takes p 8 h = true) ∧
    (∃ (p : NetPort) (t0 : Tm) (s : State), s.booted = true ∧ p.ring = true ∧ (s.port p).downAt = some t0 ∧
      t0 + 100000 * Config.unitsPerNs ≤ s.life) ∧
    (∃ (p : NetPort) (s : State), s.booted = true ∧ p.ring = true ∧ s.linked p = true ∧ 4 ≤ (s.port p).missed ∧
      (s.port p).fell = false) := by
  refine ⟨?_, ?_, ?_, ?_, ?_, ?_, ?_, ?_, ?_⟩
  · let p : NetPort := .N
    let s : State := up
    let s : State := wLinked s p
    exact ⟨p, s, by decide +kernel +zetaReduce⟩
  · let p : NetPort := .N
    let s : State := up
    let s : State := wLinked s p
    exact ⟨p, s, by decide +kernel +zetaReduce⟩
  · let p : NetPort := .S
    let s : State := up
    let s : State := wLinked s p
    let s : State := s.setPort p { s.port p with probeOut := some 5 }
    exact ⟨p, s, by decide +kernel +zetaReduce⟩
  · let p : NetPort := .N
    let s : State := up
    let s : State := { s with sys := { s.sys with straps := { s.sys.straps with role := true } } }
    let s : State := wUsable s p
    let s : State := s.setFlag Reg.SYS_ADDR_VALID 0 0 true
    exact ⟨p, s, by decide +kernel +zetaReduce⟩
  · let p : NetPort := .N
    let s : State := up
    let s : State := wUsable s p
    let s : State := { s with sys := { s.sys with straps := { s.sys.straps with role := false } } }
    exact ⟨p, bh, s, by decide +kernel +zetaReduce⟩
  · let p : NetPort := .N
    let b : Tm × Nat := default
    let s : State := up
    let s : State := s.setPort p { s.port p with beacon := some b }
    exact ⟨p, b, s, by decide +kernel +zetaReduce⟩
  · let p : NetPort := .N
    let s : State := up
    let s : State := wUsable s p
    exact ⟨p, bh, s, by decide +kernel +zetaReduce⟩
  · let p : NetPort := .N
    let t0 : Tm := 12345678901234
    let s : State := up
    let s : State := s.setPort p { s.port p with downAt := some t0 }
    exact ⟨p, t0, s, by decide +kernel +zetaReduce⟩
  · let p : NetPort := .N
    let s : State := up
    let s : State := wLinked s p
    let s : State := s.setPort p { s.port p with fell := false }
    let s : State := s.setPort p { s.port p with missed := 4, fell := false }
    exact ⟨p, s, by decide +kernel +zetaReduce⟩

/-- States and operands that meet the hypotheses of `Obligations.RemoteAccess`, clause by clause. -/
theorem test_RemoteAccess_meets :
    (∃ (p : HostPort) (s : State), s.portOpen p = true ∧ s.flag Reg.NET_RA_STATUS_BUSY = true) ∧
    (∃ (p : HostPort) (s : State), s.portOpen p = true ∧ s.flag Reg.NET_RA_STATUS_BUSY = false ∧
      (s.memberOf (s.fld Reg.NET_RA_CTRL_DST)).isNone = true) ∧
    (∃ (p : HostPort) (s : State), s.portOpen p = true ∧ s.flag Reg.NET_RA_STATUS_BUSY = false ∧
      (s.memberOf (s.fld Reg.NET_RA_CTRL_DST)).isSome = true ∧ s.isManager = true) ∧
    (∃ (r : RaReq) (s : State), s.net.ra = some r ∧ s.past r.sentAt (s.fld Reg.NET_RA_TIMEOUT_MS) = true ∧
      r.sends < 4) ∧
    (∃ (r : RaReq) (s : State), s.net.ra = some r ∧ s.past r.sentAt (s.fld Reg.NET_RA_TIMEOUT_MS) = true ∧
      4 ≤ r.sends) ∧
    (∃ (p : NetPort) (h : Hdr) (m : RegRespMsg) (r : RaReq) (s : State), s.takes p 0x21 h = true ∧
      s.net.ra = some r ∧ h.srcv = true ∧ h.src.toNat = r.dst ∧ m.tag.toNat = r.tag) ∧
    (∃ (p q : NetPort) (h : Hdr) (m : RegReqMsg) (s : State), s.takes p 0x20 h = true ∧ h.srcv = true ∧
      s.flag Reg.NET_MGR_VALID = true ∧ h.src.toNat = s.fld Reg.NET_MGR_ADDR ∧ s.net.done.look h.src.toNat = none ∧
      s.bound (if m.portB then .B else .A) = false ∧ s.isManager = false ∧ s.primary = some q) ∧
    (∃ (p q : NetPort) (h : Hdr) (m : RegReqMsg) (k : PageKind) (n : Nat) (s : State), s.takes p 0x20 h = true ∧
      h.srcv = true ∧ s.flag Reg.NET_MGR_VALID = true ∧ h.src.toNat = s.fld Reg.NET_MGR_ADDR ∧
      s.net.done.look h.src.toNat = none ∧ s.bound (if m.portB then .B else .A) = true ∧ s.isManager = false ∧
      s.primary = some q ∧ m.write = false ∧ m.count = 0 ∧ pageHas k n m.addr.toNat = true ∧ m.addr.toNat < 0x11000 ∧
      s.viewRead k n (m.addr.toNat - pageBase k n) = none) ∧
    (∃ (p q : NetPort) (h : Hdr) (m : RegReqMsg) (result : Nat) (ws : List Word) (s : State), s.takes p 0x20 h = true
      ∧ h.srcv = true ∧ s.flag Reg.NET_MGR_VALID = true ∧ h.src.toNat = s.fld Reg.NET_MGR_ADDR ∧
      s.net.done.look h.src.toNat = some (m.tag.toNat, result, ws) ∧ s.isManager = false ∧ s.primary = some q) ∧
    (∃ (p : NetPort) (h : Hdr) (s : State), s.takes p 0x22 h = true ∧ s.isManager = true) := by
  refine ⟨?_, ?_, ?_, ?_, ?_, ?_, ?_, ?_, ?_, ?_⟩
  · let s : State := up
    let s : State := s.setFlag Reg.NET_RA_STATUS_BUSY 0 0 (true)
    exact ⟨.A, s, by decide +kernel +zetaReduce⟩
  · exact ⟨.A, up, by decide +kernel⟩
  · let s : State := up
    let s : State := { s with sys := { s.sys with straps := { s.sys.straps with role := true } } }
    let s : State := s.setFld Reg.NET_RA_CTRL_DST 0 0 5
    let s : State := { s with net := { s.net with members := [(5, ⟨7, s.now, true, false, .N, .N, 5⟩)] } }
    exact ⟨.A, s, by decide +kernel +zetaReduce⟩
  · let r : RaReq := default
    let s : State := up
    let s : State := { s with net := { s.net with ra := some r } }
    exact ⟨r, s, by decide +kernel +zetaReduce⟩
  · let r : RaReq := ⟨0x12, 3, 4, 1, true, true, 2, 0x104, [1,2,3]⟩
    let s : State := up
    let s : State := { s with net := { s.net with ra := some r } }
    let s : State := { s with net := { s.net with ra := some r } }
    exact ⟨r, s, by decide +kernel +zetaReduce⟩
  · let p : NetPort := .N
    let r : RaReq := ⟨0x12, 3, 1, 1, true, true, 2, 0x104, [1,2,3]⟩
    let s : State := up
    let s : State := wUsable s p
    let s : State := { s with net := { s.net with ra := some r } }
    let s : State := { s with net := { s.net with ra := some r } }
    exact ⟨p, ({ bh with srcv := true, src := 0x12 } : Hdr), ⟨3, 0, [1,2]⟩, r, s, by decide +kernel +zetaReduce⟩
  · let p : NetPort := .N
    let q : NetPort := .S
    let s : State := up
    let s : State := wUsable s p
    let s : State := s.setFlag Reg.SYS_JOIN_STATUS_JOINED 0 0 true
    let s : State := s.setFlag Reg.NET_MGR_VALID 0 0 true
    let s : State := s.setFld Reg.NET_MGR_ADDR 0 0 0x0100
    let s : State := wUsable s q
    let s : State := s.setPort q { s.port q with beacon := some (s.life, 2) }
    exact ⟨p, q, ({ bh with srcv := true, src := 0x0100 } : Hdr), ⟨3, false, true, 0, 0x42100, [1]⟩, s, by decide +kernel +zetaReduce⟩
  · let p : NetPort := .N
    let q : NetPort := .S
    let s : State := up
    let s : State := wUsable s p
    let s : State := s.setFlag Reg.SYS_JOIN_STATUS_JOINED 0 0 true
    let s : State := s.setFlag Reg.NET_MGR_VALID 0 0 true
    let s : State := s.setFld Reg.NET_MGR_ADDR 0 0 0x0100
    let s : State := wUsable s q
    let s : State := s.setPort q { s.port q with beacon := some (s.life, 2) }
    let s : State := s.setFld Reg.HP_CTRL_NETBIND 0 0 1
    exact ⟨p, q, ({ bh with srcv := true, src := 0x0100 } : Hdr), ⟨3, false, false, 0, 0x2104, []⟩, .EVT, 0, s, by decide +kernel +zetaReduce⟩
  · let p : NetPort := .N
    let q : NetPort := .S
    let result : Nat := 1
    let ws : List Word := [7]
    let s : State := up
    let s : State := wUsable s p
    let s : State := s.setFlag Reg.SYS_JOIN_STATUS_JOINED 0 0 true
    let s : State := s.setFlag Reg.NET_MGR_VALID 0 0 true
    let s : State := s.setFld Reg.NET_MGR_ADDR 0 0 0x0100
    let s : State := wUsable s q
    let s : State := s.setPort q { s.port q with beacon := some (s.life, 2) }
    let s : State := { s with net := { s.net with done := [(0x100, (3, result, ws))] } }
    exact ⟨p, q, ({ bh with srcv := true, src := 0x0100 } : Hdr), ⟨3, false, false, 0, 0x2104, []⟩, result, ws, s, by decide +kernel +zetaReduce⟩
  · let p : NetPort := .N
    let s : State := up
    let s : State := wUsable s p
    let s : State := { s with sys := { s.sys with straps := { s.sys.straps with role := true } } }
    exact ⟨p, bh, s, by decide +kernel +zetaReduce⟩

/-- States and operands that meet the hypotheses of `Obligations.PortRegisters`, clause by clause. -/
theorem test_PortRegisters_meets :
    (∃ (p : HostPort) (s : State), s.portOpen p = true ∧ s.jtExists (s.fld Reg.NET_JT_IDX_IDX) = true ∧
      s.net.members.look (s.fld Reg.NET_JT_IDX_IDX) = none) ∧
    (∃ (p : HostPort) (s : State), s.portOpen p = true ∧
      (s.net.members.look (s.fld Reg.NET_JT_IDX_IDX)).isSome = true) ∧
    (∃ (p : HostPort) (v : JtEntry) (s : State), s.portOpen p = true ∧
      s.net.jt.look (s.fld Reg.NET_JT_IDX_IDX) = some v) ∧
    (∃ (p : HostPort) (s : State), s.portOpen p = true) ∧
    (∃ (np : NetPort) (s : State), s.booted = true ∧ s.linked np = true) ∧
    (∃ (np : NetPort) (s : State), s.booted = true ∧ s.linked np = true) ∧
    (∃ (np : NetPort) (s : State), s.booted = true ∧ s.linked np = false) := by
  refine ⟨?_, ?_, ?_, ?_, ?_, ?_, ?_⟩
  · let s : State := up
    let s : State := s.setFld Reg.NET_JT_IDX_IDX 0 0 255
    exact ⟨.A, s, by decide +kernel +zetaReduce⟩
  · let s : State := up
    let s : State := s.setFld Reg.NET_JT_IDX_IDX 0 0 5
    let s : State := { s with net := { s.net with members := [(5, ⟨7, s.now, true, false, .N, .N, 5⟩)] } }
    exact ⟨.A, s, by decide +kernel +zetaReduce⟩
  · let v : JtEntry := ⟨9, 5, true⟩
    let s : State := up
    let s : State := s.setFld Reg.NET_JT_IDX_IDX 0 0 5
    let s : State := { s with net := { s.net with jt := [(5, v)] } }
    exact ⟨.A, v, s, by decide +kernel +zetaReduce⟩
  · exact ⟨.A, up, by decide +kernel⟩
  · let np : NetPort := .N
    let s : State := up
    let s : State := wLinked s np
    exact ⟨np, s, by decide +kernel +zetaReduce⟩
  · let np : NetPort := .N
    let s : State := up
    let s : State := wLinked s np
    exact ⟨np, s, by decide +kernel +zetaReduce⟩
  · exact ⟨.N, up, by decide +kernel⟩

/-- States and operands that meet the hypotheses of `Obligations.LinkChanges`, clause by clause. -/
theorem test_LinkChanges_meets :
    (∃ (p : NetPort) (s : State), s.sys.inReset = false ∧ s.linked p = true) ∧
    (∃ (p : NetPort) (s : State), s.sys.inReset = false ∧ s.flag Reg.NET_STATUS_EN p.ix = true ∧
      s.flag Reg.NET_STATUS_LINK p.ix = false) ∧
    (∃ (p : NetPort) (t0 : Tm) (s : State), s.booted = true ∧ s.linked p = true ∧ s.usable p = false ∧
      (s.port p).restoring = some t0 ∧ s.past t0 (s.fld Reg.NET_RESTORE_MS p.ix) = true) := by
  refine ⟨?_, ?_, ?_⟩
  · let p : NetPort := .N
    let s : State := up
    let s : State := { s with sys := { s.sys with inReset := false } }
    let s : State := wLinked s p
    exact ⟨p, s, by decide +kernel +zetaReduce⟩
  · let p : NetPort := .N
    let s : State := up
    let s : State := { s with sys := { s.sys with inReset := false } }
    let s : State := s.setFlag Reg.NET_STATUS_EN p.ix 0 (true)
    exact ⟨p, s, by decide +kernel +zetaReduce⟩
  · let p : NetPort := .N
    let t0 : Tm := 12345678901234
    let s : State := up
    let s : State := wLinked s p
    let s : State := s.setPort p { s.port p with restoring := some t0 }
    exact ⟨p, t0, s, by decide +kernel +zetaReduce⟩

/-- States and operands that meet the hypotheses of `Obligations.TwinFrames`, clause by clause. -/
theorem test_TwinFrames_meets :
    (∃ (s : State), s.twinOpen = true) ∧
    (∃ (m : TwRoleMsg) (s : State), s.twinOpen = true ∧ s.usable .T = true ∧ s.role = 0 ∧ m.role.val = 1 ∧
      m.request.val = 0) ∧
    (∃ (m : TwRoleMsg) (s : State), s.twinOpen = true ∧ s.role = 2 ∧ s.twn.handover = none ∧ m.request.val = 1) ∧
    (∃ (s : State), s.twinOpen = true ∧ s.role = 4) ∧
    (∃ (s : State), s.twinOpen = true ∧ s.role = 4 ∧ s.fld Reg.TWN_STATUS_PHASE < 4 ∧ s.twn.handover = none) ∧
    (∃ (m : TwSampleMsg) (s : State), s.twinOpen = true ∧ s.role = 2 ∧ s.twn.handover = none ∧ s.twn.nextK ≤ m.k) ∧
    (∃ (k : Int) (s : State), s.twinOpen = true ∧ s.role = 2 ∧ s.twn.handover = none ∧ s.twn.nextK ≤ k) ∧
    (∃ (s : State), s.twinOpen = true ∧ s.role = 4 ∧ s.fld Reg.TWN_STATUS_PHASE < 4) := by
  refine ⟨?_, ?_, ?_, ?_, ?_, ?_, ?_, ?_⟩
  · let s : State := up
    let s : State := wLinked (wPair s) .T
    exact ⟨s, by decide +kernel +zetaReduce⟩
  · let s : State := up
    let s : State := wLinked (wPair s) .T
    let s : State := wUsable s .T
    let s : State := (wPair s).setFld Reg.TWN_STATUS_ROLE 0 0 0
    exact ⟨({ (default : TwRoleMsg) with role := 1 } : TwRoleMsg), s, by decide +kernel +zetaReduce⟩
  · let s : State := up
    let s : State := wLinked (wPair s) .T
    let s : State := (wPair s).setFld Reg.TWN_STATUS_ROLE 0 0 2
    exact ⟨({ (default : TwRoleMsg) with request := 1 } : TwRoleMsg), s, by decide +kernel +zetaReduce⟩
  · let s : State := up
    let s : State := wLinked (wPair s) .T
    let s : State := (wPair s).setFld Reg.TWN_STATUS_ROLE 0 0 4
    exact ⟨s, by decide +kernel +zetaReduce⟩
  · let s : State := up
    let s : State := wLinked (wPair s) .T
    let s : State := (wPair s).setFld Reg.TWN_STATUS_ROLE 0 0 4
    exact ⟨s, by decide +kernel +zetaReduce⟩
  · let s : State := up
    let s : State := wLinked (wPair s) .T
    let s : State := (wPair s).setFld Reg.TWN_STATUS_ROLE 0 0 2
    exact ⟨default, s, by decide +kernel +zetaReduce⟩
  · let s : State := up
    let s : State := wLinked (wPair s) .T
    let s : State := (wPair s).setFld Reg.TWN_STATUS_ROLE 0 0 2
    exact ⟨1, s, by decide +kernel +zetaReduce⟩
  · let s : State := up
    let s : State := wLinked (wPair s) .T
    let s : State := (wPair s).setFld Reg.TWN_STATUS_ROLE 0 0 4
    exact ⟨s, by decide +kernel +zetaReduce⟩

/-- States and operands that meet the hypotheses of `Obligations.TwinComparison`, clause by clause. -/
theorem test_TwinComparison_meets :
    (∃ (e : TwCheckMsg) (s : State), s.twinOpen = true ∧ s.role = 2 ∧ (∀ r, r ∈ s.twn.own →
      State.sameCheck r e.control e.stream.val e.n.toNat = false)) ∧
    (∃ (e : TwCheckMsg) (r : TwCheckRec) (s : State), s.twinOpen = true ∧ s.role = 2 ∧
      s.twn.own.find? (fun r => State.sameCheck r e.control e.stream.val e.n.toNat) = some r ∧ r.crc = e.crc) ∧
    (∃ (e : TwCheckMsg) (r : TwCheckRec) (s : State), s.twinOpen = true ∧ s.role = 2 ∧
      s.twn.own.find? (fun r => State.sameCheck r e.control e.stream.val e.n.toNat) = some r ∧ r.crc ≠ e.crc) ∧
    (∃ (e : TwCheckMsg) (b : Block) (s : State), s.twinOpen = true ∧ s.leads = true ∧
      s.flag Reg.TWN_STATUS_LINK = true ∧ e.control = false ∧ b ∈ (s.stream e.stream.val).blocks ∧ w32 b.bseq = e.n) ∧
    (∃ (s : State), s.twinOpen = true ∧ s.leads = true) ∧
    (∃ (r : TwCheckRec) (s : State), s.sys.straps.pair = true ∧ s.role = 2 ∧
      s.twn.own.find? (fun r => s.past r.at_ 10) = some r) ∧
    (∃ (ch : Fin 256) (x : XWin) (s : State), s.sys.straps.pair = true ∧ s.role = 2 ∧
      s.twn.cross.look ch.val = some x ∧ s.fld Reg.TWN_XCHK_XWIN * 256 ≤ x.n ∧ x.bad = true) ∧
    (∃ (ch : Fin 256) (x : XWin) (s : State), s.sys.straps.pair = true ∧ s.role = 2 ∧
      s.twn.cross.look ch.val = some x ∧ s.fld Reg.TWN_XCHK_XWIN * 256 ≤ x.n ∧ x.bad = false ∧
      x.sum.natAbs * 1000000 ≤ s.fld Reg.TWN_XCHK_XTOL * 2147483648 * x.n) ∧
    (∃ (ch : Fin 256) (x : XWin) (s : State), s.sys.straps.pair = true ∧ s.role = 2 ∧
      s.twn.cross.look ch.val = some x ∧ s.fld Reg.TWN_XCHK_XWIN * 256 ≤ x.n ∧ x.bad = false ∧
      s.fld Reg.TWN_XCHK_XTOL * 2147483648 * x.n < x.sum.natAbs * 1000000 ∧ s.fld Reg.TWN_XCHK_XCOUNT ≤ x.fails + 1 ∧
      s.twn.selfRun = none) := by
  refine ⟨?_, ?_, ?_, ?_, ?_, ?_, ?_, ?_, ?_⟩
  · let s : State := up
    let s : State := wLinked (wPair s) .T
    let s : State := (wPair s).setFld Reg.TWN_STATUS_ROLE 0 0 2
    exact ⟨default, s, by decide +kernel +zetaReduce⟩
  · let r : TwCheckRec := ⟨false, 3, 9, 8, 1⟩
    let s : State := up
    let s : State := wLinked (wPair s) .T
    let s : State := (wPair s).setFld Reg.TWN_STATUS_ROLE 0 0 2
    let s : State := { s with twn := { s.twn with own := [r] } }
    exact ⟨({ (default : TwCheckMsg) with control := false, stream := 3, n := 9, crc := 8 } : TwCheckMsg), r, s, by decide +kernel +zetaReduce⟩
  · let r : TwCheckRec := ⟨false, 3, 9, 8, 1⟩
    let s : State := up
    let s : State := wLinked (wPair s) .T
    let s : State := (wPair s).setFld Reg.TWN_STATUS_ROLE 0 0 2
    let s : State := { s with twn := { s.twn with own := [r] } }
    exact ⟨({ (default : TwCheckMsg) with control := false, stream := 3, n := 9, crc := 7 } : TwCheckMsg), r, s, by decide +kernel +zetaReduce⟩
  · let b : Block := { (default : Block) with bseq := 9 }
    let s : State := up
    let s : State := wLinked (wPair s) .T
    let s : State := (wPair s).setFld Reg.TWN_STATUS_ROLE 0 0 1
    let s : State := s.setFlag Reg.TWN_STATUS_LINK 0 0 (true)
    let s : State := s.setStream 3 { s.stream 3 with blocks := [b] }
    exact ⟨({ (default : TwCheckMsg) with control := false, stream := 3, n := 9, crc := 7 } : TwCheckMsg), b, s, by decide +kernel +zetaReduce⟩
  · let s : State := up
    let s : State := wLinked (wPair s) .T
    let s : State := (wPair s).setFld Reg.TWN_STATUS_ROLE 0 0 1
    exact ⟨s, by decide +kernel +zetaReduce⟩
  · let r : TwCheckRec := ⟨false, 3, 9, 8, 0⟩
    let s : State := up
    let s : State := wPair s
    let s : State := (wPair s).setFld Reg.TWN_STATUS_ROLE 0 0 2
    let s : State := { s with twn := { s.twn with own := [r] } }
    exact ⟨r, s, by decide +kernel +zetaReduce⟩
  · let ch : Fin 256 := 255
    let x : XWin := ⟨5, 51200, true, 0⟩
    let s : State := up
    let s : State := wPair s
    let s : State := (wPair s).setFld Reg.TWN_STATUS_ROLE 0 0 2
    let s : State := { s with twn := { s.twn with cross := s.twn.cross.put ch.val x } }
    let s : State := { s with twn := { s.twn with cross := [(ch.val, x)] } }
    exact ⟨ch, x, s, by decide +kernel +zetaReduce⟩
  · let ch : Fin 256 := 255
    let x : XWin := ⟨5, 51200, false, 0⟩
    let s : State := up
    let s : State := wPair s
    let s : State := (wPair s).setFld Reg.TWN_STATUS_ROLE 0 0 2
    let s : State := { s with twn := { s.twn with cross := s.twn.cross.put ch.val x } }
    let s : State := { s with twn := { s.twn with cross := [(ch.val, x)] } }
    exact ⟨ch, x, s, by decide +kernel +zetaReduce⟩
  · let ch : Fin 256 := 255
    let x : XWin := ⟨549755813888000, 51200, false, 254⟩
    let s : State := up
    let s : State := wPair s
    let s : State := (wPair s).setFld Reg.TWN_STATUS_ROLE 0 0 2
    let s : State := { s with twn := { s.twn with cross := s.twn.cross.put ch.val x } }
    let s : State := { s with twn := { s.twn with cross := [(ch.val, x)] } }
    exact ⟨ch, x, s, by decide +kernel +zetaReduce⟩

/-- States and operands that meet the hypotheses of `Obligations.SelfCheckAndDrive`, clause by clause. -/
theorem test_SelfCheckAndDrive_meets :
    (∃ (p : HostPort) (s : State), s.portOpen p = true ∧ s.sys.straps.pair = true ∧ s.twn.selfRun = none) ∧
    (∃ (p : HostPort) (r : SelfRun) (s : State), s.portOpen p = true ∧ s.twn.selfRun = some r) ∧
    (∃ (r : SelfRun) (s : State), s.twn.selfRun = some r ∧ r.host = true ∧ r.analog = false ∧ s.sramFails = false) ∧
    (∃ (r : SelfRun) (s : State), s.twn.selfRun = some r ∧ r.analog = false ∧ s.sramFails = true) ∧
    (∃ (r : SelfRun) (s : State), s.twn.selfRun = some r ∧ r.analog = true ∧ r.host = false ∧ r.ended = true ∧
      r.own = 0) ∧
    (∃ (r : SelfRun) (s : State), s.twn.selfRun = some r ∧ r.analog = true ∧ r.ended = false) ∧
    (∃ (r : SelfRun) (x : SelfResult) (s : State), s.twn.selfRun = some r ∧ r.host = false ∧ r.analog = false ∧
      r.twin = 0 ∧ (x.isSome = true ∨ s.sramFails = false)) ∧
    (∃ (r : SelfRun) (s : State), s.sys.straps.pair = true ∧ s.role = 2 ∧ s.twn.selfRun = some r ∧ r.host = false ∧
      r.analog = false ∧ r.twin = 1) ∧
    (∃ (r : SelfRun) (s : State), s.twn.selfRun = some r ∧ r.own ≠ 0 ∧ r.twin = 0 ∧ s.past r.ownAt 1000 = true) ∧
    (∃ (s : State), s.booted = true ∧ s.sys.straps.pair = true) ∧
    (∃ (silent : Bool) (s : State), s.booted = true ∧ s.sys.straps.pair = true ∧
      s.flag Reg.TWN_STATUS_TWHB_LIVE = silent ∧ (silent = false ∨ (∀ t0, s.twn.twhbEdge = some t0 →
      t0 + s.fld Reg.TWN_TWHB_CFG_TIMEOUT * 1000 * Config.unitsPerNs ≤ s.life))) ∧
    (∃ (s : State), s.sys.inReset = false) ∧
    (∃ (s : State), s.sys.inReset = false ∧ s.twn.drive = true ∧ s.sys.straps.pair = true ∧
      s.sys.straps.twin = true ∧ s.life ≤ s.twn.driveAt + 1000 * Config.unitsPerNs) := by
  refine ⟨?_, ?_, ?_, ?_, ?_, ?_, ?_, ?_, ?_, ?_, ?_, ?_, ?_⟩
  · let s : State := up
    let s : State := wPair s
    exact ⟨.A, s, by decide +kernel +zetaReduce⟩
  · let r : SelfRun := { (default : SelfRun) with analog := true, chan := 3 }
    let s : State := up
    let s : State := { s with twn := { s.twn with selfRun := some r } }
    let s : State := wPair s
    let s : State := { s with twn := { s.twn with selfRun := some r } }
    exact ⟨.A, r, s, by decide +kernel +zetaReduce⟩
  · let r : SelfRun := { (default : SelfRun) with host := true, chan := 3 }
    let s : State := up
    let s : State := { s with twn := { s.twn with selfRun := some r } }
    let s : State := wPair s
    let s : State := { s with twn := { s.twn with selfRun := some r } }
    exact ⟨r, s, by decide +kernel +zetaReduce⟩
  · let r : SelfRun := { (default : SelfRun) with chan := 3 }
    let s : State := up
    let s : State := { s with twn := { s.twn with selfRun := some r } }
    let s : State := wPair s
    let s : State := { s with twn := { s.twn with selfRun := some r } }
    let s : State := s.setQueue 3 { s.queue 3 with words := [⟨5, 1, true⟩] }
    exact ⟨r, s, by decide +kernel +zetaReduce⟩
  · let r : SelfRun := { (default : SelfRun) with analog := true, ended := true, fails := true }
    let s : State := up
    let s : State := { s with twn := { s.twn with selfRun := some r } }
    let s : State := wPair s
    let s : State := { s with twn := { s.twn with selfRun := some r } }
    exact ⟨r, s, by decide +kernel +zetaReduce⟩
  · let r : SelfRun := { (default : SelfRun) with analog := true }
    let s : State := up
    let s : State := { s with twn := { s.twn with selfRun := some r } }
    let s : State := wPair s
    let s : State := { s with twn := { s.twn with selfRun := some r } }
    exact ⟨r, s, by decide +kernel +zetaReduce⟩
  · let r : SelfRun := { (default : SelfRun) with chan := 3 }
    let s : State := up
    let s : State := { s with twn := { s.twn with selfRun := some r } }
    let s : State := wPair s
    let s : State := { s with twn := { s.twn with selfRun := some r } }
    exact ⟨r, none, s, by decide +kernel +zetaReduce⟩
  · let r : SelfRun := { (default : SelfRun) with twin := 1 }
    let s : State := up
    let s : State := wPair s
    let s : State := (wPair s).setFld Reg.TWN_STATUS_ROLE 0 0 2
    let s : State := { s with twn := { s.twn with selfRun := some r } }
    let s : State := wPair s
    let s : State := s.setFld Reg.TWN_STATUS_ROLE 0 0 2
    let s : State := { s with twn := { s.twn with selfRun := some r } }
    exact ⟨r, s, by decide +kernel +zetaReduce⟩
  · let r : SelfRun := { (default : SelfRun) with own := 1, ownAt := 5 }
    let s : State := up
    let s : State := wPair s
    let s : State := { s with twn := { s.twn with selfRun := some r } }
    exact ⟨r, s, by decide +kernel +zetaReduce⟩
  · let s : State := up
    let s : State := wPair s
    exact ⟨s, by decide +kernel +zetaReduce⟩
  · let silent : Bool := true
    let s : State := up
    let s : State := wPair s
    let s : State := s.setFlag Reg.TWN_STATUS_TWHB_LIVE 0 0 (silent)
    exact ⟨silent, s, by decide +kernel +zetaReduce⟩
  · let s : State := up
    let s : State := { s with sys := { s.sys with inReset := false } }
    exact ⟨s, by decide +kernel +zetaReduce⟩
  · let s : State := up
    let s : State := wPair s
    let s : State := { s with sys := { s.sys with straps := { s.sys.straps with twin := true } } }
    let s : State := { s with twn := { s.twn with drive := true, driveAt := s.life } }
    exact ⟨s, by decide +kernel +zetaReduce⟩

/-- States and operands that meet the hypotheses of `Obligations.RolesAndHandover`, clause by clause. -/
theorem test_RolesAndHandover_meets :
    (∃ (s : State), s.twinOpen = true) ∧
    (∃ (p : HostPort) (s : State), s.portOpen p = true ∧ s.sys.straps.pair = true ∧ s.role = 1 ∧
      s.twn.handover = none) ∧
    (∃ (p : HostPort) (s : State), s.portOpen p = true ∧ s.sys.straps.pair = true ∧ s.role = 5) ∧
    (∃ (p : HostPort) (s : State), s.portOpen p = true ∧ (s.sys.straps.pair = false ∨ s.role ≠ 5)) ∧
    (∃ (p : HostPort) (a : BitVec 16) (s : State), s.booted = true ∧ s.bound p = true ∧ s.sys.straps.pair = true ∧
      s.hasAddr = true ∧ a.toNat = s.addr ∧ (s.role = 0 ∨ s.role = 2 ∨ s.role = 3 ∨ s.role = 4) ∧
      s.pins.driveMon = false) ∧
    (∃ (p : HostPort) (a : BitVec 16) (s : State), s.booted = true ∧ s.bound p = true ∧ s.sys.straps.pair = true ∧
      s.hasAddr = true ∧ a.toNat = s.addr ∧ (s.role = 0 ∨ s.role = 2 ∨ s.role = 3 ∨ s.role = 4) ∧
      s.pins.driveMon = false ∧ s.flag Reg.TWN_STATUS_TWHB_LIVE = false) ∧
    (∃ (p : HostPort) (a : BitVec 16) (s : State), s.booted = true ∧ s.bound p = true ∧ s.sys.straps.pair = true ∧
      s.hasAddr = true ∧ a.toNat = s.addr ∧ s.role = 1 ∧ s.twn.handover = none) ∧
    (∃ (p : HostPort) (s : State), s.portOpen p = true) ∧
    (∃ (s : State), s.booted = true ∧ s.sys.straps.pair = true ∧ s.role = 0 ∧ s.flag Reg.TWN_STATUS_LINK = true ∧
      (s.fld Reg.TWN_STATUS_TWIN_ROLE = 5 ∨ (s.fld Reg.TWN_STATUS_TWIN_ROLE = 0 ∧ s.sys.straps.twin = false)) ∧
      s.flag Reg.SYS_JOIN_STATUS_JOINED = true ∧ s.pins.driveMon = false ∧ s.pins.testen = false) ∧
    (∃ (t0 : Tm) (s : State), s.booted = true ∧ s.sys.straps.pair = true ∧ s.role = 1 ∧ s.twn.handover = none ∧
      s.twn.netLost = some t0 ∧ s.fld Reg.TWN_TW_CFG_NETYIELD ≠ 0 ∧
      s.past t0 (s.fld Reg.TWN_TW_CFG_NETYIELD) = true) ∧
    (∃ (h : Handover) (s : State), s.sys.straps.pair = true ∧ s.twn.handover = some h ∧ h.past = false ∧
      h.alone = false ∧ h.yields = true ∧ h.acked = true ∧ h.kH ≤ s.tim.k) ∧
    (∃ (h : Handover) (s : State), s.sys.straps.pair = true ∧ s.twn.handover = some h ∧ h.past = false ∧
      h.alone = false ∧ h.yields = false ∧ h.kH ≤ s.tim.k ∧ s.twn.drive = false ∧ s.pins.driveMon = false ∧
      s.pins.testen = false) ∧
    (∃ (h : Handover) (s : State), s.sys.straps.pair = true ∧ s.twn.handover = some h ∧ h.past = true ∧
      h.yields = true ∧ s.twn.blendLeft = 0) ∧
    (∃ (c : Fin 3) (s : State), s.booted = true ∧ s.sys.straps.pair = true ∧ s.role = 2 ∧ s.twn.handover = none ∧
      s.frameMissing c = true) ∧
    (∃ (st : Fin 64) (b : Block) (rest : List Block) (s : State), s.uncompared = true ∧
      (s.stream st.val).blocks = b :: rest ∧ b.closedNs + s.fld Reg.CRY_S_OUTAGE_MS 0 st.val * 1000000 ≤ s.lifeNs) ∧
    (∃ (s : State), s.sys.straps.pair = true ∧ s.role = 1 ∧ 0 < s.fld Reg.TWN_STATUS_PHASE ∧
      s.fld Reg.TWN_STATUS_PHASE < 5) ∧
    (∃ (s : State), s.sys.straps.pair = true ∧ s.role = 4 ∧ s.fld Reg.TWN_STATUS_PHASE = 5) := by
  refine ⟨?_, ?_, ?_, ?_, ?_, ?_, ?_, ?_, ?_, ?_, ?_, ?_, ?_, ?_, ?_, ?_, ?_⟩
  · let s : State := up
    let s : State := wLinked (wPair s) .T
    exact ⟨s, by decide +kernel +zetaReduce⟩
  · let s : State := up
    let s : State := wPair s
    let s : State := (wPair s).setFld Reg.TWN_STATUS_ROLE 0 0 1
    exact ⟨.A, s, by decide +kernel +zetaReduce⟩
  · let s : State := up
    let s : State := wPair s
    let s : State := (wPair s).setFld Reg.TWN_STATUS_ROLE 0 0 5
    exact ⟨.A, s, by decide +kernel +zetaReduce⟩
  · let s : State := up
    let s : State := { s with sys := { s.sys with straps := { s.sys.straps with pair := false } } }
    exact ⟨.A, s, by decide +kernel +zetaReduce⟩
  · let a : BitVec 16 := 0x0103
    let s : State := up
    let s : State := s.setFld Reg.HP_CTRL_NETBIND 0 0 1
    let s : State := wPair s
    let s : State := s.setFlag Reg.SYS_ADDR_VALID 0 0 true
    let s : State := s.setFld Reg.SYS_ADDR 0 0 a.toNat
    let s : State := s.setFld Reg.TWN_STATUS_ROLE 0 0 3
    exact ⟨.A, a, s, by decide +kernel +zetaReduce⟩
  · let a : BitVec 16 := 0x0103
    let s : State := up
    let s : State := s.setFld Reg.HP_CTRL_NETBIND 0 0 1
    let s : State := wPair s
    let s : State := s.setFlag Reg.SYS_ADDR_VALID 0 0 true
    let s : State := s.setFld Reg.SYS_ADDR 0 0 a.toNat
    let s : State := s.setFld Reg.TWN_STATUS_ROLE 0 0 4
    exact ⟨.A, a, s, by decide +kernel +zetaReduce⟩
  · let a : BitVec 16 := 0x0103
    let s : State := up
    let s : State := s.setFld Reg.HP_CTRL_NETBIND 0 0 1
    let s : State := wPair s
    let s : State := s.setFlag Reg.SYS_ADDR_VALID 0 0 true
    let s : State := s.setFld Reg.SYS_ADDR 0 0 a.toNat
    let s : State := s.setFld Reg.TWN_STATUS_ROLE 0 0 1
    exact ⟨.A, a, s, by decide +kernel +zetaReduce⟩
  · exact ⟨.A, up, by decide +kernel⟩
  · let s : State := up
    let s : State := wPair s
    let s : State := (wPair s).setFld Reg.TWN_STATUS_ROLE 0 0 0
    let s : State := s.setFlag Reg.TWN_STATUS_LINK 0 0 (true)
    let s : State := s.setFld Reg.TWN_STATUS_TWIN_ROLE 0 0 (5)
    let s : State := s.setFlag Reg.SYS_JOIN_STATUS_JOINED 0 0 (true)
    let s : State := { s with pins := { s.pins with driveMon := false } }
    let s : State := { s with pins := { s.pins with testen := false } }
    exact ⟨s, by decide +kernel +zetaReduce⟩
  · let t0 : Tm := 12345678901234
    let s : State := up
    let s : State := wPair s
    let s : State := (wPair s).setFld Reg.TWN_STATUS_ROLE 0 0 1
    let s : State := { s with twn := { s.twn with netLost := some t0 } }
    let s : State := s.setFld Reg.TWN_TW_CFG_NETYIELD 0 0 1
    exact ⟨t0, s, by decide +kernel +zetaReduce⟩
  · let h : Handover := ⟨5, true, true, false, 1, false, false⟩
    let s : State := up
    let s : State := wPair s
    let s : State := { s with twn := { s.twn with handover := some h } }
    let s : State := { s with twn := { s.twn with handover := some h } }
    let s : State := { s with tim := { s.tim with k := 5 } }
    exact ⟨h, s, by decide +kernel +zetaReduce⟩
  · let h : Handover := default
    let s : State := up
    let s : State := wPair s
    let s : State := { s with twn := { s.twn with handover := some h } }
    let s : State := { s with twn := { s.twn with drive := false } }
    let s : State := { s with pins := { s.pins with driveMon := false } }
    let s : State := { s with pins := { s.pins with testen := false } }
    exact ⟨h, s, by decide +kernel +zetaReduce⟩
  · let h : Handover := ⟨5, true, true, true, 1, true, false⟩
    let s : State := up
    let s : State := wPair s
    let s : State := { s with twn := { s.twn with handover := some h } }
    let s : State := { s with twn := { s.twn with blendLeft := 0 } }
    let s : State := { s with twn := { s.twn with handover := some h } }
    exact ⟨h, s, by decide +kernel +zetaReduce⟩
  · let s : State := up
    let s : State := wPair s
    let s : State := (wPair s).setFld Reg.TWN_STATUS_ROLE 0 0 2
    exact ⟨1, s, by decide +kernel +zetaReduce⟩
  · let st : Fin 64 := 63
    let b : Block := { (default : Block) with closedNs := 1000 }
    let s : State := up
    let s : State := (wPair s).setFld Reg.TWN_STATUS_ROLE 0 0 3
    let s : State := s.setFld Reg.CRY_S_OUTAGE_MS 0 st.val 100
    let s : State := s.setStream st.val { s.stream st.val with blocks := [b] }
    exact ⟨st, b, [], s, by decide +kernel +zetaReduce⟩
  · let s : State := up
    let s : State := (wPair s).setFld Reg.TWN_STATUS_ROLE 0 0 1
    let s : State := s.setFld Reg.TWN_STATUS_PHASE 0 0 4
    exact ⟨s, by decide +kernel +zetaReduce⟩
  · let s : State := up
    let s : State := wPair s
    let s : State := (wPair s).setFld Reg.TWN_STATUS_ROLE 0 0 4
    let s : State := s.setFld Reg.TWN_STATUS_PHASE 0 0 (5)
    exact ⟨s, by decide +kernel +zetaReduce⟩

/-- States and operands that meet the hypotheses of `Obligations.PtpMessages`, clause by clause. -/
theorem test_PtpMessages_meets :
    (∃ (p : NetPort) (m : PtpMsg) (s : State), s.booted = true ∧ s.linked p = true ∧
      s.ptpAdmits p m.domain.toNat m.version = true ∧ s.isManager = false ∧ m.oneStep = false) ∧
    (∃ (m : PtpMsg) (s : State), s.booted = true ∧ s.linked .M = true ∧
      s.ptpAdmits .M m.domain.toNat m.version = true ∧ s.hears .M m.sender = true ∧ m.oneStep = true) ∧
    (∃ (m : PtpMsg) (s : State), s.booted = true ∧ s.linked .M = true ∧
      s.ptpAdmits .M m.domain.toNat m.version = true ∧ s.hears .M m.sender = true ∧ m.oneStep = false) ∧
    (∃ (p : NetPort) (m : PtpMsg) (s : State), s.booted = true ∧ s.linked p = true ∧
      s.ptpAdmits p m.domain.toNat m.version = false) ∧
    (∃ (p : NetPort) (m : PtpMsg) (t2 : Tm) (c : Int) (s : State), s.booted = true ∧ s.linked p = true ∧
      s.ptpAdmits p m.domain.toNat m.version = true ∧ s.hears p m.sender = true ∧
      (s.path p).sync = some (m.seq, t2, c)) ∧
    (∃ (p : NetPort) (m : PtpMsg) (s : State), s.booted = true ∧ s.linked p = true ∧
      s.ptpAdmits p m.domain.toNat m.version = true ∧ s.isManager = false) ∧
    (∃ (p : NetPort) (m : PtpMsg) (s : State), s.booted = true ∧ s.linked p = true ∧
      s.ptpAdmits p m.domain.toNat m.version = true ∧ s.isManager = true ∧ p ≠ .M) ∧
    (∃ (p : NetPort) (m : PtpMsg) (s : State), s.booted = true ∧ s.linked p = true ∧
      s.ptpAdmits p m.domain.toNat m.version = true ∧ s.isManager = false) ∧
    (∃ (p : NetPort) (m : PtpMsg) (t1 t2 t3 : Tm) (cs : Int) (s : State), s.booted = true ∧ s.linked p = true ∧
      s.ptpAdmits p m.domain.toNat m.version = true ∧ m.forUs = true ∧ (s.path p).t12 = some (t1, t2, cs) ∧
      (s.path p).t3 = some (m.seq, t3)) ∧
    (∃ (m : PtpAnnounceMsg) (s : State), s.booted = true ∧ s.linked .M = true ∧
      s.ptpAdmits .M m.domain.toNat m.version = true ∧ s.bestMaster m = true) ∧
    (∃ (m : PtpAnnounceMsg) (s : State), s.booted = true ∧ s.linked .M = true ∧
      s.ptpAdmits .M m.domain.toNat m.version = true ∧ s.bestMaster m = false) ∧
    (∃ (p : NetPort) (s : State), s.booted = true ∧ s.linked p = true ∧ s.isManager = true ∧ p.ring = true) ∧
    (∃ (p : NetPort) (s : State), s.booted = true ∧ s.linked p = true ∧ (p.ring = true ∧ s.isManager = false) ∨
      (p = .M ∧ s.isManager = true)) ∧
    (∃ (p : NetPort) (s : State), s.booted = true ∧ s.linked p = true ∧ s.isManager = true ∧ p.ring = true) := by
  refine ⟨?_, ?_, ?_, ?_, ?_, ?_, ?_, ?_, ?_, ?_, ?_, ?_, ?_, ?_⟩
  · let p : NetPort := .S
    let s : State := up
    let s : State := wLinked s p
    let s : State := { s with sys := { s.sys with straps := { s.sys.straps with role := false } } }
    exact ⟨p, ({ (default : PtpMsg) with version := 2, seq := 9, correction := 77, stamp := 1000, forUs := true, oneStep := false } : PtpMsg), s, by decide +kernel +zetaReduce⟩
  · let s : State := up
    let s : State := wLinked s .M
    let s : State := { s with sys := { s.sys with straps := { s.sys.straps with role := true } } }
    exact ⟨({ (default : PtpMsg) with version := 2, seq := 9, correction := 77, stamp := 1000, forUs := true, oneStep := true } : PtpMsg), s, by decide +kernel +zetaReduce⟩
  · let s : State := up
    let s : State := wLinked s .M
    let s : State := { s with sys := { s.sys with straps := { s.sys.straps with role := true } } }
    let s : State := wUsable s .M
    exact ⟨({ (default : PtpMsg) with version := 2, seq := 9, correction := 77, stamp := 1000, forUs := true, oneStep := false } : PtpMsg), s, by decide +kernel +zetaReduce⟩
  · let p : NetPort := .N
    let s : State := up
    let s : State := wLinked s p
    exact ⟨p, default, s, by decide +kernel +zetaReduce⟩
  · let p : NetPort := .N
    let m : PtpMsg :=
      { (default : PtpMsg) with version := 2, seq := 9, correction := 77, stamp := 1000, forUs := true, oneStep := false }
    let t2 : Tm := 99
    let c : Int := -5
    let s : State := up
    let s : State := wLinked s p
    let s : State := s.setPath p { s.path p with sync := some (m.seq, t2, c) }
    let s : State := s.setPath p { s.path p with sync := some (9, t2, c) }
    exact ⟨p, m, t2, c, s, by decide +kernel +zetaReduce⟩
  · let p : NetPort := .S
    let s : State := up
    let s : State := wLinked s p
    let s : State := { s with sys := { s.sys with straps := { s.sys.straps with role := false } } }
    let s : State := { s with sys := { s.sys with straps := { s.sys.straps with role := false } } }
    let s : State := wUsable s .S
    exact ⟨p, ({ (default : PtpMsg) with version := 2, seq := 9, correction := 77, stamp := 1000, forUs := true, oneStep := false } : PtpMsg), s, by decide +kernel +zetaReduce⟩
  · let p : NetPort := .N
    let s : State := up
    let s : State := wLinked s p
    let s : State := { s with sys := { s.sys with straps := { s.sys.straps with role := true } } }
    exact ⟨p, ({ (default : PtpMsg) with version := 2, seq := 9, correction := 77, stamp := 1000, forUs := true, oneStep := false } : PtpMsg), s, by decide +kernel +zetaReduce⟩
  · let p : NetPort := .N
    let s : State := up
    let s : State := wLinked s p
    let s : State := { s with sys := { s.sys with straps := { s.sys.straps with role := false } } }
    exact ⟨p, ({ (default : PtpMsg) with version := 2, seq := 9, correction := 77, stamp := 1000, forUs := true, oneStep := false } : PtpMsg), s, by decide +kernel +zetaReduce⟩
  · let p : NetPort := .N
    let m : PtpMsg :=
      { (default : PtpMsg) with version := 2, seq := 9, correction := 77, stamp := 1000, forUs := true, oneStep := false }
    let t1 : Tm := 100
    let t2 : Tm := 131172
    let t3 : Tm := 200000
    let cs : Int := 3
    let s : State := up
    let s : State := wLinked s p
    let s : State := s.setPath p { s.path p with t12 := some (t1, t2, cs) }
    let s : State := s.setPath p { s.path p with t3 := some (m.seq, t3) }
    let s : State := s.setPath p { s.path p with t12 := some (t1, t2, cs), t3 := some (m.seq, t3) }
    let s : State := wUsable s p
    exact ⟨p, m, t1, t2, t3, cs, s, by decide +kernel +zetaReduce⟩
  · let s : State := up
    let s : State := { s with sys := { s.sys with straps := { s.sys.straps with role := true } } }
    let s : State := wUsable s .M
    exact ⟨({ (default : PtpAnnounceMsg) with version := 2, gmId := 0x1122334455667788, clockClass := 6, accuracy := 0x21, variance := 5, utcOffset := 37, utcValid := true } : PtpAnnounceMsg), s, by decide +kernel +zetaReduce⟩
  · let s : State := up
    let s : State := { s with sys := { s.sys with straps := { s.sys.straps with role := true } } }
    let s : State := wUsable s .M
    let s : State :=
      { s with tim := { s.tim with gm := some ({ (default : PtpAnnounceMsg) with version := 2, sender := 1, prio1 := 100 }, s.life) } }
    exact ⟨({ (default : PtpAnnounceMsg) with version := 2, sender := 9, prio1 := 200 } : PtpAnnounceMsg), s, by decide +kernel +zetaReduce⟩
  · let p : NetPort := .N
    let s : State := up
    let s : State := wLinked s p
    let s : State := { s with sys := { s.sys with straps := { s.sys.straps with role := true } } }
    exact ⟨p, s, by decide +kernel +zetaReduce⟩
  · let p : NetPort := .N
    let s : State := up
    let s : State := wLinked s p
    exact ⟨p, s, by decide +kernel +zetaReduce⟩
  · let p : NetPort := .N
    let s : State := up
    let s : State := wLinked s p
    let s : State := { s with sys := { s.sys with straps := { s.sys.straps with role := true } } }
    exact ⟨p, s, by decide +kernel +zetaReduce⟩

/-- States and operands that meet the hypotheses of `Obligations.CounterAndTimeState`, clause by clause. -/
theorem test_CounterAndTimeState_meets :
    (∃ (p : HostPort) (s : State), s.portOpen p = true) ∧
    (∃ (p : HostPort) (s : State), s.portOpen p = true ∧ s.availNow .N = true) ∧
    (∃ (p : HostPort) (s : State), s.portOpen p = true ∧ s.availNow .S = true) ∧
    (∃ (p : HostPort) (s : State), s.portOpen p = true ∧ s.availNow .M = true) ∧
    (∃ (p : HostPort) (s : State), s.portOpen p = true ∧ s.availNow .N = false) ∧
    (∃ (p : HostPort) (s : State), s.portOpen p = true ∧ s.availNow .S = false) ∧
    (∃ (p : HostPort) (s : State), s.portOpen p = true ∧ s.availNow .M = false) ∧
    (∃ (s : State), s.booted = true ∧ s.timeState = 2 ∧ (∀ q, s.availNow q = false)) := by
  refine ⟨?_, ?_, ?_, ?_, ?_, ?_, ?_, ?_⟩
  · exact ⟨.A, up, by decide +kernel⟩
  · let s : State := up
    let s : State := s.setFld Reg.TIM_STATUS_STATE 0 0 3
    let s : State := wUsable s .N
    let s : State := s.setPath .N { s.path .N with doneAt := some s.life }
    let s : State := { s with sys := { s.sys with straps := { s.sys.straps with role := false } } }
    exact ⟨.A, s, by decide +kernel +zetaReduce⟩
  · let s : State := up
    let s : State := s.setFld Reg.TIM_STATUS_STATE 0 0 3
    let s : State := wUsable s .S
    let s : State := s.setPath .S { s.path .S with doneAt := some s.life }
    let s : State := { s with sys := { s.sys with straps := { s.sys.straps with role := false } } }
    exact ⟨.A, s, by decide +kernel +zetaReduce⟩
  · let s : State := up
    let s : State := s.setFld Reg.TIM_STATUS_STATE 0 0 3
    let s : State := wUsable s .M
    let s : State := s.setPath .M { s.path .M with doneAt := some s.life }
    let s : State := { s with sys := { s.sys with straps := { s.sys.straps with role := true } } }
    exact ⟨.A, s, by decide +kernel +zetaReduce⟩
  · exact ⟨.A, up, by decide +kernel⟩
  · exact ⟨.A, up, by decide +kernel⟩
  · exact ⟨.A, up, by decide +kernel⟩
  · let s : State := up
    let s : State := s.setFld Reg.TIM_STATUS_STATE 0 0 2
    exact ⟨s, ⟨by decide +kernel +zetaReduce, by decide +kernel +zetaReduce, by intro q; cases q <;> decide +kernel +zetaReduce⟩⟩

/-- States and operands that meet the hypotheses of `Obligations.PresenceAndBreaks`, clause by clause. -/
theorem test_PresenceAndBreaks_meets :
    (∃ (s : State), s.booted = true) ∧
    (∃ (s : State), s.booted = true) ∧
    (∃ (b p : Fin 16) (s : State), s.booted = true ∧ s.flag Reg.AFE_CH_PRES_EN b.val p.val = true ∧
      (s.presDue b.val true).testBit p.val = true ∧ (s.flag Reg.AFE_CH_PRES_EXC b.val p.val = false ∧
      (s.afeOf b.val).lostExc.testBit p.val = false) ∨ (s.flag Reg.AFE_STATUS_EXC_REG b.val = true ∧
      s.flag Reg.AFE_STATUS_EXC_FAULT b.val = false ∧ s.excDriven b.val = true) ∧
      (s.flag Reg.AFE_CH_PRES_EXC b.val p.val = true ∨ (s.afeOf b.val).lostExc.testBit p.val = false)) ∧
    (∃ (b p : Fin 16) (s : State), s.booted = true ∧ s.flag Reg.AFE_CH_PRES_EN b.val p.val = true ∧
      (s.presDue b.val true).testBit p.val = false ∧ (s.afeOf b.val).lostWin.testBit p.val = true) ∧
    (∃ (b p : Fin 16) (l : List PinDec) (s : State), s.booted = true ∧
      (s.fld Reg.AFE_BRK_STATUS_BREAK b.val).testBit p.val = false ∧ (∀ x, x ∈ l → State.outOfRange x = true) ∧
      l ≠ [] ∧ (s.afeOf b.val).brk.lookD p.val 0 + l.length = 64 ∧ (s.afeOf b.val).told + l.length ≤ 96) ∧
    (∃ (b p : Fin 16) (l : List PinDec) (s : State), s.booted = true ∧
      (s.fld Reg.AFE_BRK_STATUS_BREAK b.val).testBit p.val = true ∧ (∀ x, x ∈ l → State.outOfRange x = false) ∧
      l ≠ [] ∧ (s.afeOf b.val).brk.lookD p.val 0 + l.length = 4096 ∧ (s.afeOf b.val).told + l.length ≤ 96) ∧
    (∃ (b p : Fin 16) (l : List PinDec) (s : State), s.booted = true ∧
      (s.fld Reg.AFE_BRK_STATUS_BREAK b.val).testBit p.val = false ∧ (∀ x, x ∈ l → State.outOfRange x = true) ∧
      l ≠ [] ∧ (s.afeOf b.val).brk.lookD p.val 0 + l.length < 64 ∧ (s.afeOf b.val).told + l.length ≤ 96) := by
  refine ⟨?_, ?_, ?_, ?_, ?_, ?_, ?_⟩
  · exact ⟨up, by decide +kernel⟩
  · exact ⟨up, by decide +kernel⟩
  · let s : State := up
    let s : State := s.setFld Reg.AFE_CH_PRES_EN 15 15 1
    let s : State := s.setAfe 15 { s.afeOf 15 with runs := [(15, ⟨true, 100000⟩)], lostWin := 0x8000 }
    exact ⟨15, 15, s, by decide +kernel +zetaReduce⟩
  · let s : State := up
    let s : State := s.setFld Reg.AFE_CH_PRES_EN 15 15 1
    let s : State := s.setAfe 15 { s.afeOf 15 with runs := [], lostWin := 0x8000 }
    exact ⟨15, 15, s, by decide +kernel +zetaReduce⟩
  · let s : State := up
    let s : State := s.setAfe 15 { s.afeOf 15 with brk := [(15, 4)], told := 36 }
    exact ⟨15, 15, (List.replicate 60 ⟨true, 0, 0⟩), s, by decide +kernel +zetaReduce⟩
  · let s : State := up
    let s : State := s.setFld Reg.AFE_BRK_STATUS_BREAK 15 0 0x8000
    let s : State :=
      s.setAfe 15 { s.afeOf 15 with brk := [(15, 4006)], told := 6, breaks := [(15, [⟨9, none⟩])] }
    exact ⟨15, 15, (List.replicate 90 ⟨false, 0, 0⟩), s, by decide +kernel +zetaReduce⟩
  · exact ⟨15, 15, [⟨true, 0, 0⟩], up, by decide +kernel⟩

/-- States and operands that meet the hypotheses of `Obligations.ExcitationSteps`, clause by clause. -/
theorem test_ExcitationSteps_meets :
    (∃ (b : Fin 16) (s : State), s.follows = false ∧ s.excDriven b.val = true ∧
      s.flag Reg.AFE_STATUS_EXC_LIMIT b.val = false) ∧
    (∃ (b : Fin 16) (t0 : Tm) (s : State), s.flag Reg.AFE_STATUS_EXC_LIMIT b.val = true ∧
      (s.afeOf b.val).exc.limAt = some t0 ∧ s.faultDue b.val t0 = true) ∧
    (∃ (b : Fin 16) (t0 : Tm) (s : State), s.flag Reg.AFE_STATUS_EXC_REG b.val = false ∧
      (s.afeOf b.val).exc.satAt = some t0 ∧ s.faultDue b.val t0 = true) ∧
    (∃ (p : HostPort) (s : State), s.pageOpen p = true) ∧
    (∃ (b : Fin 16) (s : State), ((s.afeOf b.val).exc.phase = .ramp ∨ (s.afeOf b.val).exc.phase = .revUp)) ∧
    (∃ (b : Fin 16) (s : State), (s.afeOf b.val).exc.phase = .disable) ∧
    (∃ (b : Fin 16) (s : State), (s.afeOf b.val).exc.phase = .revRamp) ∧
    (∃ (b : Fin 16) (s : State), (s.afeOf b.val).exc.phase = .revOff) ∧
    (∃ (b : Fin 16) (s : State), (s.afeOf b.val).exc.phase = .revTurn) ∧
    (∃ (b : Fin 16) (s : State), (s.afeOf b.val).exc.phase = .bbm) ∧
    (∃ (b : Fin 16) (s : State), (s.afeOf b.val).exc.phase = .turnLate) ∧
    (∃ (b : Fin 16) (s : State), (s.afeOf b.val).exc.phase = .idle) := by
  refine ⟨?_, ?_, ?_, ?_, ?_, ?_, ?_, ?_, ?_, ?_, ?_, ?_⟩
  · let s : State := up
    let s : State := s.setExc 15 { (s.afeOf 15).exc with phase := .ramp }
    exact ⟨15, s, by decide +kernel +zetaReduce⟩
  · let b : Fin 16 := 1
    let t0 : Tm := 12345678901234
    let s : State := up
    let s : State := s.setFlag Reg.AFE_STATUS_EXC_LIMIT b.val 0 (true)
    let s : State :=
      s.setAfe b.val { s.afeOf b.val with exc := { (s.afeOf b.val).exc with limAt := some t0 } }
    exact ⟨b, t0, s, by decide +kernel +zetaReduce⟩
  · let b : Fin 16 := 1
    let t0 : Tm := 12345678901234
    let s : State := up
    let s : State :=
      s.setAfe b.val { s.afeOf b.val with exc := { (s.afeOf b.val).exc with satAt := some t0 } }
    exact ⟨b, t0, s, by decide +kernel +zetaReduce⟩
  · exact ⟨.A, up, by decide +kernel⟩
  · let b : Fin 16 := 1
    let s : State := up
    let s : State := s.setAfe b.val { s.afeOf b.val with exc := { (s.afeOf b.val).exc with phase := .ramp } }
    exact ⟨b, s, by decide +kernel +zetaReduce⟩
  · let b : Fin 16 := 1
    let s : State := up
    let s : State :=
      s.setAfe b.val { s.afeOf b.val with exc := { (s.afeOf b.val).exc with phase := .disable } }
    exact ⟨b, s, by decide +kernel +zetaReduce⟩
  · let b : Fin 16 := 1
    let s : State := up
    let s : State :=
      s.setAfe b.val { s.afeOf b.val with exc := { (s.afeOf b.val).exc with phase := .revRamp } }
    exact ⟨b, s, by decide +kernel +zetaReduce⟩
  · let b : Fin 16 := 1
    let s : State := up
    let s : State :=
      s.setAfe b.val { s.afeOf b.val with exc := { (s.afeOf b.val).exc with phase := .revOff } }
    exact ⟨b, s, by decide +kernel +zetaReduce⟩
  · let b : Fin 16 := 1
    let s : State := up
    let s : State :=
      s.setAfe b.val { s.afeOf b.val with exc := { (s.afeOf b.val).exc with phase := .revTurn } }
    exact ⟨b, s, by decide +kernel +zetaReduce⟩
  · let b : Fin 16 := 1
    let s : State := up
    let s : State := s.setAfe b.val { s.afeOf b.val with exc := { (s.afeOf b.val).exc with phase := .bbm } }
    exact ⟨b, s, by decide +kernel +zetaReduce⟩
  · let b : Fin 16 := 1
    let s : State := up
    let s : State :=
      s.setAfe b.val { s.afeOf b.val with exc := { (s.afeOf b.val).exc with phase := .turnLate } }
    exact ⟨b, s, by decide +kernel +zetaReduce⟩
  · let b : Fin 16 := 1
    let s : State := up
    let s : State := s.setAfe b.val { s.afeOf b.val with exc := { (s.afeOf b.val).exc with phase := .idle } }
    exact ⟨b, s, by decide +kernel +zetaReduce⟩

/-- States and operands that meet the hypotheses of `Obligations.TedsLine`, clause by clause. -/
theorem test_TedsLine_meets :
    (∃ (p : HostPort) (b : Fin 16) (s : State), s.pageOpen p = true ∧ s.twn.drive = true ∧
      s.flag Reg.AFE_STATUS_TEDS_BUSY b.val = false) ∧
    (∃ (p : HostPort) (b : Fin 16) (s : State), s.pageOpen p = true ∧ (s.twn.drive = false ∨
      s.flag Reg.AFE_STATUS_TEDS_BUSY b.val = true)) ∧
    (∃ (b : Fin 16) (s : State), s.fld Reg.AFE_TEDS_CTRL_PERIOD b.val ≠ 0 ∧ s.twn.drive = true ∧
      s.flag Reg.AFE_STATUS_TEDS_BUSY b.val = false) ∧
    (∃ (p : HostPort) (b : Fin 16) (s : State), s.pageOpen p = true ∧ s.twn.drive = true ∧
      s.flag Reg.AFE_STATUS_TEDS_BUSY b.val = false) ∧
    (∃ (p : HostPort) (b : Fin 16) (s : State), s.pageOpen p = true ∧ s.flag Reg.AFE_STATUS_TEDS_BUSY b.val = true) ∧
    (∃ (b : Fin 16) (x : BitVec 56) (c : Byte) (s : State), (s.afeOf b.val).tedsScanning = true ∧
      idSound (c ++ x) = true) ∧
    (∃ (b : Fin 16) (x : BitVec 56) (c : Byte) (s : State), (s.afeOf b.val).tedsScanning = true ∧
      idSound (c ++ x) = false) ∧
    (∃ (b : Fin 16) (s : State), (s.afeOf b.val).tedsScanning = true) ∧
    (∃ (b : Fin 16) (id : Nat) (s : State), (s.afeOf b.val).tedsReading = some id) := by
  refine ⟨?_, ?_, ?_, ?_, ?_, ?_, ?_, ?_, ?_⟩
  · let s : State := up
    let s : State := { s with twn := { s.twn with drive := true } }
    exact ⟨.A, 1, s, by decide +kernel +zetaReduce⟩
  · let s : State := up
    let s : State := { s with twn := { s.twn with drive := false } }
    exact ⟨.A, 1, s, by decide +kernel +zetaReduce⟩
  · let b : Fin 16 := 1
    let s : State := up
    let s : State := s.setFld Reg.AFE_TEDS_CTRL_PERIOD b.val 0 1
    let s : State := { s with twn := { s.twn with drive := true } }
    exact ⟨b, s, by decide +kernel +zetaReduce⟩
  · let s : State := up
    let s : State := { s with twn := { s.twn with drive := true } }
    exact ⟨.A, 1, s, by decide +kernel +zetaReduce⟩
  · let b : Fin 16 := 1
    let s : State := up
    let s : State := s.setFlag Reg.AFE_STATUS_TEDS_BUSY b.val 0 (true)
    exact ⟨.A, b, s, by decide +kernel +zetaReduce⟩
  · let b : Fin 16 := 15
    let s : State := up
    let s : State := s.setAfe b.val { s.afeOf b.val with tedsScanning := true }
    let s : State := s.setAfe 15 { s.afeOf 15 with tedsScanning := true }
    exact ⟨b, 0x00000000000000, 0x00, s, by decide +kernel +zetaReduce⟩
  · let b : Fin 16 := 15
    let s : State := up
    let s : State := s.setAfe b.val { s.afeOf b.val with tedsScanning := true }
    let s : State := s.setAfe 15 { s.afeOf 15 with tedsScanning := true }
    exact ⟨b, 0x00000000000000, 0x11, s, by decide +kernel +zetaReduce⟩
  · let b : Fin 16 := 1
    let s : State := up
    let s : State := s.setAfe b.val { s.afeOf b.val with tedsScanning := true }
    exact ⟨b, s, by decide +kernel +zetaReduce⟩
  · let b : Fin 16 := 1
    let id : Nat := 1
    let s : State := up
    let s : State := s.setAfe b.val { s.afeOf b.val with tedsReading := some id }
    exact ⟨b, id, s, by decide +kernel +zetaReduce⟩

/-- States and operands that meet the hypotheses of `Obligations.CalibrationRound`, clause by clause. -/
theorem test_CalibrationRound_meets :
    (∃ (s : State), s.sys.inReset = false) ∧
    (∃ (b : Fin 16) (j : Nat) (s : State), j = s.fld Reg.AFE_CH_GAIN b.val (s.round b.val).pos ∧
      (s.round b.val).step = 1 ∧ (s.round b.val).measured = false ∧
      (s.round b.val).sRef + calSpan s (s.round b.val) j ≤ s.tim.k + 1) ∧
    (∃ (b : Fin 16) (j : Nat) (s : State), j = s.fld Reg.AFE_CH_GAIN b.val (s.round b.val).pos ∧
      (s.round b.val).step = 5 ∧ (s.round b.val).measured = false ∧
      (s.round b.val).sRef + 8 + (s.round b.val).cycL + calSpan s (s.round b.val) j ≤ s.tim.k + 1) ∧
    (∃ (b : Fin 16) (s : State), (s.round b.val).measured = true) ∧
    (∃ (b : Fin 16) (s : State), ((s.round b.val).step = 3 ∨ (s.round b.val).step = 7) ∧
      s.tim.k + 1 = (s.round b.val).sRef + 8) ∧
    (∃ (b : Fin 16) (s : State), (s.round b.val).step = 4 ∧ (s.round b.val).cycL ≤ (s.round b.val).blendN) ∧
    (∃ (b : Fin 16) (s : State), (s.round b.val).step = 8 ∧ (s.round b.val).cycL ≤ (s.round b.val).blendN) ∧
    (∃ (p : HostPort) (b : Fin 16) (s : State), s.portOpen p = true ∧ s.flag Reg.CNV_STATUS_PARKED b.val = true ∧
      (s.round b.val).unparking = false) ∧
    (∃ (p : HostPort) (b : Fin 16) (s : State), s.portOpen p = true ∧ (s.flag Reg.CNV_STATUS_PARKED b.val = false ∨
      (s.round b.val).unparking = true)) := by
  refine ⟨?_, ?_, ?_, ?_, ?_, ?_, ?_, ?_, ?_⟩
  · let s : State := up
    let s : State := { s with sys := { s.sys with inReset := false } }
    exact ⟨s, by decide +kernel +zetaReduce⟩
  · let b : Fin 16 := 15
    let s : State := up
    let s : State :=
      s.setRound 15 { s.round 15 with step := 1, pos := 3, sRef := -100000000, measured := false }
    let j : Nat := s.fld Reg.AFE_CH_GAIN b.val (s.round b.val).pos
    exact ⟨b, j, s, by decide +kernel +zetaReduce⟩
  · let b : Fin 16 := 15
    let s : State := up
    let s : State :=
      s.setRound 15 { s.round 15 with step := 5, pos := 3, sRef := -100000000, measured := false }
    let j : Nat := s.fld Reg.AFE_CH_GAIN b.val (s.round b.val).pos
    exact ⟨b, j, s, by decide +kernel +zetaReduce⟩
  · let b : Fin 16 := 1
    let s : State := up
    let s : State := s.setRound b.val { s.round b.val with measured := true }
    exact ⟨b, s, by decide +kernel +zetaReduce⟩
  · let b : Fin 16 := 15
    let s : State := up
    let s : State := s.setRound b.val { s.round b.val with step := 7, sRef := 3 }
    let s : State := { s with tim := { s.tim with k := 10 } }
    exact ⟨b, s, by decide +kernel +zetaReduce⟩
  · let b : Fin 16 := 1
    let s : State := up
    let s : State := s.setRound b.val { s.round b.val with step := 4 }
    exact ⟨b, s, by decide +kernel +zetaReduce⟩
  · let b : Fin 16 := 1
    let s : State := up
    let s : State := s.setRound b.val { s.round b.val with step := 8 }
    exact ⟨b, s, by decide +kernel +zetaReduce⟩
  · let b : Fin 16 := 1
    let s : State := up
    let s : State := s.setFlag Reg.CNV_STATUS_PARKED b.val 0 (true)
    let s : State := s.setRound b.val { s.round b.val with unparking := false }
    exact ⟨.A, b, s, by decide +kernel +zetaReduce⟩
  · exact ⟨.A, 1, up, by decide +kernel⟩

/-- States and operands that meet the hypotheses of `Obligations.JournalAndPoints`, clause by clause. -/
theorem test_JournalAndPoints_meets :
    (∃ (p : HostPort) (s : State), s.portOpen p = true ∧ s.cal.storeReq = false ∧ s.cal.storing = none) ∧
    (∃ (p : HostPort) (s : State), s.portOpen p = true ∧ (s.cal.storeReq = true ∨ s.cal.storing.isSome = true)) ∧
    (∃ (s : State), s.fld Reg.CAL_JOURNAL_PERIOD_MIN ≠ 0 ∧ s.cal.storeReq = false ∧ s.cal.storing = none) ∧
    (∃ (s : State), s.fld Reg.CAL_JOURNAL_PERIOD_MIN = 0) ∧
    (∃ (s : State), s.cal.storing.isSome = true ∧ s.flag Reg.CAL_STATUS_SEM_WAIT = false) ∧
    (∃ (e : StoreEnd) (c : Nat) (s : State), (e, c) ∈ [(StoreEnd.timeout, 1), (.verify, 2), (.spi, 3)] ∧
      s.cal.storing.isSome = true ∧ s.flag Reg.CAL_STATUS_SEM_WAIT = false) ∧
    (∃ (s : State), s.cal.storing = none) ∧
    (∃ (s : State), s.flag Reg.CAL_STATUS_SEM_WAIT = true ∧ s.cal.semTold = false) ∧
    (∃ (s : State), (s.flag Reg.CAL_STATUS_SEM_WAIT = false ∨ s.cal.semTold = true)) ∧
    (∃ (p : HostPort) (s : State), s.portOpen p = true ∧ s.ptBusy = true) ∧
    (∃ (p : HostPort) (x : CalPoint) (s : State), s.portOpen p = true ∧ s.ptBusy = false ∧
      x = ⟨s.fldS Reg.CAL_PT_DATA0_OFFSET, s.fld Reg.CAL_PT_DATA1_GAIN, s.fldS Reg.CAL_PT_DATA2_SQ, s.fldS
      Reg.CAL_PT_DATA2_TEMP⟩ ∧ x.temp ≠ -0x8000 ∧ pointOk x = false) ∧
    (∃ (p : HostPort) (l : List CalPoint) (s : State), s.portOpen p = true ∧ s.ptBusy = false ∧ s.mem.errs = [] ∧
      s.fldS Reg.CAL_PT_DATA2_TEMP = -0x8000 ∧ l = s.table (s.fld Reg.CAL_PT_SEL_CONV) (s.fld Reg.CAL_PT_SEL_GAIN) ∧
      s.fld Reg.CAL_PT_SEL_POINT < l.length) ∧
    (∃ (p : HostPort) (x : CalPoint) (l : List CalPoint) (s : State), s.portOpen p = true ∧ s.ptBusy = false ∧
      s.mem.errs = [] ∧
      x = ⟨s.fldS Reg.CAL_PT_DATA0_OFFSET, s.fld Reg.CAL_PT_DATA1_GAIN, s.fldS Reg.CAL_PT_DATA2_SQ, s.fldS
      Reg.CAL_PT_DATA2_TEMP⟩ ∧ x.temp ≠ -0x8000 ∧ pointOk x = true ∧
      l = s.table (s.fld Reg.CAL_PT_SEL_CONV) (s.fld Reg.CAL_PT_SEL_GAIN) ∧ l.length ≤ s.fld Reg.CAL_PT_SEL_POINT) ∧
    (∃ (p : HostPort) (x : CalPoint) (s : State), s.portOpen p = true ∧
      (s.table (s.fld Reg.CAL_PT_SEL_CONV) (s.fld Reg.CAL_PT_SEL_GAIN))[s.fld Reg.CAL_PT_SEL_POINT]? = some x ∧
      s.mem.errs = []) ∧
    (∃ (p : HostPort) (s : State), s.portOpen p = true ∧ s.mem.errs = [] ∧
      (s.table (s.fld Reg.CAL_PT_SEL_CONV) (s.fld Reg.CAL_PT_SEL_GAIN))[s.fld Reg.CAL_PT_SEL_POINT]? = none) := by
  refine ⟨?_, ?_, ?_, ?_, ?_, ?_, ?_, ?_, ?_, ?_, ?_, ?_, ?_, ?_, ?_⟩
  · let s : State := up
    let s : State := { s with cal := { s.cal with storeReq := false } }
    exact ⟨.A, s, by decide +kernel +zetaReduce⟩
  · let s : State := up
    let s : State := { s with cal := { s.cal with storeReq := true } }
    exact ⟨.A, s, by decide +kernel +zetaReduce⟩
  · let s : State := up
    let s : State := s.setFld Reg.CAL_JOURNAL_PERIOD_MIN 0 0 1
    let s : State := { s with cal := { s.cal with storeReq := false } }
    exact ⟨s, by decide +kernel +zetaReduce⟩
  · let s : State := up
    let s : State := s.setFld Reg.CAL_JOURNAL_PERIOD_MIN 0 0 (0)
    exact ⟨s, by decide +kernel +zetaReduce⟩
  · let s : State := up
    let s : State := { s with cal := { s.cal with storing := some [] } }
    exact ⟨s, by decide +kernel +zetaReduce⟩
  · let s : State := up
    let s : State := { s with cal := { s.cal with storing := some [] } }
    exact ⟨.verify, 2, s, by decide +kernel +zetaReduce⟩
  · exact ⟨up, by decide +kernel⟩
  · let s : State := up
    let s : State := s.setFlag Reg.CAL_STATUS_SEM_WAIT 0 0 (true)
    let s : State := { s with cal := { s.cal with semTold := false } }
    exact ⟨s, by decide +kernel +zetaReduce⟩
  · exact ⟨up, by decide +kernel⟩
  · let s : State := up
    let s : State := s.setFld Reg.CAL_PT_SEL_CONV 0 0 271
    let s : State := s.setRound 15 { s.round 15 with step := 1, measured := false }
    exact ⟨.A, s, by decide +kernel +zetaReduce⟩
  · let s : State := up
    let s : State := s.setFld Reg.CAL_PT_SEL_CONV 0 0 271
    let s : State := s.setFld Reg.CAL_PT_SEL_GAIN 0 0 7
    let s : State := s.setFld Reg.CAL_PT_DATA1_GAIN 0 0 0
    let s : State := s.setFld Reg.CAL_PT_DATA2_TEMP 0 0 40
    let x : CalPoint :=
      ⟨s.fldS Reg.CAL_PT_DATA0_OFFSET, s.fld Reg.CAL_PT_DATA1_GAIN, s.fldS Reg.CAL_PT_DATA2_SQ, s.fldS Reg.CAL_PT_DATA2_TEMP⟩
    exact ⟨.A, x, s, by decide +kernel +zetaReduce⟩
  · let s : State := up
    let s : State := s.setFld Reg.CAL_PT_SEL_CONV 0 0 271
    let s : State := s.setFld Reg.CAL_PT_SEL_GAIN 0 0 7
    let s : State := s.setFld Reg.CAL_PT_SEL_POINT 0 0 1
    let s : State := s.setFld Reg.CAL_PT_DATA2_TEMP 0 0 0x8000
    let s : State := s.setTable 271 7 [⟨1, 2, 3, 0⟩, ⟨5, 6, 7, 9⟩]
    let l : List CalPoint := s.table (s.fld Reg.CAL_PT_SEL_CONV) (s.fld Reg.CAL_PT_SEL_GAIN)
    exact ⟨.A, l, s, by decide +kernel +zetaReduce⟩
  · let s : State := up
    let s : State := s.setFld Reg.CAL_PT_SEL_CONV 0 0 271
    let s : State := s.setFld Reg.CAL_PT_SEL_GAIN 0 0 7
    let s : State := s.setFld Reg.CAL_PT_SEL_POINT 0 0 0
    let s : State := s.setFld Reg.CAL_PT_DATA1_GAIN 0 0 0x40000000
    let s : State := s.setFld Reg.CAL_PT_DATA2_TEMP 0 0 40
    let x : CalPoint :=
      ⟨s.fldS Reg.CAL_PT_DATA0_OFFSET, s.fld Reg.CAL_PT_DATA1_GAIN, s.fldS Reg.CAL_PT_DATA2_SQ, s.fldS Reg.CAL_PT_DATA2_TEMP⟩
    let l : List CalPoint := s.table (s.fld Reg.CAL_PT_SEL_CONV) (s.fld Reg.CAL_PT_SEL_GAIN)
    exact ⟨.A, x, l, s, by decide +kernel +zetaReduce⟩
  · let x : CalPoint := ⟨5, 0x40000000, 1, 2⟩
    let s : State := up
    let s : State := s.setFld Reg.CAL_PT_SEL_CONV 0 0 271
    let s : State := s.setFld Reg.CAL_PT_SEL_GAIN 0 0 7
    let s : State := s.setFld Reg.CAL_PT_SEL_POINT 0 0 1
    let s : State := s.setTable 271 7 [⟨1, 2, 3, 0⟩, x]
    exact ⟨.A, x, s, by decide +kernel +zetaReduce⟩
  · let s : State := up
    let s : State := s.setFld Reg.CAL_PT_SEL_CONV 0 0 271
    let s : State := s.setFld Reg.CAL_PT_SEL_GAIN 0 0 7
    let s : State := s.setFld Reg.CAL_PT_SEL_POINT 0 0 1
    let s : State := s.setTable 271 7 [⟨1, 2, 3, 0⟩]
    exact ⟨.A, s, by decide +kernel +zetaReduce⟩

/-- States and operands that meet the hypotheses of `Obligations.InputsAndRods`, clause by clause. -/
theorem test_InputsAndRods_meets :
    (∃ (i : Fin 20) (ball : Bool) (s : State), s.booted = true ∧
      (ball != s.flag Reg.ABC_IN_CFG_POL 0 i.val) ≠ s.inLevel i.val) ∧
    (∃ (i : Fin 20) (ball : Bool) (s : State), s.booted = true ∧
      (ball != s.flag Reg.ABC_IN_CFG_POL 0 i.val) = s.inLevel i.val) ∧
    (∃ (i : Fin 20) (s : State), s.booted = true ∧ s.inLevel i.val = true ∧
      s.flag Reg.ABC_IN_STAT_STUCK 0 i.val = false ∧ s.fld Reg.ABC_IN_CFG_STUCK 0 i.val ≠ 0 ∧
      (∃ t0, (s.input i.val).activeSince = some t0 ∧ t0 + 100 * s.fld Reg.ABC_IN_CFG_STUCK 0 i.val * msTm ≤ s.now)) ∧
    (∃ (tm : Tm) (r : Fin 8) (s : State), s.booted = true ∧ s.follows = false ∧ r.val ≠ 0 ∧ s.rodKind r.val = 5 ∧
      (s.rod r.val).sat = false ∧ (∀ t0, (s.rod r.val).lastEvent = some t0 →
      secTm ≤ (tm - tm % (10 * Config.unitsPerNs) - t0) * 65)) ∧
    (∃ (tm t0 : Tm) (r : Fin 8) (s : State), (s.rod r.val).lastEvent = some t0 ∧
      (tm - tm % (10 * Config.unitsPerNs) - t0) * 65 < secTm) ∧
    (∃ (p : NetPort) (h : Hdr) (m : RodMsg) (r : Fin 8) (s : State), s.takes p 0x31 h = true ∧ s.follows = false ∧
      s.rodKind r.val = 6 ∧ s.fld Reg.ABC_ROD_CFG_NET_ID 0 r.val = m.netId.toNat ∧ (s.rod r.val).sat = false) ∧
    (∃ (q : NetPort) (r : Fin 8) (s : State), s.booted = true ∧ s.isManager = true ∧ ((q = .N ∨ q = .S) ∧
      s.usable q = true ∨ q = .M ∧ s.flag Reg.SYS_ADDR_TOP = true ∧ s.linked .M = true) ∧
      r.val ∈ bitsOf 8 (s.fld Reg.ABC_BCAST_MASK)) ∧
    (∃ (r : Fin 8) (t0 : Tm) (s : State), s.booted = true ∧ r.val ≠ 0 ∧ s.follows = false ∧
      (s.rod r.val).lastEvent = some t0 ∧ (s.rod r.val).stopped = false ∧ s.gradeAt r.val (s.now - t0) = none) ∧
    (∃ (r : Fin 8) (t0 : Tm) (g : Nat) (s : State), s.booted = true ∧ r.val ≠ 0 ∧ s.follows = false ∧
      (s.rod r.val).lastEvent = some t0 ∧ (s.rod r.val).stopped = false ∧ s.gradeAt r.val (s.now - t0) = some g) ∧
    (∃ (r : Fin 8) (s : State), ((s.rod r.val).lastEvent = none ∨ (s.rod r.val).stopped = true)) ∧
    (∃ (p : HostPort) (w : Word) (r : Fin 8) (s : State), s.pageOpen p = true ∧ r.val ≠ 0 ∧ (s.rodKind r.val = 2 ∨
      s.rodKind r.val = 3) ∧ w.toNat.testBit (8 + r.val) = true) := by
  refine ⟨?_, ?_, ?_, ?_, ?_, ?_, ?_, ?_, ?_, ?_, ?_⟩
  · exact ⟨1, true, up, by decide +kernel⟩
  · exact ⟨19, false, up, by decide +kernel⟩
  · let s : State := up
    let s : State := s.setFld Reg.ABC_IN_STAT_LEVEL 0 19 1
    let s : State := s.setFld Reg.ABC_IN_CFG_STUCK 0 19 255
    let s : State := s.setInput 19 { s.input 19 with activeSince := some 5 }
    let s : State := { s with tim := { s.tim with counter := BitVec.ofNat 80 (30000000000 * 65536) } }
    exact ⟨19, s, by decide +kernel +zetaReduce⟩
  · let s : State := up
    let s : State := s.setFld Reg.ABC_ROD_CFG_KIND 0 7 5
    exact ⟨9, 7, s, by decide +kernel +zetaReduce⟩
  · let t0 : Tm := 12345678901234
    let r : Fin 8 := 1
    let s : State := up
    let s : State := s.setRod r.val { s.rod r.val with lastEvent := some t0 }
    exact ⟨12345678901234, t0, r, s, by decide +kernel +zetaReduce⟩
  · let p : NetPort := .N
    let s : State := up
    let s : State := wUsable s p
    let s : State := s.setFld Reg.ABC_ROD_CFG_KIND 0 7 6
    let s : State := s.setFld Reg.ABC_ROD_CFG_NET_ID 0 7 5
    exact ⟨p, bh, ⟨5, 0xFFFFFFFFFFFF, 256, 1⟩, 7, s, by decide +kernel +zetaReduce⟩
  · let s : State := up
    let s : State := { s with sys := { s.sys with straps := { s.sys.straps with role := true } } }
    let s : State := wUsable s .N
    let s : State := s.setFld Reg.ABC_BCAST_MASK 0 0 0x81
    exact ⟨.N, 7, s, by decide +kernel +zetaReduce⟩
  · let r : Fin 8 := 1
    let t0 : Tm := 12345678901234
    let s : State := up
    let s : State := s.setRod r.val { s.rod r.val with lastEvent := some t0 }
    let s : State := s.setRod r.val { s.rod r.val with stopped := false }
    exact ⟨r, t0, s, by decide +kernel +zetaReduce⟩
  · let s : State := up
    let s : State := s.setFld Reg.ABC_ROD_CFG_KIND 0 7 1
    let s : State := s.setRod 7 { s.rod 7 with lastEvent := some (s.now - 900 * 1000000 * 65536) }
    let t0 : Tm := s.now - 900 * 1000000 * 65536
    exact ⟨7, t0, 2, s, by decide +kernel +zetaReduce⟩
  · exact ⟨1, up, by decide +kernel⟩
  · let s : State := up
    let s : State := s.setFld Reg.ABC_ROD_CFG_KIND 0 7 3
    exact ⟨.A, 0x8000, 7, s, by decide +kernel +zetaReduce⟩

/-- States and operands that meet the hypotheses of `Obligations.BeadTable`, clause by clause. -/
theorem test_BeadTable_meets :
    (∃ (p : HostPort) (b : Fin 1024) (w : Word) (u s : State), s.pageOpen p = true ∧ (s.bead b.val).en = false ∧
      u = { s with regs := regWr s.regs (beadAddr b.val 1) (w &&& 0x3FFFFFFF) } ∧ u.beadCause (u.bead b.val) = none ∧
      (u.bead b.val).action ≠ 11) ∧
    (∃ (p : HostPort) (b : Fin 1024) (w : Word) (u s : State), s.pageOpen p = true ∧ (s.bead b.val).en = false ∧
      u = { s with regs := regWr s.regs (beadAddr b.val 1) (w &&& 0x3FFFFFFF) } ∧ u.beadCause (u.bead b.val) = none ∧
      (u.bead b.val).action = 11 ∧ u.beadFailures (u.bead b.val).arg = []) ∧
    (∃ (p : HostPort) (b : Fin 1024) (s : State), s.pageOpen p = true ∧ (s.bead b.val).en = true) ∧
    (∃ (p : HostPort) (b : Fin 1024) (w : Word) (c : Nat) (u s : State), s.pageOpen p = true ∧
      (s.bead b.val).en = false ∧ u = { s with regs := regWr s.regs (beadAddr b.val 1) (w &&& 0x3FFFFFFF) } ∧
      u.beadCause (u.bead b.val) = some c) ∧
    (∃ (p : HostPort) (s : State), s.pageOpen p = true) ∧
    (∃ (p : HostPort) (b : Fin 1024) (i : Fin 4) (s : State), s.pageOpen p = true ∧ i.val ≠ 1 ∧
      (s.bead b.val).en = false) ∧
    (∃ (p : HostPort) (b : Fin 1024) (i : Fin 4) (s : State), s.pageOpen p = true ∧ i.val ≠ 1 ∧
      (s.bead b.val).en = true) := by
  refine ⟨?_, ?_, ?_, ?_, ?_, ?_, ?_⟩
  · let b : Fin 1024 := 1
    let w : Word := 0x123
    let s : State := up
    let u : State := { s with regs := regWr s.regs (beadAddr b.val 1) (w &&& 0x3FFFFFFF) }
    exact ⟨.A, b, w, u, s, by decide +kernel +zetaReduce⟩
  · let b : Fin 1024 := 1023
    let w : Word := 0x16200000
    let s : State := up
    let s : State := { s with regs := regWr s.regs (beadAddr 1023 2) 0x40 }
    let s : State := s.setFld Reg.MEM_USABLE_MIB 0 0 8192
    let s : State := s.setFld Reg.MEM_SPILL_MIB_MIB 0 0 16
    let u : State := { s with regs := regWr s.regs (beadAddr b.val 1) (w &&& 0x3FFFFFFF) }
    exact ⟨.A, b, w, u, s, by decide +kernel +zetaReduce⟩
  · let s : State := up
    let s : State := { s with regs := regWr s.regs (beadAddr 1023 1) 0x96200000 }
    exact ⟨.A, 1023, s, by decide +kernel +zetaReduce⟩
  · let b : Fin 1024 := 1023
    let w : Word := 0x3E000000
    let s : State := up
    let u : State := { s with regs := regWr s.regs (beadAddr b.val 1) (w &&& 0x3FFFFFFF) }
    exact ⟨.A, b, w, 0x12, u, s, by decide +kernel +zetaReduce⟩
  · exact ⟨.A, up, by decide +kernel⟩
  · exact ⟨.A, 1023, 3, up, by decide +kernel⟩
  · let b : Fin 1024 := 1023
    let s : State := up
    let s : State := { s with regs := regWr s.regs (beadAddr b.val 1) 0x80000000 }
    exact ⟨.A, b, 3, s, by decide +kernel +zetaReduce⟩

/-- States and operands that meet the hypotheses of `Obligations.FilterCommands`, clause by clause. -/
theorem test_FilterCommands_meets :
    (∃ (p : HostPort) (s : State), s.pageOpen p = true) ∧
    (∃ (g : Fin 16) (s : State), s.booted = true ∧ s.follows = false ∧ s.flag Reg.FLT_SYNC_CFG_PIN_EN g.val = true) ∧
    (∃ (p : HostPort) (g : Fin 16) (s : State), s.pageOpen p = true ∧ s.flag Reg.FLT_STATUS_QUEUED g.val = true) ∧
    (∃ (p : HostPort) (g : Fin 16) (s : State), s.pageOpen p = true ∧ s.flag Reg.FLT_STATUS_QUEUED g.val = false) ∧
    (∃ (p : HostPort) (g : Fin 16) (w : Word) (x d n : Nat) (s : State), s.pageOpen p = true ∧
      x = w.toNat / 0x800 % 4 ∧ x ≤ 2 ∧ s.bankBusy g.val x = false ∧ d = Reg.FLT_CHAIN_D.rd s.shadow g.val 0 ∧
      rateOk d = true ∧ n = 64 * (planOf d).m - 1) ∧
    (∃ (p : HostPort) (g : Fin 16) (w : Word) (s : State), s.pageOpen p = true ∧ w.toNat / 0x800 % 4 ≤ 2 ∧
      s.bankBusy g.val (w.toNat / 0x800 % 4) = false ∧ rateOk (Reg.FLT_CHAIN_D.rd s.shadow g.val 0) = false) ∧
    (∃ (p : HostPort) (g : Fin 16) (w : Word) (s : State), s.pageOpen p = true ∧ w.toNat / 0x800 % 4 ≤ 2 ∧
      s.bankBusy g.val (w.toNat / 0x800 % 4) = true) ∧
    (∃ (p : HostPort) (g : Fin 16) (i : BitVec 14) (s : State), s.pageOpen p = true ∧
      ramOffset (4 * i.toNat) = true ∧ s.bankBusy g.val (4 * i.toNat / 0x4000) = false) ∧
    (∃ (p : HostPort) (g : Fin 16) (i : BitVec 14) (s : State), s.pageOpen p = true ∧
      ramOffset (4 * i.toNat) = true ∧ s.bankBusy g.val (4 * i.toNat / 0x4000) = true) ∧
    (∃ (p : HostPort) (g : Fin 16) (x : Fin 3) (w : Word) (n gf : Nat) (s : State), s.pageOpen p = true ∧
      n = w.toNat % 0x400 ∧ gf = w.toNat / 0x1000 % 0x20000 ∧ n ≤ 512 ∧ gf ≤ 256 * (n - 1) ∧
      s.bankBusy g.val x.val = false) ∧
    (∃ (p : HostPort) (g : Fin 16) (x : Fin 3) (w : Word) (n gf : Nat) (s : State), s.pageOpen p = true ∧
      n = w.toNat % 0x400 ∧ gf = w.toNat / 0x1000 % 0x20000 ∧ n ≤ 512 ∧ gf ≤ 256 * (n - 1) ∧
      s.bankBusy g.val x.val = true) ∧
    (∃ (g : Fin 16) (f : Fade) (s : State), (s.fltOf g.val).fade = some f ∧ f.len ≠ 0 ∧
      f.start + (f.len : Int) - 1 ≤ s.slotAt g.val s.chainK ∧ s.flag Reg.FLT_STATUS_QUEUED g.val = false) ∧
    (∃ (g : Fin 16) (f : Fade) (s : State), (s.fltOf g.val).fade = some f ∧ f.len ≠ 0 ∧
      f.start + (f.len : Int) - 1 ≤ s.slotAt g.val s.chainK ∧ s.flag Reg.FLT_STATUS_QUEUED g.val = true) ∧
    (∃ (g : Fin 16) (f : Fade) (s : State), (s.fltOf g.val).fade = some f ∧
      s.slotAt g.val s.chainK < f.start + (f.len : Int) - 1) := by
  refine ⟨?_, ?_, ?_, ?_, ?_, ?_, ?_, ?_, ?_, ?_, ?_, ?_, ?_, ?_⟩
  · exact ⟨.A, up, by decide +kernel⟩
  · let g : Fin 16 := 1
    let s : State := up
    let s : State := s.setFlag Reg.FLT_SYNC_CFG_PIN_EN g.val 0 (true)
    exact ⟨g, s, by decide +kernel +zetaReduce⟩
  · let g : Fin 16 := 1
    let s : State := up
    let s : State := s.setFlag Reg.FLT_STATUS_QUEUED g.val 0 (true)
    exact ⟨.A, g, s, by decide +kernel +zetaReduce⟩
  · exact ⟨.A, 1, up, by decide +kernel⟩
  · let g : Fin 16 := 1
    let w : Word := 0x123
    let s : State := up
    let x : Nat := w.toNat / 0x800 % 4
    let d : Nat := Reg.FLT_CHAIN_D.rd s.shadow g.val 0
    let n : Nat := 64 * (planOf d).m - 1
    exact ⟨.A, g, w, x, d, n, s, by decide +kernel +zetaReduce⟩
  · let s : State := up
    let s : State := { s with shadow := regWr s.shadow (Reg.FLT_CHAIN_D.addr 15 0) 0x70000 }
    exact ⟨.A, 15, 0x1400, s, by decide +kernel +zetaReduce⟩
  · let g : Fin 16 := 15
    let s : State := up
    let s : State := s.setFld Reg.FLT_STATUS_RUN g.val 0 1
    let s : State := s.setFld Reg.FLT_STATUS_IN_FORCE g.val 0 2
    exact ⟨.A, g, 0x1400, s, by decide +kernel +zetaReduce⟩
  · exact ⟨.A, 1, 1, up, by decide +kernel⟩
  · let g : Fin 16 := 15
    let s : State := up
    let s : State := s.setFld Reg.FLT_STATUS_RUN g.val 0 1
    let s : State := s.setFld Reg.FLT_STATUS_IN_FORCE g.val 0 2
    exact ⟨.A, g, 0x2000, s, by decide +kernel +zetaReduce⟩
  · let w : Word := 0x123
    let s : State := up
    let n : Nat := w.toNat % 0x400
    let gf : Nat := w.toNat / 0x1000 % 0x20000
    exact ⟨.A, 1, 1, w, n, gf, s, by decide +kernel +zetaReduce⟩
  · let g : Fin 16 := 15
    let w : Word := 0x100010
    let s : State := up
    let s : State := s.setFld Reg.FLT_STATUS_RUN g.val 0 1
    let s : State := s.setFld Reg.FLT_STATUS_IN_FORCE g.val 0 1
    let n : Nat := w.toNat % 0x400
    let gf : Nat := w.toNat / 0x1000 % 0x20000
    exact ⟨.A, g, 1, w, n, gf, s, by decide +kernel +zetaReduce⟩
  · let g : Fin 16 := 15
    let f : Fade := ⟨0, 1, 0, 1⟩
    let s : State := up
    let s : State := s.setFlt g.val { s.fltOf g.val with fade := some f }
    let s : State := { s with tim := { s.tim with k := 1000 } }
    exact ⟨g, f, s, by decide +kernel +zetaReduce⟩
  · let g : Fin 16 := 15
    let f : Fade := ⟨0, 1, 0, 1⟩
    let s : State := up
    let s : State := s.setFlt g.val { s.fltOf g.val with fade := some f }
    let s : State := { s with tim := { s.tim with k := 1000 } }
    let s : State := s.setFld Reg.FLT_STATUS_QUEUED g.val 0 1
    let s : State := s.setFld Reg.FLT_STATUS_QUEUE_BANK g.val 0 2
    exact ⟨g, f, s, by decide +kernel +zetaReduce⟩
  · let f : Fade := ⟨0, 5, 0, 1⟩
    let s : State := up
    let s : State := s.setFlt 15 { s.fltOf 15 with fade := some f }
    let s : State := { s with tim := { s.tim with k := -1000 } }
    let s : State := s.setFld Reg.FLT_CHAIN_D 15 0 4
    exact ⟨15, f, s, by decide +kernel +zetaReduce⟩

/-- States and operands that meet the hypotheses of `Obligations.TallyCommands`, clause by clause. -/
theorem test_TallyCommands_meets :
    (∃ (p : HostPort) (s : State), s.pageOpen p = true) ∧
    (∃ (p : HostPort) (s : State), s.pageOpen p = true) ∧
    (∃ (p : HostPort) (s : State), s.pageOpen p = true) ∧
    (∃ (p : HostPort) (mask : BitVec 16) (u : Fin 16) (s : State), s.pageOpen p = true ∧
      mask.toNat.testBit u.val = true) ∧
    (∃ (w : Fin 16) (x : TalWindow) (l : List TalWindow) (s : State), s.windows w.val = x :: l ∧
      x.kClose.isSome = true ∧ (∀ e, e ∈ x.accs → e.2.done = true)) ∧
    (∃ (w : Fin 16) (s : State), (s.windows w.val = [] ∨ (∃ x l, s.windows w.val = x :: l ∧ (x.kClose = none ∨
      x.accs.any (fun e => !e.2.done) = true)))) := by
  refine ⟨?_, ?_, ?_, ?_, ?_, ?_⟩
  · exact ⟨.A, up, by decide +kernel⟩
  · exact ⟨.A, up, by decide +kernel⟩
  · exact ⟨.A, up, by decide +kernel⟩
  · exact ⟨.A, 0x8000, 15, up, by decide +kernel⟩
  · let x : TalWindow := { (default : TalWindow) with kClose := some 5, accs := [] }
    let l : List TalWindow := []
    let s : State := up
    let s : State := s.setWindows 15 (x :: l)
    exact ⟨15, x, l, s, by decide +kernel +zetaReduce⟩
  · exact ⟨1, up, .inl (by decide +kernel +zetaReduce)⟩

/-- States and operands that meet the hypotheses of `Obligations.CaptureControl`, clause by clause. -/
theorem test_CaptureControl_meets :
    (∃ (p : HostPort) (s : State), s.pageOpen p = true) ∧
    (∃ (p : HostPort) (s : State), s.pageOpen p = true) ∧
    (∃ (p : HostPort) (s : State), s.pageOpen p = true) ∧
    (∃ (p : HostPort) (s : State), s.pageOpen p = true) ∧
    (∃ (p : HostPort) (s : State), s.pageOpen p = true) ∧
    (∃ (p : HostPort) (u : Fin 16) (s : State), s.pageOpen p = true ∧ s.ringState u.val = 2) ∧
    (∃ (p : HostPort) (u : Fin 16) (s : State), s.pageOpen p = true ∧ s.ringState u.val = 1 ∧
      (s.capOf u.val).cap = none) ∧
    (∃ (p : HostPort) (u : Fin 16) (s : State), s.pageOpen p = true ∧ s.flag Reg.CAP_STATUS_MARK_VALID u.val = true) ∧
    (∃ (p : HostPort) (u : Fin 16) (s : State), s.pageOpen p = true ∧
      s.flag Reg.CAP_STATUS_MARK_VALID u.val = false) ∧
    (∃ (p : HostPort) (u : Fin 16) (s : State), s.pageOpen p = true ∧
      s.oldest u.val ≤ s.fld64 Reg.CAP_RD_LO_SLOT Reg.CAP_RD_HI_SLOT u.val) ∧
    (∃ (p : HostPort) (u : Fin 16) (s : State), s.pageOpen p = true ∧
      s.fld64 Reg.CAP_RD_LO_SLOT Reg.CAP_RD_HI_SLOT u.val < s.oldest u.val) ∧
    (∃ (p : HostPort) (u : Fin 16) (w : Word) (v : Nat) (s : State), s.pageOpen p = true ∧
      v = w.toNat + 0x100000000 * s.fld Reg.CAP_MARK_HI_MARK u.val ∧ s.oldest u.val ≤ v ∧ v ≤ s.wr u.val) ∧
    (∃ (p : HostPort) (u : Fin 16) (w : Word) (v : Nat) (s : State), s.pageOpen p = true ∧
      v = w.toNat + 0x100000000 * s.fld Reg.CAP_MARK_HI_MARK u.val ∧ (v < s.oldest u.val ∨ s.wr u.val < v)) := by
  refine ⟨?_, ?_, ?_, ?_, ?_, ?_, ?_, ?_, ?_, ?_, ?_, ?_, ?_⟩
  · exact ⟨.A, up, by decide +kernel⟩
  · exact ⟨.A, up, by decide +kernel⟩
  · exact ⟨.A, up, by decide +kernel⟩
  · exact ⟨.A, up, by decide +kernel⟩
  · exact ⟨.A, up, by decide +kernel⟩
  · let s : State := up
    let s : State := s.setFld Reg.CAP_STATUS_RING 15 0 2
    exact ⟨.A, 15, s, by decide +kernel +zetaReduce⟩
  · let s : State := up
    let s : State := s.setFld Reg.CAP_STATUS_RING 15 0 1
    exact ⟨.A, 15, s, by decide +kernel +zetaReduce⟩
  · let u : Fin 16 := 1
    let s : State := up
    let s : State := s.setFlag Reg.CAP_STATUS_MARK_VALID u.val 0 (true)
    exact ⟨.A, u, s, by decide +kernel +zetaReduce⟩
  · let u : Fin 16 := 1
    let s : State := up
    let s : State := s.setFlag Reg.CAP_STATUS_MARK_VALID u.val 0 (false)
    exact ⟨.A, u, s, by decide +kernel +zetaReduce⟩
  · exact ⟨.A, 1, up, by decide +kernel⟩
  · let s : State := up
    let s : State := s.setFld Reg.CAP_WR_LO_WR 15 0 1030
    let s : State := s.setFld Reg.CAP_RD_LO_SLOT 15 0 5
    exact ⟨.A, 15, s, by decide +kernel +zetaReduce⟩
  · let u : Fin 16 := 15
    let w : Word := 6
    let s : State := up
    let s : State := s.setFld Reg.CAP_WR_LO_WR 15 0 1030
    let s : State := s.setFld Reg.CAP_RD_LO_SLOT 15 0 7
    let v : Nat := w.toNat + 0x100000000 * s.fld Reg.CAP_MARK_HI_MARK u.val
    exact ⟨.A, u, w, v, s, by decide +kernel +zetaReduce⟩
  · let u : Fin 16 := 1
    let w : Word := 0x123
    let s : State := up
    let v : Nat := w.toNat + 0x100000000 * s.fld Reg.CAP_MARK_HI_MARK u.val
    exact ⟨.A, u, w, v, s, by decide +kernel +zetaReduce⟩

/-- States and operands that meet the hypotheses of `Obligations.RingReadsAndTriggers`, clause by clause. -/
theorem test_RingReadsAndTriggers_meets :
    (∃ (p : HostPort) (u : Fin 16) (s : State), s.portOpen p = true ∧
      s.flag Reg.CAP_STATUS_MARK_VALID u.val = false) ∧
    (∃ (p : HostPort) (u : Fin 16) (s : State), s.portOpen p = true ∧ s.flag Reg.CAP_STATUS_MARK_VALID u.val = true ∧
      s.wr u.val ≤ s.fld64 Reg.CAP_RD_LO_SLOT Reg.CAP_RD_HI_SLOT u.val) ∧
    (∃ (p : HostPort) (u : Fin 16) (a : Nat) (s : State), s.portOpen p = true ∧
      s.flag Reg.CAP_STATUS_MARK_VALID u.val = true ∧
      s.fld64 Reg.CAP_RD_LO_SLOT Reg.CAP_RD_HI_SLOT u.val < s.wr u.val ∧ s.mem.errs = [] ∧
      a = s.ringAddr u.val (s.fld64 Reg.CAP_RD_LO_SLOT Reg.CAP_RD_HI_SLOT u.val) (s.fld Reg.CAP_RD_HI_WORD u.val)) ∧
    (∃ (u : Fin 16) (s : State), s.ringState u.val = 2 ∧ s.ringBlocked u.val = false) ∧
    (∃ (u : Fin 16) (s : State), s.ringBlocked u.val = true) ∧
    (∃ (p : NetPort) (h : Hdr) (m : TriggerMsg) (s : State), s.takes p 0x30 h = true ∧
      s.net.trigs.contains (m.origin.toNat, m.time.toNat) = false) ∧
    (∃ (p : NetPort) (h : Hdr) (m : TriggerMsg) (s : State), s.takes p 0x30 h = true ∧
      s.net.trigs.contains (m.origin.toNat, m.time.toNat) = true) := by
  refine ⟨?_, ?_, ?_, ?_, ?_, ?_, ?_⟩
  · let u : Fin 16 := 1
    let s : State := up
    let s : State := s.setFlag Reg.CAP_STATUS_MARK_VALID u.val 0 (false)
    exact ⟨.A, u, s, by decide +kernel +zetaReduce⟩
  · let u : Fin 16 := 1
    let s : State := up
    let s : State := s.setFlag Reg.CAP_STATUS_MARK_VALID u.val 0 (true)
    exact ⟨.A, u, s, by decide +kernel +zetaReduce⟩
  · let u : Fin 16 := 15
    let s : State := up
    let s : State := s.setFld Reg.CAP_WR_LO_WR 15 0 1030
    let s : State := s.setFld Reg.CAP_RD_LO_SLOT 15 0 6
    let s : State := s.setFld Reg.CAP_CAP_CFG_CHAN 15 0 3
    let s : State := s.setFld Reg.MEM_USABLE_MIB 0 0 8192
    let a : Nat :=
      s.ringAddr u.val (s.fld64 Reg.CAP_RD_LO_SLOT Reg.CAP_RD_HI_SLOT u.val) (s.fld Reg.CAP_RD_HI_WORD u.val)
    exact ⟨.A, u, a, s, by decide +kernel +zetaReduce⟩
  · let s : State := up
    let s : State := s.setFld Reg.CAP_STATUS_RING 15 0 2
    let s : State := s.setFld Reg.CAP_WR_LO_WR 15 0 1030
    exact ⟨15, s, by decide +kernel +zetaReduce⟩
  · let s : State := up
    let s : State := s.setFld Reg.CAP_STATUS_RING 15 0 2
    let s : State := s.setFld Reg.CAP_WR_LO_WR 15 0 1030
    let s : State := s.setCap 15 { s.capOf 15 with keep := [(6, 7)] }
    exact ⟨15, s, by decide +kernel +zetaReduce⟩
  · let p : NetPort := .N
    let s : State := up
    let s : State := wUsable s p
    exact ⟨p, bh, default, s, by decide +kernel +zetaReduce⟩
  · let p : NetPort := .N
    let s : State := up
    let s : State := wUsable s p
    let s : State := { s with net := { s.net with trigs := [(0x105, 9)] } }
    exact ⟨p, bh, ⟨3, 0x105, 9⟩, s, by decide +kernel +zetaReduce⟩

/-- States and operands that meet the hypotheses of `Obligations.CompressionEngines`, clause by clause. -/
theorem test_CompressionEngines_meets :
    (∃ (p : HostPort) (e : Fin 4) (s : State), s.pageOpen p = true ∧ s.hostBusy e.val = false ∧
      s.flag Reg.CMP_ENG_CFG_EN e.val = true ∧ s.jobBad e.val = false) ∧
    (∃ (p : HostPort) (e : Fin 4) (s : State), s.pageOpen p = true ∧ s.hostBusy e.val = true) ∧
    (∃ (p : HostPort) (e : Fin 4) (s : State), s.pageOpen p = true ∧ s.hostBusy e.val = false ∧
      s.flag Reg.CMP_ENG_CFG_EN e.val = true ∧ s.jobBad e.val = true) ∧
    (∃ (p : HostPort) (e : Fin 4) (s : State), s.pageOpen p = true ∧ s.hostBusy e.val = false ∧
      s.flag Reg.CMP_ENG_CFG_EN e.val = false) ∧
    (∃ (p : HostPort) (e : Fin 4) (s : State), s.pageOpen p = true ∧ s.hostBusy e.val = true) ∧
    (∃ (p : HostPort) (e : Fin 4) (s : State), s.pageOpen p = true ∧ s.hostBusy e.val = false) ∧
    (∃ (p : HostPort) (e : Fin 4) (i : Fin 64) (idx n : Nat) (x : Nat × Nat × Bool × Prof) (s : State), s.pageOpen p
      = true ∧ s.flag Reg.CRY_S_CFG_EN 0 i.val = true ∧ s.fld Reg.CRY_S_CFG_ENGINE 0 i.val = e.val ∧
      s.flag Reg.CRY_S_CFG_COMP 0 i.val = true ∧ s.fld Reg.CRY_S_STATE_LEVEL 0 i.val = 0 ∧
      idx = s.fld Reg.CRY_S_CFG_PROF 0 i.val ∧ n = (s.stream i.val).buf.length ∧
      (segmentsFrom (profIn s.regs e.val idx) idx (s.streamNch i.val) n (s.stream i.val).profs (s.stream i.val).cuts
      n 0).getLast? = some x ∧ x.2.2.1 = true ∧ (s.stream i.val).cuts.contains n = false) ∧
    (∃ (e : Fin 4) (j : Job) (s : State), (s.engine e.val).running = none ∧ State.nextJob (s.engine e.val) = some j) ∧
    (∃ (e : Fin 4) (s : State), ((s.engine e.val).running.isSome = true ∨ State.nextJob (s.engine e.val) = none)) ∧
    (∃ (e : Fin 4) (j : Job) (ws : List Word) (s : State), (s.engine e.val).running = some j ∧ j.host = true ∧
      j.decode = true ∧ s.mem.errs = [] ∧
      readSegment ((List.range j.len).map fun i => s.storedByte (j.src + i)) j.limit = .ok ws) ∧
    (∃ (e : Fin 4) (j : Job) (ws : List Word) (c : List Byte × Nat × Nat) (s : State), (s.engine e.val).running =
      some j ∧ j.host = true ∧ j.decode = false ∧ s.mem.errs = [] ∧
      ws = bytesWords (min (j.len / 4) (j.prof.segWords j.nch)) ((List.range j.len).map fun i => s.storedByte (j.src
      + i)) ∧ c = codeSegment j.prof j.nch (s.flag Reg.CMP_STATUS_RAWONLY e.val) (fun _ => false) (decide (ws.length
      < j.prof.segWords j.nch)) ws ∧ c.1.length ≤ j.space) ∧
    (∃ (e : Fin 4) (s : State), (s.engine e.val).running = none) ∧
    (∃ (e : Fin 4) (j : Job) (s : State), (s.engine e.val).running = some j ∧ j.host = false ∧ j.tries = 0) ∧
    (∃ (e : Fin 4) (j : Job) (rest : List Job) (s : State), (s.engine e.val).held = j :: rest) ∧
    (∃ (e : Fin 4) (s : State), (s.engine e.val).held = []) := by
  refine ⟨?_, ?_, ?_, ?_, ?_, ?_, ?_, ?_, ?_, ?_, ?_, ?_, ?_, ?_, ?_⟩
  · let e : Fin 4 := 3
    let s : State := up
    let s : State := s.setFld Reg.CMP_ENG_CFG_EN e.val 0 1
    let s : State := s.setFld Reg.MEM_USABLE_MIB 0 0 8192
    let s : State := s.setFld Reg.CMP_JOB_OP_OP e.val 0 1
    let s : State := s.setFld Reg.CMP_PROF_METHOD e.val 0 2
    let s : State := s.setFld Reg.CMP_JOB_SRC_LEN_LEN e.val 0 4
    let s : State := s.setFld Reg.CMP_JOB_DST_LEN_LEN e.val 0 1048576
    exact ⟨.A, e, s, by decide +kernel +zetaReduce⟩
  · let e : Fin 4 := 3
    let s : State := up
    let s : State := s.setFld Reg.CMP_STATUS_HOST_BUSY e.val 0 1
    exact ⟨.A, e, s, by decide +kernel +zetaReduce⟩
  · let e : Fin 4 := 1
    let s : State := up
    let s : State := s.setFlag Reg.CMP_ENG_CFG_EN e.val 0 (true)
    exact ⟨.A, e, s, by decide +kernel +zetaReduce⟩
  · exact ⟨.A, 1, up, by decide +kernel⟩
  · let e : Fin 4 := 3
    let s : State := up
    let s : State := s.setFld Reg.CMP_STATUS_HOST_BUSY e.val 0 1
    let s : State :=
      s.setEngine e.val { s.engine e.val with ready := [{ (default : Job) with host := true, decode := true, prof := ⟨2, true, false, 256, 64, 256, []⟩, nch := 1, src := 0, len := 8, dst := 4096, space := 4096, limit := 4096 }] }
    exact ⟨.A, e, s, by decide +kernel +zetaReduce⟩
  · exact ⟨.A, 1, up, by decide +kernel⟩
  · let e : Fin 4 := 3
    let i : Fin 64 := 63
    let s : State := up
    let s : State := s.setFld Reg.CRY_S_CFG_EN 0 i.val 1
    let s : State := s.setFld Reg.CRY_S_CFG_ENGINE 0 i.val 3
    let s : State := s.setFld Reg.CRY_S_CFG_COMP 0 i.val 1
    let s : State := s.setFld Reg.CRY_S_CFG_SRC 0 i.val 2
    let s : State := s.setFld Reg.CMP_PROF_METHOD e.val 0 2
    let s : State := s.setStream i.val { s.stream i.val with buf := [7, 8, 9] }
    let idx : Nat := s.fld Reg.CRY_S_CFG_PROF 0 i.val
    let n : Nat := (s.stream i.val).buf.length
    let x : Nat × Nat × Bool × Prof :=
      ((segmentsFrom (profIn s.regs e.val idx) idx (s.streamNch i.val) n (s.stream i.val).profs (s.stream i.val).cuts n 0).getLast?).getD default
    exact ⟨.A, e, i, idx, n, x, s, by decide +kernel +zetaReduce⟩
  · let e : Fin 4 := 3
    let j : Job :=
      { (default : Job) with host := true, decode := true, prof := ⟨2, true, false, 256, 64, 256, []⟩, nch := 1, src := 0, len := 8, dst := 4096, space := 4096, limit := 4096 }
    let s : State := up
    let s : State := s.setEngine e.val { s.engine e.val with ready := [j] }
    exact ⟨e, j, s, by decide +kernel +zetaReduce⟩
  · let s : State := up
    let s : State := s.setEngine 3 { s.engine 3 with running := some default }
    exact ⟨3, s, by decide +kernel +zetaReduce⟩
  · let e : Fin 4 := 3
    let j : Job :=
      { (default : Job) with host := true, decode := true, prof := ⟨2, true, false, 256, 64, 256, []⟩, nch := 1, src := 0, len := segBytes.length, dst := 4096, space := 4096, limit := 4096 }
    let s : State := up
    let s : State := s.setFld Reg.MEM_USABLE_MIB 0 0 8192
    let s : State := s.setEngine e.val { s.engine e.val with running := some j }
    let s : State := { s with dram := memWrs Config.dramBlank s.dram 0 segBytes }
    exact ⟨e, j, [1, 2, 2, 2, 2, 9], s, by decide +kernel +zetaReduce⟩
  · let e : Fin 4 := 3
    let j : Job :=
      { (default : Job) with host := true, decode := false, prof := ⟨1, true, false, 256, 64, 256, []⟩, nch := 1, src := 0, len := 24, dst := 4096, space := 4096, limit := 4096 }
    let s : State := up
    let s : State := s.setFld Reg.MEM_USABLE_MIB 0 0 8192
    let s : State := s.setEngine 3 { s.engine 3 with running := some j }
    let s : State := { s with dram := memWrs Config.dramBlank s.dram 0 [1,2,3,4,5] }
    let ws : List Word :=
      bytesWords (min (j.len / 4) (j.prof.segWords j.nch)) ((List.range j.len).map fun i => s.storedByte (j.src + i))
    let c : List Byte × Nat × Nat :=
      codeSegment j.prof j.nch (s.flag Reg.CMP_STATUS_RAWONLY e.val) (fun _ => false) (decide (ws.length < j.prof.segWords j.nch)) ws
    exact ⟨e, j, ws, c, s, by decide +kernel +zetaReduce⟩
  · exact ⟨1, up, by decide +kernel⟩
  · let e : Fin 4 := 1
    let j : Job := default
    let s : State := up
    let s : State := s.setEngine e.val { s.engine e.val with running := some j }
    exact ⟨e, j, s, by decide +kernel +zetaReduce⟩
  · let e : Fin 4 := 1
    let j : Job := default
    let rest : List Job := []
    let s : State := up
    let s : State := s.setEngine e.val { s.engine e.val with held := j :: rest }
    exact ⟨e, j, rest, s, by decide +kernel +zetaReduce⟩
  · exact ⟨1, up, by decide +kernel⟩

/-- States and operands that meet the hypotheses of `Obligations.CarryBlocks`, clause by clause. -/
theorem test_CarryBlocks_meets :
    (∃ (p : HostPort) (s : State), s.pageOpen p = true) ∧
    (∃ (i : Fin 64) (n : Nat) (s : State), s.flag Reg.CRY_S_CFG_EN 0 i.val = true ∧ s.carries i.val = true ∧
      s.dueAt i.val = some n) ∧
    (∃ (i : Fin 64) (s : State), (s.flag Reg.CRY_S_CFG_EN 0 i.val = false ∨ s.carries i.val = false ∨
      s.dueAt i.val = none)) ∧
    (∃ (i : Fin 64) (s : State), s.flag Reg.CRY_S_CFG_EN 0 i.val = true ∧ s.isFilter i.val = false ∧
      s.carries i.val = true ∧ s.idles = false ∧ s.dueAt i.val = none ∧
      (s.stream i.val).openLife + 1000000000 ≤ s.lifeNs) ∧
    (∃ (i : Fin 64) (s : State), s.isKept i.val = true ∧ s.follows = false ∧ s.uncompared = false ∧
      s.fld Reg.CRY_S_OUTAGE_MS 0 i.val * 1000000 < s.outageNs i.val ∧ s.flag Reg.CRY_S_STATE_OVER 0 i.val = false) ∧
    (∃ (i : Fin 64) (s : State), s.isKept i.val = true ∧ s.follows = false ∧ s.uncompared = false ∧
      s.outageNs i.val ≤ s.fld Reg.CRY_S_OUTAGE_MS 0 i.val * 1000000 ∧ s.flag Reg.CRY_S_STATE_OVER 0 i.val = true) ∧
    (∃ (i : Fin 64) (b : Block) (q : NetPort) (bytes : List Byte) (mtu : Nat) (s : State), s.booted = true ∧
      s.maySend = true ∧ s.flag Reg.CRY_S_CFG_DEST 0 i.val = false ∧ s.toSend i.val = some b ∧
      (s.stream i.val).replayAt = none ∧ (if s.isManager then some .M else s.primary) = some q ∧
      bytes = wordsBytes b.words ∧ mtu = s.fld Reg.NET_CFG_MTU q.ix ∧ 32 < mtu) ∧
    (∃ (i : Fin 64) (e e' : SourceState) (b : Block) (q : NetPort) (bytes : List Byte) (mtu : Nat) (s : State),
      s.booted = true ∧ s.maySend = true ∧ (s.toSend i.val = none ∨ s.flag Reg.CRY_S_CFG_DEST 0 i.val = true) ∧
      s.isManager = true ∧ s.flag Reg.CRY_FWD_CFG_TO_HOST = false ∧ s.nextKept (fun _ => true) = some (e, b, e') ∧
      e.stream = i.val ∧ q = .M ∧ bytes = wordsBytes b.words ∧ mtu = s.fld Reg.NET_CFG_MTU q.ix ∧ 32 < mtu) ∧
    (∃ (s : State), (s.booted = false ∨ s.maySend = false)) ∧
    (∃ (i : Fin 64) (s : State), s.ackedOf i.val < s.nextOf i.val ∧
      (s.stream i.val).ackT + s.fld Reg.CRY_ACK_CFG_TIMEOUT * msTm ≤ s.life ∧ s.follows = false) ∧
    (∃ (i : Fin 64) (s : State), s.life < (s.stream i.val).ackT + s.fld Reg.CRY_ACK_CFG_TIMEOUT * msTm ∧
      s.cry.sources = []) := by
  refine ⟨?_, ?_, ?_, ?_, ?_, ?_, ?_, ?_, ?_, ?_, ?_⟩
  · exact ⟨.A, up, by decide +kernel⟩
  · let i : Fin 64 := 63
    let s : State := up
    let s : State := s.setFld Reg.CRY_S_CFG_EN 0 i.val 1
    let s : State := s.setFld Reg.CRY_S_CFG_SRC 0 i.val 2
    let s : State := s.setFld Reg.CRY_S_BLOCK_SIZE 0 i.val 1
    let s : State :=
      s.setStream i.val { s.stream i.val with buf := List.replicate 256 3, nextBseq := 0xFFFFFFFFFFFF }
    exact ⟨i, 256, s, by decide +kernel +zetaReduce⟩
  · exact ⟨1, up, by decide +kernel⟩
  · let s : State := up
    let s : State := s.setFlag Reg.CRY_S_CFG_EN 0 63 true
    let s : State := s.setFld Reg.CRY_S_CFG_SRC 0 63 3
    let s : State := s.setFld Reg.CRY_S_BLOCK_SIZE 0 63 4
    let s : State := s.setStream 63 { s.stream 63 with buf := [1,2], openLife := 0 }
    exact ⟨63, s, by decide +kernel +zetaReduce⟩
  · let i : Fin 64 := 63
    let s : State := up
    let s : State := s.setFld Reg.CRY_S_CFG_EN 0 i.val 1
    let s : State := s.setFld Reg.CRY_S_CFG_KEPT 0 i.val 1
    let s : State := s.setFld Reg.CRY_S_CFG_SRC 0 i.val 2
    let s : State := s.setFld Reg.CRY_S_OUTAGE_MS 0 i.val 100
    let s : State :=
      s.setStream i.val { s.stream i.val with blocks := [{ (default : Block) with stream := 63, bseq := 1, span := 1, payload := [5, 6], size := 4096 }] }
    exact ⟨i, s, by decide +kernel +zetaReduce⟩
  · let s : State := up
    let s : State := s.setFlag Reg.CRY_S_CFG_KEPT 0 63 true
    let s : State := s.setFlag Reg.CRY_S_STATE_OVER 0 63 true
    exact ⟨63, s, by decide +kernel +zetaReduce⟩
  · let i : Fin 64 := 63
    let b : Block :=
      { (default : Block) with stream := 63, bseq := 7, span := 1, payload := [5, 6], size := 4096 }
    let q : NetPort := .N
    let s : State := up
    let s : State := wUsable s q
    let s : State := s.setFlag Reg.SYS_JOIN_STATUS_JOINED 0 0 true
    let s : State := s.setFlag Reg.NET_MGR_VALID 0 0 true
    let s : State := s.setFld Reg.NET_MGR_ADDR 0 0 0x0100
    let s : State := s.setPort q { s.port q with beacon := some (s.life, 2) }
    let s : State := s.setFld Reg.CRY_S_NEXT_LO_N 0 i.val 7
    let s : State := s.setFld Reg.CRY_S_CFG_EN 0 i.val 1
    let s : State := s.setStream i.val { s.stream i.val with blocks := [b] }
    let bytes : List Byte := wordsBytes b.words
    let mtu : Nat := s.fld Reg.NET_CFG_MTU q.ix
    exact ⟨i, b, q, bytes, mtu, s, by decide +kernel +zetaReduce⟩
  · let b : Block :=
      { (default : Block) with source := 0x105, stream := 63, bseq := 4, span := 1, payload := [1,2,3] }
    let q : NetPort := .M
    let s : State := up
    let s : State := { s with sys := { s.sys with straps := { s.sys.straps with role := true } } }
    let s : State := wUsable s .M
    let s : State := s.setFlag Reg.SYS_JOIN_STATUS_JOINED 0 0 true
    let s : State :=
      { s with cry := { s.cry with sources := [{ (default : SourceState) with source := 0x105, stream := 63, blocks := [b], sent := 4, acked := 4, pcp := 3 }] } }
    let e : SourceState := (match s.nextKept (fun _ => true) with | some x => x | none => default).1
    let e' : SourceState := (match s.nextKept (fun _ => true) with | some x => x | none => default).2.2
    let bytes : List Byte := wordsBytes b.words
    let mtu : Nat := s.fld Reg.NET_CFG_MTU q.ix
    exact ⟨63, e, e', b, q, bytes, mtu, s, by decide +kernel +zetaReduce⟩
  · exact ⟨up, by decide +kernel⟩
  · let i : Fin 64 := 63
    let s : State := up
    let s : State := s.setFld Reg.CRY_S_NEXT_LO_N 0 i.val 7
    let s : State :=
      s.setStream i.val { s.stream i.val with blocks := [{ (default : Block) with stream := 63, bseq := 0, span := 1, payload := [5, 6], size := 4096 }] }
    exact ⟨i, s, by decide +kernel +zetaReduce⟩
  · let i : Fin 64 := 63
    let s : State := up
    let s : State := { s with cry := { s.cry with sources := [] } }
    let s : State := s.setStream i.val { s.stream i.val with ackT := s.life }
    exact ⟨i, s, by decide +kernel +zetaReduce⟩

/-- States and operands that meet the hypotheses of `Obligations.Acknowledgement`, clause by clause. -/
theorem test_Acknowledgement_meets :
    (∃ (p : NetPort) (h : Hdr) (e : AckEntry) (i a : Nat) (s : State), s.takes p 0x11 h = true ∧ i = e.stream.val ∧
      a = e.a.toNat ∧ e.kind.val = 0 ∧ e.source.toNat = s.sourceAddr ∧ s.flag Reg.SYS_JOIN_STATUS_JOINED = true ∧
      h.src.toNat = s.fld Reg.NET_MGR_ADDR ∧ s.flag Reg.CRY_S_CFG_DEST 0 i = false ∧
      e.session = w32 (s.fld Reg.CRY_SESSION) ∧ e.gen.toNat = s.fld Reg.CRY_S_STATE_GEN 0 i ∧ s.ackedOf i < a ∧
      a ≤ s.nextOf i ∧ s.onBoundary i a = true) ∧
    (∃ (p : HostPort) (w : Word) (i a : Nat) (s : State), s.pageOpen p = true ∧ i = w.toNat / 0x10000 % 0x40 ∧
      a = s.cry.hostAckLo.toNat + 0x100000000 * (w.toNat % 0x10000) ∧ s.fld Reg.CRY_HOST_ACK_SRC_SRC = s.sourceAddr ∧
      s.flag Reg.CRY_S_CFG_DEST 0 i = true ∧ s.ackedOf i < a ∧ a ≤ s.nextOf i ∧ s.onBoundary i a = true) ∧
    (∃ (p : HostPort) (w : Word) (i a : Nat) (s : State), s.pageOpen p = true ∧ i = w.toNat / 0x10000 % 0x40 ∧
      a = s.cry.hostAckLo.toNat + 0x100000000 * (w.toNat % 0x10000) ∧ s.fld Reg.CRY_HOST_ACK_SRC_SRC = s.sourceAddr ∧
      s.flag Reg.CRY_S_CFG_DEST 0 i = true ∧ s.ackedOf i < a ∧ s.nextOf i < a) ∧
    (∃ (p : HostPort) (w : Word) (i a : Nat) (s : State), s.pageOpen p = true ∧ i = w.toNat / 0x10000 % 0x40 ∧
      a = s.cry.hostReplayLo.toNat + 0x100000000 * (w.toNat % 0x10000) ∧
      s.fld Reg.CRY_HOST_ACK_SRC_SRC = s.sourceAddr ∧ s.flag Reg.CRY_S_CFG_DEST 0 i = true ∧ s.ackedOf i ≤ a ∧
      a < s.nextOf i ∧ s.onBoundary i a = true) ∧
    (∃ (p : NetPort) (h : Hdr) (m : BlockMsg) (s : State), s.takes p 0x10 h = true ∧ s.isManager = true ∧
      m.first = true ∧ m.last = false ∧ m.offset = 0 ∧ m.bytes.length ≤ m.total.toNat) ∧
    (∃ (p : NetPort) (h : Hdr) (m : BlockMsg) (s : State), s.takes p 0x10 h = true ∧ s.isManager = true ∧
      m.first = false ∧ (∀ x, x ∈ s.cry.partials → ¬ (x.source = m.source.toNat ∧ x.stream = m.stream.val))) := by
  refine ⟨?_, ?_, ?_, ?_, ?_, ?_⟩
  · let p : NetPort := .N
    let e : AckEntry := { (default : AckEntry) with source := 0x0105, stream := 63, a := 6, gen := 3 }
    let s : State := up
    let s : State := wUsable s p
    let s : State := s.setFld Reg.SYS_ADDR 0 0 0x0105
    let s : State := s.setFlag Reg.SYS_JOIN_STATUS_JOINED 0 0 true
    let s : State := s.setFlag Reg.NET_MGR_VALID 0 0 true
    let s : State := s.setFld Reg.NET_MGR_ADDR 0 0 0x0100
    let s : State := s.setFld Reg.CRY_S_STATE_GEN 0 63 3
    let s : State := s.setFld Reg.CRY_S_NEXT_LO_N 0 63 7
    let s : State := s.setFld Reg.CRY_S_ACKED_LO_A 0 63 5
    let s : State :=
      s.setStream 63 { s.stream 63 with blocks := [{ (default : Block) with stream := 63, bseq := 5, span := 1, payload := [5, 6], size := 4096 }, { (default : Block) with stream := 63, bseq := 6, span := 1, payload := [5, 6], size := 4096 }] }
    let i : Nat := e.stream.val
    let a : Nat := e.a.toNat
    exact ⟨p, ({ bh with srcv := true, src := 0x0100 } : Hdr), e, i, a, s, by decide +kernel +zetaReduce⟩
  · let w : Word := 0x003F0000
    let s : State := up
    let s : State := { s with cry := { s.cry with hostAckLo := 7 } }
    let s : State := s.setFld Reg.CRY_S_CFG_DEST 0 63 1
    let s : State := s.setFld Reg.CRY_S_NEXT_LO_N 0 63 7
    let s : State := s.setFld Reg.CRY_S_ACKED_LO_A 0 63 5
    let s : State :=
      s.setStream 63 { s.stream 63 with blocks := [{ (default : Block) with stream := 63, bseq := 5, span := 1, payload := [5, 6], size := 4096 }, { (default : Block) with stream := 63, bseq := 6, span := 1, payload := [5, 6], size := 4096 }] }
    let i : Nat := w.toNat / 0x10000 % 0x40
    let a : Nat := s.cry.hostAckLo.toNat + 0x100000000 * (w.toNat % 0x10000)
    exact ⟨.A, w, i, a, s, by decide +kernel +zetaReduce⟩
  · let w : Word := 0x003F0001
    let s : State := up
    let s : State := { s with cry := { s.cry with hostAckLo := 7 } }
    let s : State := s.setFld Reg.CRY_S_CFG_DEST 0 63 1
    let s : State := s.setFld Reg.CRY_S_NEXT_LO_N 0 63 7
    let s : State := s.setFld Reg.CRY_S_ACKED_LO_A 0 63 5
    let s : State :=
      s.setStream 63 { s.stream 63 with blocks := [{ (default : Block) with stream := 63, bseq := 5, span := 1, payload := [5, 6], size := 4096 }, { (default : Block) with stream := 63, bseq := 6, span := 1, payload := [5, 6], size := 4096 }] }
    let i : Nat := w.toNat / 0x10000 % 0x40
    let a : Nat := s.cry.hostAckLo.toNat + 0x100000000 * (w.toNat % 0x10000)
    exact ⟨.A, w, i, a, s, by decide +kernel +zetaReduce⟩
  · let w : Word := 0x003F0000
    let s : State := up
    let s : State := { s with cry := { s.cry with hostReplayLo := 5 } }
    let s : State := s.setFld Reg.CRY_S_CFG_DEST 0 63 1
    let s : State := s.setFld Reg.CRY_S_NEXT_LO_N 0 63 7
    let s : State := s.setFld Reg.CRY_S_ACKED_LO_A 0 63 4
    let s : State :=
      s.setStream 63 { s.stream 63 with blocks := [{ (default : Block) with stream := 63, bseq := 5, span := 1, payload := [5, 6], size := 4096 }, { (default : Block) with stream := 63, bseq := 6, span := 1, payload := [5, 6], size := 4096 }] }
    let i : Nat := w.toNat / 0x10000 % 0x40
    let a : Nat := s.cry.hostReplayLo.toNat + 0x100000000 * (w.toNat % 0x10000)
    exact ⟨.A, w, i, a, s, by decide +kernel +zetaReduce⟩
  · let p : NetPort := .N
    let s : State := up
    let s : State := wUsable s p
    let s : State := { s with sys := { s.sys with straps := { s.sys.straps with role := true } } }
    exact ⟨p, bh, ({ (default : BlockMsg) with source := 0x0105, stream := 9, first := true, last := false, total := 100, bytes := [1, 2, 3] } : BlockMsg), s, by decide +kernel +zetaReduce⟩
  · let p : NetPort := .N
    let s : State := up
    let s : State := wUsable s p
    let s : State := { s with sys := { s.sys with straps := { s.sys.straps with role := true } } }
    exact ⟨p, bh, default, s, by decide +kernel +zetaReduce⟩

/-- States and operands that meet the hypotheses of `Obligations.HostQueues`, clause by clause. -/
theorem test_HostQueues_meets :
    (∃ (q : Fin 16) (i : Nat) (b : Block) (s : State), s.flag Reg.CRY_QCFG_EN 0 q.val = true ∧ s.feeds = true ∧
      s.queueNext q.val = some (i, b) ∧ (s.queue q.val).waiting = []) ∧
    (∃ (q : Fin 16) (e e' : SourceState) (b : Block) (s : State), s.flag Reg.CRY_QCFG_EN 0 q.val = true ∧
      s.feeds = true ∧ s.queueNext q.val = none ∧ s.isManager = true ∧ s.flag Reg.CRY_FWD_CFG_TO_HOST = true ∧
      s.fld Reg.CRY_FWD_CFG_QUEUE = q.val ∧
      s.nextKept (fun b => decide (b.words.length ≤ s.queueRoom q.val)) = some (e, b, e') ∧
      (s.queue q.val).waiting = []) ∧
    (∃ (q : Fin 16) (s : State), (s.flag Reg.CRY_QCFG_EN 0 q.val = false ∨ s.feeds = false) ∧
      (s.queue q.val).waiting = []) ∧
    (∃ (p : HostPort) (q : Fin 16) (flips : BitVec 33) (x : QWord) (rest : List QWord) (s : State), s.portOpen p =
      true ∧ (s.queue q.val).words = x :: rest ∧ x.bad = decide (popcount 33 flips.toNat % 2 = 1)) ∧
    (∃ (p : HostPort) (q : Fin 16) (flips : BitVec 33) (x : QWord) (rest : List QWord) (s : State), s.portOpen p =
      true ∧ (s.queue q.val).words = x :: rest ∧ x.bad ≠ decide (popcount 33 flips.toNat % 2 = 1)) ∧
    (∃ (p : HostPort) (q : Fin 16) (s : State), s.portOpen p = true ∧ (s.queue q.val).words = []) ∧
    (∃ (p : HostPort) (s : State), s.booted = true ∧ s.bound p = true) ∧
    (∃ (p : HostPort) (q : Fin 16) (rest : List PopWait) (s : State), (s.queue q.val).waiting = ⟨p, .single⟩ :: rest
      ∧ (s.queue q.val).left = 0) ∧
    (∃ (q : Fin 16) (s : State), ((s.queue q.val).waiting = [] ∨ (s.queue q.val).left ≠ 0)) := by
  refine ⟨?_, ?_, ?_, ?_, ?_, ?_, ?_, ?_, ?_⟩
  · let i : Nat := 63
    let b : Block :=
      { (default : Block) with stream := 63, bseq := 7, span := 1, payload := [5, 6], size := 4096 }
    let s : State := up
    let s : State := s.setFld Reg.CRY_QCFG_EN 0 15 1
    let s : State := s.setFld Reg.CRY_QCFG_SIZE 0 15 64
    let s : State := s.setFld Reg.CRY_S_CFG_EN 0 i 1
    let s : State := s.setFld Reg.CRY_S_CFG_DEST 0 i 1
    let s : State := s.setFld Reg.CRY_S_CFG_QUEUE 0 i 15
    let s : State := s.setFld Reg.CRY_S_NEXT_LO_N 0 i 7
    let s : State := s.setStream i { s.stream i with blocks := [b] }
    exact ⟨15, i, b, s, by decide +kernel +zetaReduce⟩
  · let q : Fin 16 := 15
    let b : Block :=
      { (default : Block) with source := 0x105, stream := 63, bseq := 4, span := 1, payload := [1,2,3] }
    let s : State := up
    let s : State := { s with sys := { s.sys with straps := { s.sys.straps with role := true } } }
    let s : State := s.setFlag Reg.CRY_QCFG_EN 0 15 true
    let s : State := s.setFld Reg.CRY_QCFG_SIZE 0 15 4
    let s : State := s.setFlag Reg.CRY_FWD_CFG_TO_HOST 0 0 true
    let s : State := s.setFld Reg.CRY_FWD_CFG_QUEUE 0 0 15
    let s : State :=
      { s with cry := { s.cry with sources := [{ (default : SourceState) with source := 0x105, stream := 63, blocks := [b], sent := 4, acked := 4, pcp := 3 }] } }
    let e : SourceState :=
      (match s.nextKept (fun b => decide (b.words.length ≤ s.queueRoom q.val)) with | some x => x | none => default).1
    let e' : SourceState := (match s.nextKept (fun b => decide (b.words.length ≤ s.queueRoom q.val)) with | some x => x | none => default).2.2
    exact ⟨q, e, e', b, s, by decide +kernel +zetaReduce⟩
  · exact ⟨1, up, by decide +kernel⟩
  · let x : QWord := ⟨7, 2, false⟩
    let rest : List QWord := [⟨9, 0, false⟩]
    let s : State := up
    let s : State := s.setQueue 15 { s.queue 15 with words := x :: rest }
    exact ⟨.A, 15, 0x100000001, x, rest, s, by decide +kernel +zetaReduce⟩
  · let x : QWord := ⟨7, 2, false⟩
    let rest : List QWord := [⟨9, 0, false⟩]
    let s : State := up
    let s : State := s.setQueue 15 { s.queue 15 with words := x :: rest }
    exact ⟨.A, 15, 0x000000002, x, rest, s, by decide +kernel +zetaReduce⟩
  · exact ⟨.A, 1, up, by decide +kernel⟩
  · let s : State := up
    let s : State := s.setFld Reg.HP_CTRL_NETBIND 0 0 1
    let s : State := s.setQueue 15 { s.queue 15 with words := [⟨7, 2, false⟩] }
    exact ⟨.A, s, by decide +kernel +zetaReduce⟩
  · let p : HostPort := .A
    let rest : List PopWait := [⟨.B, .single⟩]
    let s : State := up
    let s : State := s.setQueue 15 { s.queue 15 with waiting := ⟨p, .single⟩ :: rest, left := 0 }
    exact ⟨p, 15, rest, s, by decide +kernel +zetaReduce⟩
  · exact ⟨1, up, by decide +kernel⟩

/-- States and operands that meet the hypotheses of `Obligations.MemoryUpkeep`, clause by clause. -/
theorem test_MemoryUpkeep_meets :
    (∃ (p : HostPort) (s : State), s.pageOpen p = true ∧ s.sys.trained = true) ∧
    (∃ (p : HostPort) (s : State), s.pageOpen p = true ∧ s.sys.trained = false) ∧
    (∃ (s : State), s.booted = true ∧ s.mem.pos + 1 < s.usableBytes / 32) ∧
    (∃ (s : State), s.booted = true ∧ s.mem.errs = [] ∧ s.mem.pos + 1 < s.usableBytes / 32) ∧
    (∃ (s : State), s.booted = true ∧ s.mem.errs = [] ∧ s.usableBytes / 32 ≤ s.mem.pos + 1) ∧
    (∃ (s : State), s.sys.trained = true) := by
  refine ⟨?_, ?_, ?_, ?_, ?_, ?_⟩
  · let s : State := up
    let s : State := { s with sys := { s.sys with trained := true } }
    exact ⟨.A, s, by decide +kernel +zetaReduce⟩
  · let s : State := up
    let s : State := { s with sys := { s.sys with trained := false } }
    exact ⟨.A, s, by decide +kernel +zetaReduce⟩
  · let s : State := up
    let s : State := s.setFld Reg.MEM_USABLE_MIB 0 0 8192
    let s : State := { s with mem := { s.mem with pos := 1 } }
    exact ⟨s, by decide +kernel +zetaReduce⟩
  · let s : State := up
    let s : State := s.setFld Reg.MEM_USABLE_MIB 0 0 8192
    exact ⟨s, by decide +kernel +zetaReduce⟩
  · exact ⟨up, by decide +kernel⟩
  · let s : State := up
    let s : State := { s with sys := { s.sys with trained := true } }
    exact ⟨s, by decide +kernel +zetaReduce⟩

/-- States and operands that meet the hypotheses of `Obligations.ControlLoops`, clause by clause. -/
theorem test_ControlLoops_meets :
    (∃ (p : HostPort) (n : Fin 16) (s : State), s.pageOpen p = true ∧ s.flag Reg.CTL_STATUS_EN n.val = true) ∧
    (∃ (p : HostPort) (n : Fin 16) (s : State), s.pageOpen p = true ∧ s.flag Reg.CTL_STATUS_EN n.val = false) ∧
    (∃ (p : HostPort) (n : Fin 16) (s : State), s.pageOpen p = true ∧ s.flag Reg.CTL_STATUS_EN n.val = true) ∧
    (∃ (p : HostPort) (n : Fin 16) (s : State), s.pageOpen p = true ∧ s.flag Reg.CTL_STATUS_EN n.val = false) ∧
    (∃ (p : HostPort) (s : State), s.pageOpen p = true) ∧
    (∃ (p : HostPort) (s : State), s.pageOpen p = true) ∧
    (∃ (p : HostPort) (s : State), s.pageOpen p = true) ∧
    (∃ (n : Fin 16) (u : Nat) (a : Bool) (s : State), s.booted = true ∧ s.idles = false ∧
      s.flag Reg.CTL_STATUS_EN n.val = true ∧ (s.chainK % (s.fld Reg.CTL_PERIOD_P n.val : Int) = 0 ∨
      (s.loop n.val).restart = some s.chainK) ∧ (s.loop n.val).lastK ≠ some s.chainK ∧
      (s.loop n.val).next = some (u, a) ∧ s.twn.holdLoops = none) ∧
    (∃ (n : Fin 16) (s : State), s.booted = true ∧ s.idles = false ∧ s.flag Reg.CTL_STATUS_EN n.val = true ∧
      (s.chainK % (s.fld Reg.CTL_PERIOD_P n.val : Int) = 0 ∨ (s.loop n.val).restart = some s.chainK) ∧
      (s.loop n.val).lastK ≠ some s.chainK) ∧
    (∃ (n : Fin 16) (s : State), (s.flag Reg.CTL_STATUS_EN n.val = false ∨ (s.loop n.val).lastK = some s.chainK ∨
      s.booted = false ∨ s.idles = true)) ∧
    (∃ (n : Fin 16) (s : State), s.flag Reg.CTL_STATUS_EN n.val = true ∧ (s.loop n.val).computed = true ∧
      (s.flag Reg.CTL_STATUS_MODE n.val = false ∨
      (s.loop n.val).overruns + 1 < s.fld Reg.CTL_PLAUS_N_OVR_LIMIT n.val)) ∧
    (∃ (n : Fin 16) (s : State), s.flag Reg.CTL_STATUS_EN n.val = true ∧ (s.loop n.val).computed = true ∧
      s.flag Reg.CTL_STATUS_MODE n.val = true ∧ s.fld Reg.CTL_PLAUS_N_OVR_LIMIT n.val ≤ (s.loop n.val).overruns + 1) ∧
    (∃ (n : Fin 16) (s : State), (s.flag Reg.CTL_STATUS_EN n.val = false ∨ (s.loop n.val).computed = false)) := by
  refine ⟨?_, ?_, ?_, ?_, ?_, ?_, ?_, ?_, ?_, ?_, ?_, ?_, ?_⟩
  · let n : Fin 16 := 1
    let s : State := up
    let s : State := s.setFlag Reg.CTL_STATUS_EN n.val 0 (true)
    exact ⟨.A, n, s, by decide +kernel +zetaReduce⟩
  · exact ⟨.A, 1, up, by decide +kernel⟩
  · let n : Fin 16 := 1
    let s : State := up
    let s : State := s.setFlag Reg.CTL_STATUS_EN n.val 0 (true)
    exact ⟨.A, n, s, by decide +kernel +zetaReduce⟩
  · exact ⟨.A, 1, up, by decide +kernel⟩
  · exact ⟨.A, up, by decide +kernel⟩
  · exact ⟨.A, up, by decide +kernel⟩
  · exact ⟨.A, up, by decide +kernel⟩
  · let n : Fin 16 := 1
    let u : Nat := 1
    let a : Bool := true
    let s : State := up
    let s : State := s.setFlag Reg.CTL_STATUS_EN n.val 0 (true)
    let s : State := s.setLoop n.val { s.loop n.val with next := some (u, a) }
    exact ⟨n, u, a, s, by decide +kernel +zetaReduce⟩
  · let n : Fin 16 := 1
    let s : State := up
    let s : State := s.setFlag Reg.CTL_STATUS_EN n.val 0 (true)
    exact ⟨n, s, by decide +kernel +zetaReduce⟩
  · exact ⟨1, up, by decide +kernel⟩
  · let n : Fin 16 := 1
    let s : State := up
    let s : State := s.setFlag Reg.CTL_STATUS_EN n.val 0 (true)
    let s : State := s.setLoop n.val { s.loop n.val with computed := true }
    exact ⟨n, s, by decide +kernel +zetaReduce⟩
  · let n : Fin 16 := 15
    let s : State := up
    let s : State := s.setFlag Reg.CTL_STATUS_EN n.val 0 (true)
    let s : State := s.setLoop n.val { s.loop n.val with computed := true }
    let s : State := s.setFlag Reg.CTL_STATUS_MODE n.val 0 (true)
    let s : State := s.setLoop n.val { s.loop n.val with overruns := 255 }
    exact ⟨n, s, by decide +kernel +zetaReduce⟩
  · exact ⟨1, up, by decide +kernel⟩

/-- States and operands that meet the hypotheses of `Obligations.MarkerDrive`, clause by clause. -/
theorem test_MarkerDrive_meets :
    (∃ (p : HostPort) (s : State), s.pageOpen p = true ∧ s.flag Reg.MRK_STATUS_FLIP_PEND = false) ∧
    (∃ (p : HostPort) (s : State), s.pageOpen p = true ∧ s.flag Reg.MRK_STATUS_FLIP_PEND = true) ∧
    (∃ (s : State), s.booted = true ∧ s.follows = false) ∧
    (∃ (s : State), s.booted = true ∧ s.idles = false ∧ s.mrkMode ≠ 0 ∧ s.mrk.running = false ∧ s.chainK % 16 = 0) ∧
    (∃ (s : State), (s.mrkMode = 0 ∨ s.mrk.running = true ∨ s.chainK % 16 ≠ 0 ∨ s.booted = false ∨ s.idles = true)) ∧
    (∃ (s : State), s.latchDue = false) ∧
    (∃ (s : State), s.latchDue = true ∧ (s.flag Reg.MRK_STATUS_DRIVING = false ∨ s.mrk.sentOnce = false)) ∧
    (∃ (bs : List BoardRet) (s : State), s.latchDue = true ∧ s.flag Reg.MRK_STATUS_DRIVING = true ∧
      s.mrk.sentOnce = true ∧ (∀ k, k < s.boards →
      (bs.find? fun b => decide (b.board.val = k)).any s.echoOk = true)) ∧
    (∃ (p : HostPort) (s : State), s.pageOpen p = true ∧ s.mrkMode = 1 ∧ s.flag Reg.MRK_STATUS_DIAG_DUE = false) ∧
    (∃ (p : HostPort) (s : State), s.pageOpen p = true ∧ (s.mrkMode ≠ 1 ∨ s.flag Reg.MRK_STATUS_DIAG_DUE = true)) ∧
    (∃ (s : State), s.booted = true ∧ s.mrkMode = 1 ∧ s.flag Reg.MRK_STATUS_DIAG_DUE = false ∧
      s.past s.mrk.diagFrom (s.fld Reg.MRK_DIAG_TIME_PERIOD) = true) ∧
    (∃ (s : State), s.past s.mrk.diagFrom (s.fld Reg.MRK_DIAG_TIME_PERIOD) = false) ∧
    (∃ (s : State), s.flag Reg.MRK_STATUS_DIAG_DUE = true ∧ s.mrk.told = false ∧ s.past s.mrk.dueAt 1000 = true) ∧
    (∃ (p : HostPort) (i : Fin 2048) (w : Word) (s : State), s.pageOpen p = true ∧
      i.val / 0x400 ≠ s.fld Reg.MRK_STATUS_FRONT ∧ w.toNat % 0x400 ≤ 768) ∧
    (∃ (p : HostPort) (i : Fin 2048) (s : State), s.pageOpen p = true ∧ i.val / 0x400 = s.fld Reg.MRK_STATUS_FRONT) ∧
    (∃ (p : HostPort) (i : Fin 2048) (w : Word) (s : State), s.pageOpen p = true ∧
      i.val / 0x400 ≠ s.fld Reg.MRK_STATUS_FRONT ∧ 768 < w.toNat % 0x400) := by
  refine ⟨?_, ?_, ?_, ?_, ?_, ?_, ?_, ?_, ?_, ?_, ?_, ?_, ?_, ?_, ?_, ?_⟩
  · exact ⟨.A, up, by decide +kernel⟩
  · let s : State := up
    let s : State := s.setFlag Reg.MRK_STATUS_FLIP_PEND 0 0 (true)
    exact ⟨.A, s, by decide +kernel +zetaReduce⟩
  · exact ⟨up, by decide +kernel⟩
  · let s : State := up
    let s : State := s.setFld Reg.MRK_CFG_MODE 0 0 1
    let s : State := s.setFlag Reg.MRK_STATUS_FLIP_PEND 0 0 true
    exact ⟨s, by decide +kernel +zetaReduce⟩
  · exact ⟨up, by decide +kernel⟩
  · exact ⟨up, by decide +kernel⟩
  · let s : State := up
    let s : State := s.setFld Reg.MRK_CFG_MODE 0 0 1
    let s : State :=
      { s with mrk := { s.mrk with running := true, startAt := 5, sending := [[1,2]], diag := true } }
    exact ⟨s, by decide +kernel +zetaReduce⟩
  · let s : State := up
    let s : State := s.setFld Reg.MRK_CFG_MODE 0 0 1
    let s : State := s.setFlag Reg.MRK_STATUS_DRIVING 0 0 true
    let s : State :=
      { s with mrk := { s.mrk with running := true, startAt := 5, sentOnce := true, sent := [[5]] } }
    exact ⟨[⟨0, 0xA0000000, [5]⟩], s, by decide +kernel +zetaReduce⟩
  · let s : State := up
    let s : State := s.setFld Reg.MRK_CFG_MODE 0 0 1
    exact ⟨.A, s, by decide +kernel +zetaReduce⟩
  · exact ⟨.A, up, by decide +kernel⟩
  · let s : State := up
    let s : State := s.setFld Reg.MRK_CFG_MODE 0 0 1
    exact ⟨s, by decide +kernel +zetaReduce⟩
  · let s : State := up
    let s : State := s.setFld Reg.MRK_DIAG_TIME_PERIOD 0 0 1000
    let s : State := { s with mrk := { s.mrk with diagFrom := s.life } }
    exact ⟨s, by decide +kernel +zetaReduce⟩
  · let s : State := up
    let s : State := s.setFlag Reg.MRK_STATUS_DIAG_DUE 0 0 (true)
    let s : State := { s with mrk := { s.mrk with told := false } }
    exact ⟨s, by decide +kernel +zetaReduce⟩
  · exact ⟨.A, 2047, 0x3FFF00, up, by decide +kernel⟩
  · exact ⟨.A, 1, up, by decide +kernel⟩
  · exact ⟨.A, 2047, 769, up, by decide +kernel⟩

/-- States and operands that meet the hypotheses of `Obligations.MarkerBoost`, clause by clause. -/
theorem test_MarkerBoost_meets :
    (∃ (s : State), s.booted = true ∧ s.flag Reg.MRK_STATUS_BOOST_ON = true) ∧
    (∃ (s : State), s.flag Reg.MRK_STATUS_BOOST_ON = false) ∧
    (∃ (mv : Nat) (s : State), s.booted = true ∧ s.flag Reg.MRK_STATUS_BOOST_ON = true ∧
      105 * s.fld Reg.MRK_BST_CFG_V_MAX < 100 * s.vMeas mv ∧
      s.mrk.overAt.any (fun t => decide (t + 10000 * Config.unitsPerNs ≤ s.life)) = true) ∧
    (∃ (mv : Nat) (s : State), (100 * s.vMeas mv ≤ 105 * s.fld Reg.MRK_BST_CFG_V_MAX ∨
      s.mrk.overAt.any (fun t => decide (t + 10000 * Config.unitsPerNs ≤ s.life)) = false)) ∧
    (∃ (p : HostPort) (s : State), s.pageOpen p = true ∧ s.flag Reg.MRK_STATUS_BOOST_FAULT = true) ∧
    (∃ (p : HostPort) (s : State), s.pageOpen p = true ∧ s.flag Reg.MRK_STATUS_BOOST_FAULT = false) := by
  refine ⟨?_, ?_, ?_, ?_, ?_, ?_⟩
  · let s : State := up
    let s : State := s.setFlag Reg.MRK_STATUS_BOOST_ON 0 0 (true)
    exact ⟨s, by decide +kernel +zetaReduce⟩
  · exact ⟨up, by decide +kernel⟩
  · let s : State := up
    let s : State := s.setFld Reg.MRK_STATUS_BOOST_ON 0 0 1
    let s : State := { s with mrk := { s.mrk with overAt := some 5 } }
    exact ⟨1401, s, by decide +kernel +zetaReduce⟩
  · exact ⟨1, up, by decide +kernel⟩
  · let s : State := up
    let s : State := s.setFlag Reg.MRK_STATUS_BOOST_FAULT 0 0 (true)
    exact ⟨.A, s, by decide +kernel +zetaReduce⟩
  · exact ⟨.A, up, by decide +kernel⟩

/-- States and operands that meet the hypotheses of `Obligations.TestAccess`, clause by clause. -/
theorem test_TestAccess_meets :
    (∃ (level : Bool) (s : State), s.pins.testen = !level) ∧
    (∃ (s : State), s.pins.testen = true) ∧
    (∃ (s : State), s.pins.testen = false) ∧
    (∃ (code : Byte), (code.toNat = 0 ∨ 5 < code.toNat)) ∧
    (∃ (code : Byte), 1 ≤ code.toNat ∧ code.toNat ≤ 5) := by
  refine ⟨?_, ?_, ?_, ?_, ?_⟩
  · let level : Bool := true
    let s : State := up
    let s : State := { s with pins := { s.pins with testen := !level } }
    exact ⟨level, s, by decide +kernel +zetaReduce⟩
  · let s : State := up
    let s : State := { s with pins := { s.pins with testen := true } }
    exact ⟨s, by decide +kernel +zetaReduce⟩
  · let s : State := up
    let s : State := { s with pins := { s.pins with testen := false } }
    exact ⟨s, by decide +kernel +zetaReduce⟩
  · exact ⟨6, by decide +kernel⟩
  · exact ⟨1, by decide +kernel⟩

/-- States and operands that meet the hypotheses of `Obligations.SelfTests`, clause by clause. -/
theorem test_SelfTests_meets :
    (∃ (p : HostPort) (s : State), s.portOpen p = true ∧ s.flag Reg.DBG_STATUS_BIST_BUSY = false ∧
      State.bistInUse s.regs (!s.enabledBeads.isEmpty) 1 0 = false) ∧
    (∃ (p : HostPort) (g : Fin 16) (s : State), s.portOpen p = true ∧ s.flag Reg.DBG_STATUS_BIST_BUSY = false ∧
      State.bistInUse s.regs (!s.enabledBeads.isEmpty) 2 g.val = false) ∧
    (∃ (p : HostPort) (s : State), s.portOpen p = true ∧ s.flag Reg.DBG_STATUS_BIST_BUSY = false ∧
      s.enabledBeads = []) ∧
    (∃ (p : HostPort) (s : State), s.portOpen p = true ∧ s.flag Reg.DBG_STATUS_BIST_BUSY = false ∧ s.mrkMode = 0) ∧
    (∃ (p : HostPort) (s : State), s.portOpen p = true ∧ s.flag Reg.DBG_STATUS_BIST_BUSY = false) ∧
    (∃ (p : HostPort) (g : Fin 16) (i : Instr) (s : State), i ∈ [.bistQueueSram p, .bistCoefficientRam p g,
      .bistBeadTable p, .bistFrameMemory p, .bistConverterReferences p] ∧ s.portOpen p = true ∧
      s.flag Reg.DBG_STATUS_BIST_BUSY = true) ∧
    (∃ (s : State), s.flag Reg.DBG_STATUS_BIST_BUSY = true ∧ 1 ≤ s.dbg.target ∧ s.dbg.target ≤ 4) ∧
    (∃ (s : State), s.flag Reg.DBG_STATUS_BIST_BUSY = true ∧ 1 ≤ s.dbg.target ∧ s.dbg.target ≤ 4) ∧
    (∃ (s : State), s.flag Reg.DBG_STATUS_BIST_BUSY = true ∧ s.dbg.target = 5 ∧ s.dbg.measured = 0xFFFF) ∧
    (∃ (s : State), (s.flag Reg.DBG_STATUS_BIST_BUSY = false ∨ s.dbg.target = 5 ∧ s.dbg.measured ≠ 0xFFFF)) := by
  refine ⟨?_, ?_, ?_, ?_, ?_, ?_, ?_, ?_, ?_, ?_⟩
  · exact ⟨.A, up, by decide +kernel⟩
  · exact ⟨.A, 1, up, by decide +kernel⟩
  · exact ⟨.A, up, by decide +kernel⟩
  · exact ⟨.A, up, by decide +kernel⟩
  · exact ⟨.A, up, by decide +kernel⟩
  · let s : State := up
    let s : State := s.setFlag Reg.DBG_STATUS_BIST_BUSY 0 0 (true)
    exact ⟨.A, 1, (.bistFrameMemory .A), s, by decide +kernel +zetaReduce⟩
  · let s : State := up
    let s : State := s.setFlag Reg.DBG_STATUS_BIST_BUSY 0 0 (true)
    let s : State := { s with dbg := { s.dbg with target := 4 } }
    exact ⟨s, by decide +kernel +zetaReduce⟩
  · let s : State := up
    let s : State := s.setFlag Reg.DBG_STATUS_BIST_BUSY 0 0 true
    let s : State := { s with dbg := { s.dbg with target := 2, group := 15 } }
    let s : State := { s with regs := regWr s.regs 0x1F8000 7 }
    exact ⟨s, by decide +kernel +zetaReduce⟩
  · let s : State := up
    let s : State := s.setFlag Reg.DBG_STATUS_BIST_BUSY 0 0 (true)
    let s : State := { s with dbg := { s.dbg with target := 5 } }
    let s : State := { s with dbg := { s.dbg with measured := 0xFFFF } }
    exact ⟨s, by decide +kernel +zetaReduce⟩
  · exact ⟨up, by decide +kernel⟩

/-- States and operands that meet the hypotheses of `Obligations.ResetSources`, clause by clause. -/
theorem test_ResetSources_meets :
    (∃ (r : Rail) (mv : Nat) (s : State), mv < tripMv s r) ∧
    (∃ (r : Rail) (mv : Nat) (s : State), tripMv s r ≤ mv) ∧
    (∃ (ns : Nat), 1000 ≤ ns) ∧
    (∃ (ns : Nat), ns < 100) ∧
    (∃ (ns : Nat), 400 ≤ ns) ∧
    (∃ (ns : Nat), ns < 400) ∧
    (∃ (t8 : Int), 960 ≤ t8) ∧
    (∃ (t8 : Int), t8 < 960) ∧
    (∃ (p : HostPort) (w : Word) (s : State), s.portOpen p = true ∧ w.toNat / 0x10000 = 0x0D6E ∧ w.toNat % 2 = 1) ∧
    (∃ (p : HostPort) (w : Word) (s : State), s.portOpen p = true ∧ w.toNat / 0x10000 ≠ 0x0D6E ∧ w.toNat % 2 = 1) ∧
    (∃ (ms : Nat) (s : State), 100 ≤ ms ∧ s.sys.inReset = false) ∧
    (∃ (ms : Nat) (s : State), (ms < 100 ∨ s.sys.inReset = true)) := by
  refine ⟨?_, ?_, ?_, ?_, ?_, ?_, ?_, ?_, ?_, ?_, ?_, ?_⟩
  · exact ⟨default, 1, up, by decide +kernel⟩
  · exact ⟨.DVDD, 680, up, by decide +kernel⟩
  · exact ⟨1000, by decide +kernel⟩
  · exact ⟨1, by decide +kernel⟩
  · exact ⟨400, by decide +kernel⟩
  · exact ⟨1, by decide +kernel⟩
  · exact ⟨960, by decide +kernel⟩
  · exact ⟨1, by decide +kernel⟩
  · exact ⟨.A, 0x0D6E0001, up, by decide +kernel⟩
  · exact ⟨.A, 0x123, up, by decide +kernel⟩
  · let s : State := up
    let s : State := { s with sys := { s.sys with inReset := false } }
    exact ⟨100, s, by decide +kernel +zetaReduce⟩
  · exact ⟨1, up, by decide +kernel⟩

/-- States and operands that meet the hypotheses of `Obligations.BaseRateInstant`, clause by clause. -/
theorem test_BaseRateInstant_meets :
    (∃ (s : State), s.booted = true ∧ s.tim.running = true ∧ s.tim.reanchor = none) ∧
    (∃ (r : Int) (s : State), s.booted = true ∧ s.tim.running = true ∧ s.tim.reanchor = some r ∧
      r ≤ s.gridT (s.tim.k + 1)) ∧
    (∃ (r : Int) (s : State), s.booted = true ∧ s.tim.running = true ∧ s.tim.reanchor = some r ∧
      s.gridT (s.tim.k + 1) < r) ∧
    (∃ (c : CommitState) (s : State), s.booted = true ∧ s.tim.running = true ∧ s.tim.reanchor = none ∧
      s.sys.straps.pair = false ∧ s.enabledBeads = [] ∧ s.accepted = [c] ∧ (∀ b, b ∈ c.pages → b ∈ allPages) ∧
      c.pages.Nodup) ∧
    (∃ (s : State), (s.booted = false ∨ s.tim.running = false)) := by
  refine ⟨?_, ?_, ?_, ?_, ?_⟩
  · let s : State := up
    let s : State := { s with tim := { s.tim with running := true } }
    exact ⟨s, by decide +kernel +zetaReduce⟩
  · let r : Int := 1
    let s : State := up
    let s : State := { s with tim := { s.tim with running := true } }
    let s : State := { s with tim := { s.tim with reanchor := some r } }
    exact ⟨r, s, by decide +kernel +zetaReduce⟩
  · let s : State := up
    let s : State := { s with tim := { s.tim with reanchor := some (s.gridT (s.tim.k + 1) + 1) } }
    let r : Int := s.gridT (s.tim.k + 1) + 1
    exact ⟨r, s, by decide +kernel +zetaReduce⟩
  · let e : BaseEnv := default
    let c : CommitState := ⟨false, [0x3000, 0x42000], [(0x42100,0x6),(0x42108,0x3)], [0x3000]⟩
    let s : State := up
    let s : State := { s with tim := { s.tim with running := true } }
    let s : State := { s with sys := { s.sys with straps := { s.sys.straps with pair := false } } }
    let s : State := { s with accepted := [c] }
    let s : State := { s with sys := { s.sys with straps := { s.sys.straps with pair := false } } }
    let s : State := { s with tim := { s.tim with reanchor := none, running := true } }
    let s : State := { s with regs := s.regs.filter (fun e => !decide (0x18000 ≤ e.1 ∧ e.1 < 0x1C000)) }
    exact ⟨c, s, by decide +kernel +zetaReduce⟩
  · let s : State := up
    let s : State := { s with tim := { s.tim with running := false } }
    exact ⟨s, by decide +kernel +zetaReduce⟩

end Sys2Proof.Machine
end

section
/-!
SUPPORT. What a whole-hub reset leaves in SYS and in RST_CAUSE, and which state each reset source puts into reset.
-/
namespace Sys2Proof.Machine

/-! ### The state in reset -/

@[simp] theorem State.storeCut_sys (s : State) : s.storeCut.sys = s.sys := by
  unfold State.storeCut
  repeat' split
  all_goals rfl

/-- A reset puts SYS back to its reset state, but for what holds the hub in reset, the VDDIO modes and the warning. -/
theorem State.intoReset_sys (s : State) (cause : Nat) : (s.intoReset cause).sys =
    { State.reset.sys with sources := s.sys.sources, vddio := s.sys.vddio, warned := s.sys.warned } := by
  unfold State.intoReset
  dsimp only
  split <;> simp

/-- The registers of DBG are the only ones that a reset writes after RST_CAUSE. -/
theorem State.intoReset_rstCause (s : State) (cause : Nat) : regRd (s.intoReset cause).regs 0x10C = w32 cause := by
  have hir : 0x10C ≠ Reg.DBG_STATUS_IR.addr 0 0 := by decide
  have htm : 0x10C ≠ Reg.DBG_STATUS_TESTMODE.addr 0 0 := by decide
  have hres : 0x10C ≠ Reg.DBG_BIST_RES_RESULT.addr 0 0 := by decide
  have htgt : 0x10C ≠ Reg.DBG_BIST_RES_TARGET.addr 0 0 := by decide
  unfold State.intoReset
  dsimp only
  rw [State.setFlag, State.regRd_setFld_ne _ _ _ _ _ htm, State.regRd_setFld_ne _ _ _ _ _ hir]
  split
  · rw [State.regRd_setFld_ne _ _ _ _ _ htgt, State.regRd_setFld_ne _ _ _ _ _ hres]
    exact regRd_regWr_same _ _ _
  · exact regRd_regWr_same _ _ _

/-- No LOAD waits after a reset. -/
theorem State.intoReset_settleLoad (s : State) (cause : Nat) : (s.intoReset cause).settleLoad = s.intoReset cause :=
  State.settleLoad_eq _ (.inl (by rw [State.intoReset_sys]; rfl))

/-- The hub is in whole-hub reset, and RST_CAUSE holds `cause`. -/
def State.HeldWith (s : State) (cause : Nat) : Prop := s.sys.inReset = true ∧ regRd s.regs 0x10C = w32 cause

theorem State.intoReset_heldWith (s : State) (cause : Nat) : (s.intoReset cause).HeldWith cause :=
  ⟨by rw [State.intoReset_sys]; rfl, s.intoReset_rstCause cause⟩

theorem State.HeldWith.testReset {s : State} {cause : Nat} (h : s.HeldWith cause) : s.testReset.HeldWith cause :=
  ⟨h.1, (State.regRd_setFld_ne s _ 0 0 1 (by decide)).trans h.2⟩

theorem State.finish_sys (s : State) : s.finish.sys = s.sys := by rw [s.finish_spec.only, s.logged_spec.only]

/-- RST_CAUSE is neither a TX counter nor a word of the log. -/
theorem State.finish_rstCause (s : State) : regRd s.finish.regs 0x10C = regRd s.regs 0x10C := by
  have htx : ¬ txWord 0x10C := by rw [txWord_iff]; decide
  have hlog : ¬ logWord 0x10C := not_logWord (by decide) fun i _ => by omega
  rw [s.finish_spec.regs _ htx, s.logged_regRd hlog]

theorem State.HeldWith.finish {s : State} {cause : Nat} (h : s.HeldWith cause) : s.finish.HeldWith cause :=
  ⟨by rw [s.finish_sys, h.1], by rw [s.finish_rstCause, h.2]⟩

/-! ### The reset sources -/

/-- A power-on reset of the hub with `y` for its SYS part, which holds the reset sources and the VDDIO modes that the reset
keeps: POR alone is recorded, and the test logic is reset too (R92, R678). -/
def State.powerReset (s : State) (y : SysState) : State := ({ s with sys := y }.intoReset 1).testReset

/-- A reset by source `b` of the hub with `y` for its SYS part: its bit is added to RST_CAUSE (R92). -/
def State.sourceReset (s : State) (y : SysState) (b : Nat) : State := { s with sys := y }.intoReset (s.causeWord b)

/-- The twin is told of writes on the lockstep pages only (R592). -/
theorem State.tellTwin_of_not_lockstep (s b : State) (x : Writer) {k : PageKind} (n a : Nat) (w : Word) (be : BitVec 4)
    (hk : State.lockstepKind k = false) : s.tellTwin b x k n a w be = s := by
  unfold State.tellTwin
  simp [hk]

/-- The key in the upper half of a word of SYS.RESET, and its bit 0, reset the hub (R120). -/
theorem State.wordWrite_reset (s : State) (p : HostPort) (w : Word) (hkey : w.toNat / 0x10000 = 0x0D6E)
    (hgo : w.toNat % 2 = 1) : s.wordWrite (.here p) .SYS 0 0x110 w = s.intoReset (s.causeWord 4) := by
  have hbit : bit w.toNat 0 = true := by simp [bit, Nat.testBit, hgo]
  have hcode : (Writer.here p).code ≠ 0 := by cases p <;> decide
  have hrange : (fieldsAt 0x110).any (fun f => f.outside w) = false := by
    have hany : (fieldsAt 0x110).all (fun f => decide (f.range = .any)) = true := by decide +kernel
    refine List.any_eq_false.mpr fun f hf => ?_
    have hr := of_decide_eq_true (List.all_eq_true.mp hany f hf)
    simp [Field.outside, hr, FieldRange.holds]
  have hspecial : s.specialWrite (.here p) .SYS 0 0x110 w = some (s.resetWrite (.here p) w) := rfl
  unfold State.wordWrite
  simp [pageBase, PageKind.base, msixOffset, rodZeroWord, pbaOffset, wordOutside, hrange, hspecial, State.resetWrite, hbit,
    hkey, hcode]

/-- SYS.RESET is open to a port that is not bound, from the release of reset on (R99, R138). -/
theorem State.poke_reset (s : State) (p : HostPort) (w : Word) (hr : s.sys.inReset = false) (hb : s.bound p = false)
    (hkey : w.toNat / 0x10000 = 0x0D6E) (hgo : w.toNat % 2 = 1) :
    s.poke p 0x110 w.toNat = s.intoReset (s.causeWord 4) := by
  have hopen : s.mayWrite (.here p) 0x110 = true := by simp [State.mayWrite, State.bootOpen, hr, hb]
  have hpage : pageOf 0x110 = some (.SYS, 0) := by decide +kernel
  have hhas : State.present .SYS 0 0x110 = true := by decide +kernel
  have hstand : s.standbyBars (.here p) .SYS = false := by simp [State.standbyBars, State.lockstepKind]
  have hw : w32 w.toNat = w := BitVec.ofNat_toNat .. |>.trans (BitVec.setWidth_eq w)
  have hquiet : (quietOffset (0x110 - pageBase .SYS 0) && decide (0x110 < 0x100000)) = false := by decide
  have hwrite : s.pageWrite (.here p) .SYS 0 0x110 w 0xF = s.intoReset (s.causeWord 4) := by
    unfold State.pageWrite
    dsimp only
    rw [hquiet, hhas, hstand, s.wordWrite_reset p w hkey hgo]
    simp
  have hhost : s.hostWrite (.here p) (BitVec.ofNat 24 0x110) w 0xF = s.intoReset (s.causeWord 4) := by
    unfold State.hostWrite
    dsimp only
    rw [show (BitVec.ofNat 24 0x110).toNat / 4 * 4 = 0x110 from rfl, hopen, hpage, hb]
    simp only [Bool.not_true, Bool.false_eq_true, if_false]
    rw [hwrite, State.tellTwin_of_not_lockstep _ _ _ _ _ _ _ (by decide)]
  rw [State.poke, State.access, hw, hhost, State.intoReset_settleLoad]

/-- A rail below its trip level holds the hub in reset; a bank of VDDIO below 1 V forgets its mode (R79). -/
theorem execPowerOnReset_railLow {s : State} {r : Rail} {mv : Nat} (h : mv < tripMv s r) :
    ∃ y, execPowerOnReset (.railLow r mv) s = .next (s.powerReset y).finish := by
  unfold execPowerOnReset
  simp only [if_pos h]
  cases r with
  | VDDIO k =>
    by_cases hlow : mv < 1000
    · simp only [if_pos hlow]
      exact ⟨_, rfl⟩
    · simp only [if_neg hlow]
      exact ⟨_, rfl⟩
  | _ => exact ⟨_, rfl⟩

/-- All that a command that brings a reset does: the hub goes into reset from the state it finds, of which no more than the
SYS part has changed before. -/
theorem exec_of_resetBit {i : Instr} {s : State} {b : Nat} (h : resetBit i s = some b) :
    ∃ y, exec i s = .next (if b = 0 then s.powerReset y else s.sourceReset y b).finish := by
  cases i with
  | powerOnReset c =>
    cases c with
    | firstPower =>
      cases h
      exact ⟨_, rfl⟩
    | railLow r mv =>
      obtain ⟨hlow, rfl⟩ : mv < tripMv s r ∧ 0 = b := by simpa [resetBit] using h
      exact execPowerOnReset_railLow hlow
  | pinReset ns =>
    obtain ⟨hns, rfl⟩ : 1000 ≤ ns ∧ 1 = b := by simpa [resetBit] using h
    have hlong : ¬ ns < 100 := by omega
    have hsure : ¬ ns < 1000 := by omega
    refine ⟨(s.addSource .pin).sys, ?_⟩
    simp only [exec, execPinReset, hlong, hsure, hns, decide_true, Bool.true_or, if_true, if_false]
    rfl
  | refclkLoss ns =>
    obtain ⟨hns, rfl⟩ : 400 ≤ ns ∧ 2 = b := by simpa [resetBit] using h
    refine ⟨(s.addSource .clock).sys, ?_⟩
    simp only [exec, execRefclkLoss, if_pos hns]
    rfl
  | thermalReset t8 =>
    obtain ⟨ht, rfl⟩ : 960 ≤ t8 ∧ 3 = b := by simpa [resetBit] using h
    refine ⟨(s.addSource (.thermal 0)).sys, ?_⟩
    simp only [exec, execThermalReset, if_pos ht]
    rfl
  | softwareReset p w =>
    obtain ⟨⟨hr, hb, hkey, hgo⟩, rfl⟩ :
        (s.sys.inReset = false ∧ s.bound p = false ∧ w.toNat / 0x10000 = 0x0D6E ∧ w.toNat % 2 = 1) ∧ 4 = b := by
      simpa [resetBit] using h
    refine ⟨s.sys, ?_⟩
    simp only [exec, execSoftwareReset, s.poke_reset p w hr hb hkey hgo]
    rfl
  | watchdogReset ms =>
    obtain ⟨⟨hms, hr⟩, rfl⟩ : (100 ≤ ms ∧ s.sys.inReset = false) ∧ 5 = b := by simpa [resetBit] using h
    refine ⟨s.sys, ?_⟩
    simp only [exec, execWatchdogReset, hms, hr, Bool.not_false, and_self, if_true]
    rfl
  | _ => cases h

/-- Settles O6: every source goes through `intoReset`, which alone writes RST_CAUSE, and `finish` leaves it as it is. -/
theorem resetCauses : Obligations.ResetCauses := by
  unfold Obligations.ResetCauses
  intro i s b hb
  obtain ⟨y, hexec⟩ := exec_of_resetBit hb
  refine ⟨_, hexec, ?_⟩
  by_cases h0 : b = 0
  · simp only [if_pos h0]
    exact (State.intoReset_heldWith _ 1).testReset.finish
  · simp only [if_neg h0]
    exact (State.intoReset_heldWith _ _).finish

end Sys2Proof.Machine
end

section
/-!
SUPPORT. What a word written to SEM.LOCKk does to its semaphore (R158, R159): case by case, for every word, and the words that the
commands write.
-/
namespace Sys2Proof.Machine

/-! ### A word reaches SEM.LOCKk -/

/-- SEM.LOCKk stands on the SEM page, and none of its fields has a range of its own. -/
theorem semLock_place (n : Fin 64) : pageHas .SEM 0 (0x1100 + 4 * n.val) = true ∧
    (fieldsAt (0x1100 + 4 * n.val)).all (fun f => decide (f.range = .any)) = true := by
  revert n
  decide +kernel

/-- A field without a range takes every word. -/
theorem Field.outside_of_any {f : Field} (h : f.range = .any) (w : Word) : f.outside w = false := by
  simp [Field.outside, h, FieldRange.holds]

/-- R158, R159: a word written to SEM.LOCKk is the semaphore's own work, but for one with both CLAIM and RELEASE, which records
RANGE. -/
theorem State.wordWrite_semLock (s : State) (x : Writer) (n : Fin 64) (w : Word) :
    s.wordWrite x .SEM 0 (0x1100 + 4 * n.val) w =
      if w.toNat.testBit 2 && w.toNat.testBit 3 then s.err .SEM 0 7 else s.semWrite x n.val w := by
  have hn := n.isLt
  obtain ⟨o, ho⟩ : ∃ o, o = 0x100 + 4 * n.val := ⟨_, rfl⟩
  have hoff : 0x1100 + 4 * n.val - pageBase .SEM 0 = o := by
    have hbase : pageBase .SEM 0 = 0x1000 := by decide
    omega
  have hlo : 0x100 ≤ o := by omega
  have hhi : o < 0x200 := by omega
  have hrange : (fieldsAt (0x1100 + 4 * n.val)).any (fun f => f.outside w) = false :=
    List.any_eq_false.mpr fun f hf => by
      simp [Field.outside_of_any (of_decide_eq_true (List.all_eq_true.mp (semLock_place n).2 f hf)) w]
  have hboth : wordOutside .SEM o w = (w.toNat.testBit 2 && w.toNat.testBit 3) := by simp [wordOutside, bit, hlo, hhi]
  have hspecial : s.specialWrite x .SEM 0 o w = some (s.semWrite x n.val w) := by
    have hctrl : ¬ o = 4 := by omega
    have hforce : ¬ o = 0x14 := by omega
    have hindex : (o - 0x100) / 4 = n.val := by omega
    simp [State.specialWrite, hctrl, hforce, hlo, hhi, hindex]
  have hcoef : ¬ 0x100000 ≤ 0x1100 + 4 * n.val := by omega
  have hbead : ¬ (0x18000 ≤ 0x1100 + 4 * n.val ∧ 0x1100 + 4 * n.val < 0x1C000) := by omega
  have hframe : ¬ (0xC8000 ≤ 0x1100 + 4 * n.val ∧ 0x1100 + 4 * n.val < 0xCA000) := by omega
  unfold State.wordWrite
  simp only [hoff]
  simp [hcoef, hbead, hframe, hrange, hboth, hspecial, msixOffset, rodZeroWord, pbaOffset]

/-! ### The semaphore's own work, case by case -/

/-- A port that accesses at its own interface has an OWNER code. -/
theorem Writer.code_here (p : HostPort) : (Writer.here p).code = p.code ∧ p.code ≠ 0 := by
  cases p <;> decide

/-- R158: CLAIM of a free semaphore. -/
theorem State.semWrite_claim_free (s : State) (p : HostPort) (k : Nat) (w : Word) (hclaim : w.toNat.testBit 2 = true)
    (hfree : s.semOwner k = 0) : s.semWrite (.here p) k w =
      (s.setFld Reg.SEM_LOCK_OWNER 0 k p.code).setFld Reg.SEM_LOCK_TAG 0 k (Reg.SEM_LOCK_TAG.ofWord w) := by
  obtain ⟨hcode, hport⟩ := Writer.code_here p
  simp [State.semWrite, bit, hclaim, hfree, hcode, hport]

/-- R158: CLAIM of a held semaphore. -/
theorem State.semWrite_claim_held (s : State) (x : Writer) (k : Nat) (w : Word) (hclaim : w.toNat.testBit 2 = true)
    (hheld : s.semOwner k ≠ 0) : s.semWrite x k w = s := by
  simp [State.semWrite, bit, hclaim, hheld]

/-- R159: RELEASE or a TAG write of a semaphore that the writer does not own, by any other port or while it is free. -/
theorem State.semWrite_notOwner (s : State) (p : HostPort) (k : Nat) (w : Word) (hclaim : w.toNat.testBit 2 = false)
    (hother : s.semOwner k ≠ p.code) : s.semWrite (.here p) k w = s.err .SEM 0 6 := by
  obtain ⟨hcode, _⟩ := Writer.code_here p
  simp [State.semWrite, bit, hclaim, hcode, hother]

/-- The release of a semaphore reads NOTIFY after LOCKk is cleared, which is another word. -/
theorem State.semFree_eq_semFreed (s : State) (n : Fin 64) : s.semFree n.val = s.semFreed n.val := by
  have hn := n.isLt
  have hlock : ∀ f : Field, f = Reg.SEM_LOCK_OWNER ∨ f = Reg.SEM_LOCK_TAG → f.addr 0 n.val = 0x1100 + 4 * n.val := by
    rintro f (rfl | rfl) <;> rfl
  have hkeep : ∀ g : Field, 0x1200 ≤ g.addr 0 0 →
      ((s.setFld Reg.SEM_LOCK_OWNER 0 n.val 0).setFld Reg.SEM_LOCK_TAG 0 n.val 0).fld g 0 0 = s.fld g 0 0 := fun g hg => by
    rw [State.fld_setFld_addr _ _ _ _ _ _ _ _ (by rw [hlock _ (.inr rfl)]; omega),
      State.fld_setFld_addr _ _ _ _ _ _ _ _ (by rw [hlock _ (.inl rfl)]; omega)]
  have hnotify : ((s.setFld Reg.SEM_LOCK_OWNER 0 n.val 0).setFld Reg.SEM_LOCK_TAG 0 n.val 0).fld64 Reg.SEM_NOTIFY_LO_NOTIFY
      Reg.SEM_NOTIFY_HI_NOTIFY = s.fld64 Reg.SEM_NOTIFY_LO_NOTIFY Reg.SEM_NOTIFY_HI_NOTIFY := by
    simp only [State.fld64, hkeep _ (by decide : 0x1200 ≤ Reg.SEM_NOTIFY_LO_NOTIFY.addr 0 0),
      hkeep _ (by decide : 0x1200 ≤ Reg.SEM_NOTIFY_HI_NOTIFY.addr 0 0)]
  unfold State.semFree State.semFreed bit
  dsimp only
  rw [hnotify]

/-- R159: RELEASE by the owner. -/
theorem State.semWrite_release (s : State) (p : HostPort) (n : Fin 64) (w : Word) (hclaim : w.toNat.testBit 2 = false)
    (hrelease : w.toNat.testBit 3 = true) (hown : s.semOwner n.val = p.code) :
    s.semWrite (.here p) n.val w = s.semFreed n.val := by
  obtain ⟨hcode, hport⟩ := Writer.code_here p
  simp [State.semWrite, bit, hclaim, hrelease, hown, hcode, hport, State.semFree_eq_semFreed]

/-- R159: a TAG write by the owner. -/
theorem State.semWrite_tag (s : State) (p : HostPort) (k : Nat) (w : Word) (hclaim : w.toNat.testBit 2 = false)
    (hrelease : w.toNat.testBit 3 = false) (hown : s.semOwner k = p.code) :
    s.semWrite (.here p) k w = s.setFld Reg.SEM_LOCK_TAG 0 k (Reg.SEM_LOCK_TAG.ofWord w) := by
  obtain ⟨hcode, hport⟩ := Writer.code_here p
  simp [State.semWrite, bit, hclaim, hrelease, hown, hcode, hport]

theorem State.semFree_sys (s : State) (k : Nat) : (s.semFree k).sys = s.sys := by
  simp only [State.semFree]
  split
  · rw [State.raise_spec]
    rfl
  · rfl

theorem State.semWrite_sys (s : State) (x : Writer) (k : Nat) (w : Word) : (s.semWrite x k w).sys = s.sys := by
  unfold State.semWrite
  dsimp only
  repeat' split
  all_goals simp [State.semFree_sys]

/-! ### The write as a command -/

/-- A write of SEM.LOCKk through an open port settles what the word does to the semaphore; SEM is no lockstep page (R592). -/
theorem exec_writeSemLock (p : HostPort) (n : Fin 64) (w : Word) (s : State) (ho : s.portOpen p = true) :
    ∃ t, exec (.registerWrite p (BitVec.ofNat 24 (0x1100 + 4 * n.val)) w 0xF) s = .next t ∧
      Settles (if w.toNat.testBit 2 && w.toNat.testBit 3 then s.err .SEM 0 7 else s.semWrite (.here p) n.val w) t := by
  have hw : w32 w.toNat = w := BitVec.ofNat_toNat .. |>.trans (BitVec.setWidth_eq w)
  have hword := s.wordWrite_semLock (.here p) n w
  have hsys : (s.wordWrite (.here p) .SEM 0 (0x1100 + 4 * n.val) w).sys = s.sys := by
    rw [hword]
    split
    · rfl
    · exact s.semWrite_sys _ _ _
  have hset := s.poke_settles p .SEM 0 (0x1100 + 4 * n.val) w.toNat ho (.inl (by decide)) (semLock_place n).1
    (by rw [hw]; exact hsys)
  rw [State.poke, hw, hword] at hset
  exact ⟨_, rfl, hset⟩

/-- The same for a word with at most one of CLAIM and RELEASE, of which `u` is what it does. -/
theorem exec_writeSemLock_of {p : HostPort} {n : Fin 64} {w : Word} {s u : State} (ho : s.portOpen p = true)
    (hboth : w.toNat.testBit 2 = false ∨ w.toNat.testBit 3 = false) (hu : s.semWrite (.here p) n.val w = u) :
    ∃ t, exec (.registerWrite p (BitVec.ofNat 24 (0x1100 + 4 * n.val)) w 0xF) s = .next t ∧ Settles u t := by
  have hnot : (w.toNat.testBit 2 && w.toNat.testBit 3) = false := by
    rcases hboth with h | h <;> simp [h]
  have h := exec_writeSemLock p n w s ho
  rwa [hnot, if_neg Bool.false_ne_true, hu] at h

/-! ### The words that the commands write -/

/-- The word of SEM_CLAIM (`claim` = 1) or of SEM_TAG_WRITE (`claim` = 0) with its TAG. -/
def semTagWord (claim : Bool) (tag : BitVec 8) : Word := w32 (4 * b2n claim + 0x100 * tag.toNat)

theorem semTagWord_toNat (claim : Bool) (tag : BitVec 8) :
    (semTagWord claim tag).toNat = 4 * b2n claim + 0x100 * tag.toNat := by
  have htag := tag.isLt
  have hclaim : b2n claim ≤ 1 := by cases claim <;> decide
  exact Nat.mod_eq_of_lt (by omega)

theorem semTagWord_claim (claim : Bool) (tag : BitVec 8) : (semTagWord claim tag).toNat.testBit 2 = claim := by
  rw [semTagWord_toNat, Nat.testBit_eq_decide_div_mod_eq]
  cases claim <;> simp [b2n] <;> omega

theorem semTagWord_release (claim : Bool) (tag : BitVec 8) : (semTagWord claim tag).toNat.testBit 3 = false := by
  rw [semTagWord_toNat, Nat.testBit_eq_decide_div_mod_eq]
  cases claim <;> simp [b2n] <;> omega

theorem semTagWord_tag (claim : Bool) (tag : BitVec 8) : Reg.SEM_LOCK_TAG.ofWord (semTagWord claim tag) = tag.toNat := by
  have htag := tag.isLt
  have hclaim : b2n claim ≤ 1 := by cases claim <;> decide
  have hfield : Reg.SEM_LOCK_TAG.ofWord (semTagWord claim tag) = (semTagWord claim tag).toNat / 0x100 % 0x100 := rfl
  rw [hfield, semTagWord_toNat]
  omega

theorem exec_semClaim (p : HostPort) (n : Fin 64) (tag : BitVec 8) (s : State) : exec (.semClaim p n tag) s =
    exec (.registerWrite p (BitVec.ofNat 24 (0x1100 + 4 * n.val)) (semTagWord true tag) 0xF) s := rfl

theorem exec_semRelease (p : HostPort) (n : Fin 64) (s : State) : exec (.semRelease p n) s =
    exec (.registerWrite p (BitVec.ofNat 24 (0x1100 + 4 * n.val)) 8 0xF) s := rfl

theorem exec_semTagWrite (p : HostPort) (n : Fin 64) (tag : BitVec 8) (s : State) : exec (.semTagWrite p n tag) s =
    exec (.registerWrite p (BitVec.ofNat 24 (0x1100 + 4 * n.val)) (semTagWord false tag) 0xF) s := by
  have hword : semTagWord false tag = w32 (0x100 * tag.toNat) := by simp [semTagWord, b2n]
  rw [hword]
  rfl

/-! ### The obligations -/

/-- Settles O15: the command writes a word of SEM.LOCKk, and CLAIM of any word takes a free semaphore and leaves a held one. -/
theorem semaphoreClaim : Obligations.SemaphoreClaim := by
  unfold Obligations.SemaphoreClaim
  refine ⟨?place, ?command, ?commandHeld, ?word, ?wordHeld⟩
  case place => decide +kernel
  case command =>
    intro p n tag s ho hfree
    have hclaim := semTagWord_claim true tag
    have hwrite := s.semWrite_claim_free p n.val _ hclaim hfree
    rw [semTagWord_tag] at hwrite
    rw [exec_semClaim]
    exact exec_writeSemLock_of ho (.inr (semTagWord_release true tag)) hwrite
  case commandHeld =>
    intro p n tag s ho hheld
    have hwrite := s.semWrite_claim_held (.here p) n.val _ (semTagWord_claim true tag) hheld
    rw [exec_semClaim]
    exact exec_writeSemLock_of ho (.inr (semTagWord_release true tag)) hwrite
  case word =>
    intro p n w s ho hclaim hrelease hfree
    exact exec_writeSemLock_of ho (.inr hrelease) (s.semWrite_claim_free p n.val w hclaim hfree)
  case wordHeld =>
    intro p n w s ho hclaim hrelease hheld
    exact exec_writeSemLock_of ho (.inr hrelease) (s.semWrite_claim_held (.here p) n.val w hclaim hheld)

/-- Settles O16: the commands write words of SEM.LOCKk, and what a word without CLAIM does turns on whether the port owns the
semaphore, then on RELEASE. -/
theorem semaphoreRelease : Obligations.SemaphoreRelease := by
  unfold Obligations.SemaphoreRelease
  refine ⟨?release, ?wordRelease, ?releaseNotOwner, ?tag, ?tagNotOwner, ?wordTag, ?wordNotOwner, ?wordBoth⟩
  case release =>
    intro p n s ho hown
    rw [exec_semRelease]
    exact exec_writeSemLock_of ho (.inl rfl) (s.semWrite_release p n 8 rfl rfl hown)
  case wordRelease =>
    intro p n w s ho hclaim hrelease hown
    exact exec_writeSemLock_of ho (.inl hclaim) (s.semWrite_release p n w hclaim hrelease hown)
  case releaseNotOwner =>
    intro p n s ho hother
    rw [exec_semRelease]
    exact exec_writeSemLock_of ho (.inl rfl) (s.semWrite_notOwner p n.val 8 rfl hother)
  case tag =>
    intro p n tag s ho hown
    have hclaim := semTagWord_claim false tag
    have hwrite := s.semWrite_tag p n.val _ hclaim (semTagWord_release false tag) hown
    rw [semTagWord_tag] at hwrite
    rw [exec_semTagWrite]
    exact exec_writeSemLock_of ho (.inl hclaim) hwrite
  case tagNotOwner =>
    intro p n tag s ho hother
    have hclaim := semTagWord_claim false tag
    rw [exec_semTagWrite]
    exact exec_writeSemLock_of ho (.inl hclaim) (s.semWrite_notOwner p n.val _ hclaim hother)
  case wordTag =>
    intro p n w s ho hclaim hrelease hown
    exact exec_writeSemLock_of ho (.inl hclaim) (s.semWrite_tag p n.val w hclaim hrelease hown)
  case wordNotOwner =>
    intro p n w s ho hclaim hother
    exact exec_writeSemLock_of ho (.inl hclaim) (s.semWrite_notOwner p n.val w hclaim hother)
  case wordBoth =>
    intro p n w s ho hclaim hrelease
    have h := exec_writeSemLock p n w s ho
    rwa [hclaim, hrelease, Bool.and_self, if_pos rfl] at h

end Sys2Proof.Machine
end
